-- ==== Sys2Proof/Word.lean ====
section
/-!
DEFINITION. Sys2Proof/Word.lean: the word type of the machine and its plainest arithmetic (R35, R54).
-/
namespace Sys2Proof

/-- A register, queue entry, instruction or CSR: 32 bits (R80). -/
abbrev Word := BitVec 32

/-- One byte of memory (R35). -/
abbrev Byte := BitVec 8

/-- A word read as INT32 (R54). -/
def Word.int (w : Word) : Int := w.toInt

/-- An integer taken modulo 2^32 (R54). -/
def Word.ofInt (i : Int) : Word := BitVec.ofInt 32 i

/-- Bits `[lo + len - 1 : lo]` of a word as a number: the slice `x[hi:lo]` of R42. -/
def Word.bits (w : Word) (lo len : Nat) : Nat := w.toNat / 2 ^ lo % 2 ^ len

end Sys2Proof
end

