-- ==== Sys2Proof/Syntax.lean ====
section
/-!
DEFINITION. Sys2Proof/Syntax.lean: operands and coded fields (R43 to R46) and the one inductive of instructions.
Register numbers and operation codes are constructors here; raw encodings stay in Decode.lean.
-/
namespace Sys2Proof

/-- A general register number, x0 to x23 (R44). -/
abbrev XReg := Fin 24
/-- A vector register number, v0 to v15 (R238). -/
abbrev VReg := Fin 16

/-- A destination that is not forbidden by R44: x0 to x23, or q7, which pushes a trace mark (R41). -/
inductive Dst where
  | x (n : XReg)
  | q7
  deriving DecidableEq, Repr

/-- A source register: x0 to x23 or q0 to q6 (R44). -/
inductive SrcReg where
  | x (n : XReg)
  | q (n : Fin 7)
  deriving DecidableEq, Repr

/-- A source with its trap-on-empty bit (R41). -/
structure Src where
  reg : SrcReg
  e : Bool
  deriving DecidableEq, Repr

/-- Scopes that an encoding can name (R17, R45). -/
inductive Scope where
  | K | D | P | H
  deriving DecidableEq, Repr

/-- Order of an atomic, and of a CAS on success (R45). -/
inductive Order where
  | rlx | acq | rel | ar
  deriving DecidableEq, Repr

/-- Order of a CAS on failure, and of AWAIT (R45). -/
inductive AcqOrder where
  | rlx | acq
  deriving DecidableEq, Repr

/-- Order of ARRIVE (R45). -/
inductive RelOrder where
  | rlx | rel
  deriving DecidableEq, Repr

/-- Order of PHASE (R45). -/
inductive PhaseOrder where
  | sc | acq | rel | ar
  deriving DecidableEq, Repr

/-- Counters of R21, R23 (R45 codes them 0 to 7 in this order). -/
inductive Counter where
  | LD | ST | MX | VX | CP | GL | PS | RM
  deriving DecidableEq, Repr

/-- Engines (R20; R45 codes them 0 to 4 in this order). -/
inductive Engine where
  | MX | VX | CP | GL | PS
  deriving DecidableEq, Repr

/-- Status flags that BES and BEC test (R23, R45). -/
inductive Flag where
  | busy | fault | full
  deriving DecidableEq, Repr

/-- Rounding modes (R59, R45). -/
inductive Rnd where
  | rne | rtz | rdn | rup
  deriving DecidableEq, Repr

/-- Conditions of VCMP (R243). -/
inductive VCond where
  | eq | lt | le | ne | ieq | ilt | iltn
  deriving DecidableEq, Repr

/-- Kinds of VCVT (R246). -/
inductive VCvt where
  | f2i | i2f | n2f | f2b | b2f | f2h | h2f | f2i8 | f2n8 | i82f | n82f
  deriving DecidableEq, Repr

/-- Reductions of VRED (R249). -/
inductive VRedOp where
  | sum | min | max | isum
  deriving DecidableEq, Repr

/-- Shared-exponent formats (R61). -/
inductive SEFmt where
  | se2 | se4 | se7
  deriving DecidableEq, Repr

/-- Forms of VGTH and VSCT (R253). -/
inductive VForm3 where
  | w | h | b
  deriving DecidableEq, Repr

/-- Forms of VLD and VST (R253). -/
inductive VForm where
  | w | h | b | se2 | se4 | se7 | sc
  deriving DecidableEq, Repr

/-- A firmware image offered to a slot (R420, R422): its name for the signature check, its version, and its own
minimum version for the rollback counter (R421). -/
structure Image where
  name : Nat
  version : Nat
  minVersion : Nat
  deriving DecidableEq, Repr

/-- What a quay packet carries (R407). -/
inductive PacketBody where
  /-- A message (R145) for a rank at the core its sender's rank table names: its 16 words and its bulk payload (kinds 1 and
  2). -/
  | message (core rank : Nat) (words : List Word) (bulk : List Byte)
  /-- A ferry half (R344) for a rank at a core: tag, key, sequence, round, sender's FERRYID and binding, mass, values, poisoned or not. -/
  | half (core rank : Nat) (tag : Word) (key : Nat) (seq : Nat) (round : Nat) (fid : Word) (bind : Nat) (mass : Nat)
      (values : List Word) (poisoned : Bool)
  /-- A ferry reply (R346) to the ferry named by FERRYID, for a half of a binding: acknowledged or refused. -/
  | reply (fid : Word) (bind : Nat) (seq : Nat) (ack : Bool)
  deriving DecidableEq, Repr

/-- A packet of the quay fabric (R407): source package, sequence number, body. -/
structure Packet where
  src : Nat
  seq : Nat
  body : PacketBody
  deriving DecidableEq, Repr

/-- What the device does in the Copy stage of a tier move (R382): the target frames it chose, and whether the copy read back
differs. -/
structure CopyStage where
  frame : Nat
  differs : Bool
  deriving DecidableEq, Repr

/-- An M2S request as it arrives (R402). -/
structure M2SRequest where
  op : Nat
  addr : Nat
  deriving DecidableEq, Repr

/-- What a reset finds (R421): the mask of the dies that come through verification and self-test, and a recovery request over I3C. -/
structure PowerUp where
  pass : Nat
  i3c : Bool
  deriving DecidableEq, Repr

/-- The instructions and events of spec/opcode_table.json, one constructor a row (R47 for the words; the file
95_what_each_step_holds for the events). -/
inductive Instr where
  /-- `ADD` (R110). -/
  | add (d : Dst) (a : Src) (b : Src)
  /-- `SUB` (R110). -/
  | sub (d : Dst) (a : Src) (b : Src)
  /-- `AND` (R110). -/
  | and (d : Dst) (a : Src) (b : Src)
  /-- `OR` (R110). -/
  | or (d : Dst) (a : Src) (b : Src)
  /-- `XOR` (R110). -/
  | xor (d : Dst) (a : Src) (b : Src)
  /-- `ANDN` (R110). -/
  | andn (d : Dst) (a : Src) (b : Src)
  /-- `SLL` (R111). -/
  | sll (d : Dst) (a : Src) (b : Src)
  /-- `SRL` (R111). -/
  | srl (d : Dst) (a : Src) (b : Src)
  /-- `SRA` (R111). -/
  | sra (d : Dst) (a : Src) (b : Src)
  /-- `SLT` (R112). -/
  | slt (d : Dst) (a : Src) (b : Src)
  /-- `SLTN` (R112). -/
  | sltn (d : Dst) (a : Src) (b : Src)
  /-- `MIN` (R112). -/
  | min (d : Dst) (a : Src) (b : Src)
  /-- `MAX` (R112). -/
  | max (d : Dst) (a : Src) (b : Src)
  /-- `MINN` (R112). -/
  | minn (d : Dst) (a : Src) (b : Src)
  /-- `MAXN` (R112). -/
  | maxn (d : Dst) (a : Src) (b : Src)
  /-- `MUL` (R113). -/
  | mul (d : Dst) (a : Src) (b : Src)
  /-- `MULH` (R113). -/
  | mulh (d : Dst) (a : Src) (b : Src)
  /-- `MULHN` (R113). -/
  | mulhn (d : Dst) (a : Src) (b : Src)
  /-- `DIV` (R114). -/
  | div (d : Dst) (a : Src) (b : Src)
  /-- `DIVN` (R114). -/
  | divn (d : Dst) (a : Src) (b : Src)
  /-- `REM` (R114). -/
  | rem (d : Dst) (a : Src) (b : Src)
  /-- `REMN` (R114). -/
  | remn (d : Dst) (a : Src) (b : Src)
  /-- `CLZ` (R115). -/
  | clz (d : Dst) (a : Src)
  /-- `POP` (R115). -/
  | pop (d : Dst) (a : Src)
  /-- `BEXT` (R116). -/
  | bext (d : Dst) (a : Src) (b : Src)
  /-- `BINS` (R116). -/
  | bins (d : XReg) (a : Src) (b : Src)
  /-- `ADDI` (R117). -/
  | addi (d : Dst) (a : Src) (imm : BitVec 15)
  /-- `ANDI` (R117). -/
  | andi (d : Dst) (a : Src) (imm : BitVec 15)
  /-- `ORI` (R117). -/
  | ori (d : Dst) (a : Src) (imm : BitVec 15)
  /-- `XORI` (R117). -/
  | xori (d : Dst) (a : Src) (imm : BitVec 15)
  /-- `SLTI` (R117). -/
  | slti (d : Dst) (a : Src) (imm : BitVec 15)
  /-- `SLTNI` (R117). -/
  | sltni (d : Dst) (a : Src) (imm : BitVec 15)
  /-- `SLLI` (R118). -/
  | slli (d : Dst) (a : Src) (n : BitVec 5)
  /-- `SRLI` (R118). -/
  | srli (d : Dst) (a : Src) (n : BitVec 5)
  /-- `SRAI` (R118). -/
  | srai (d : Dst) (a : Src) (n : BitVec 5)
  /-- `LUI` (R119). -/
  | lui (d : Dst) (imm : BitVec 21)
  /-- `MULI` (R120). -/
  | muli (d : Dst) (a : Src) (imm : BitVec 15)
  /-- `LDB` (R121). -/
  | ldb (d : Dst) (a : Src) (off : BitVec 15)
  /-- `LDBN` (R121). -/
  | ldbn (d : Dst) (a : Src) (off : BitVec 15)
  /-- `LDH` (R121). -/
  | ldh (d : Dst) (a : Src) (off : BitVec 15)
  /-- `LDHN` (R121). -/
  | ldhn (d : Dst) (a : Src) (off : BitVec 15)
  /-- `LDW` (R121). -/
  | ldw (d : Dst) (a : Src) (off : BitVec 15)
  /-- `PREF` (R122). -/
  | pref (write : Bool) (a : Src) (off : BitVec 15)
  /-- `STB` (R123). -/
  | stb (a : Src) (b : Src) (off : BitVec 14)
  /-- `STH` (R123). -/
  | sth (a : Src) (b : Src) (off : BitVec 14)
  /-- `STW` (R123). -/
  | stw (a : Src) (b : Src) (off : BitVec 14)
  /-- `RSTW` (R124). -/
  | rstw (a : Src) (b : Src) (off : BitVec 14)
  /-- `SWP` (R126). -/
  | swp (d : Dst) (a : Src) (b : Src) (o : Order) (s : Scope)
  /-- `AADD` (R126). -/
  | aadd (d : Dst) (a : Src) (b : Src) (o : Order) (s : Scope)
  /-- `AAND` (R126). -/
  | aand (d : Dst) (a : Src) (b : Src) (o : Order) (s : Scope)
  /-- `AOR` (R126). -/
  | aor (d : Dst) (a : Src) (b : Src) (o : Order) (s : Scope)
  /-- `AXOR` (R126). -/
  | axor (d : Dst) (a : Src) (b : Src) (o : Order) (s : Scope)
  /-- `AMIN` (R126). -/
  | amin (d : Dst) (a : Src) (b : Src) (o : Order) (s : Scope)
  /-- `AMAX` (R126). -/
  | amax (d : Dst) (a : Src) (b : Src) (o : Order) (s : Scope)
  /-- `AMINN` (R126). -/
  | aminn (d : Dst) (a : Src) (b : Src) (o : Order) (s : Scope)
  /-- `AMAXN` (R126). -/
  | amaxn (d : Dst) (a : Src) (b : Src) (o : Order) (s : Scope)
  /-- `CAS` (R127). -/
  | cas (d : XReg) (a : Src) (b : Src) (so : Order) (fo : AcqOrder) (s : Scope)
  /-- `BEQ` (R128). -/
  | beq (a : Src) (b : Src) (off : BitVec 14)
  /-- `BNE` (R128). -/
  | bne (a : Src) (b : Src) (off : BitVec 14)
  /-- `BLT` (R128). -/
  | blt (a : Src) (b : Src) (off : BitVec 14)
  /-- `BGE` (R128). -/
  | bge (a : Src) (b : Src) (off : BitVec 14)
  /-- `BLTN` (R128). -/
  | bltn (a : Src) (b : Src) (off : BitVec 14)
  /-- `BGEN` (R128). -/
  | bgen (a : Src) (b : Src) (off : BitVec 14)
  /-- `JAL` (R129). -/
  | jal (d : Dst) (imm : BitVec 21)
  /-- `JALR` (R130). -/
  | jalr (d : Dst) (a : Src) (off : BitVec 15)
  /-- `LOOP` (R131). -/
  | loop (count : Src) (level : Bool) (len : BitVec 18)
  /-- `BES` (R135). -/
  | bes (eng : Engine) (flag : Flag) (off : BitVec 14)
  /-- `BEC` (R135). -/
  | bec (eng : Engine) (flag : Flag) (off : BitVec 14)
  /-- `ALIGN` (R136). -/
  | align
  /-- `PHASE` (R139). -/
  | phase (o : PhaseOrder) (s : Scope)
  /-- `WAITC` (R140). -/
  | waitc (c : Counter) (a : Src)
  /-- `ARRIVE` (R141). -/
  | arrive (o : RelOrder) (s : Scope) (a : Src)
  /-- `AWAIT` (R141). -/
  | await (o : AcqOrder) (s : Scope) (a : Src) (b : Src)
  /-- `SSTEP` (R142). -/
  | sstep (a : Src)
  /-- `EFENCE` (R143). -/
  | efence
  /-- `ICSYNC` (R144). -/
  | icsync (a : Src) (b : Src)
  /-- `SEND` (R147). -/
  | send (a : Src) (b : XReg) (eb : Bool) (n : BitVec 5)
  /-- `SENDB` (R147). -/
  | sendb (a : Src) (b : XReg) (eb : Bool)
  /-- `RECV` (R148). -/
  | recv (d : XReg) (a : Src)
  /-- `RECVB` (R148). -/
  | recvb (d : XReg) (a : Src) (b : Src)
  /-- `MIGR` (R149). -/
  | migr (a : Src)
  /-- `LAUNCH` (R150). -/
  | launch (d : Dst) (a : Src)
  /-- `TAKE` (R151). -/
  | take (d : Dst)
  /-- `PASS` (R151). -/
  | pass (a : Src) (b : XReg) (eb : Bool)
  /-- `TDONE` (R152). -/
  | tdone
  /-- `MARK` (R153). -/
  | mark (a : Src)
  /-- `TRAP` (R155). -/
  | trap (a : Src)
  /-- `ERET` (R156). -/
  | eret
  /-- `UPRET` (R156). -/
  | upret
  /-- `RESUME` (R157). -/
  | resume (a : Src)
  /-- `YIELD` (R158). -/
  | yield (a : Src)
  /-- `HALT` (R159). -/
  | halt
  /-- `BRK` (R155). -/
  | brk
  /-- `TMARK` (R160). -/
  | tmark (a : Src) (b : Src)
  /-- `CSRR` (R161). -/
  | csrr (d : Dst) (csr : BitVec 12)
  /-- `CSRW` (R161). -/
  | csrw (d : Dst) (a : Src) (csr : BitVec 12)
  /-- `CSRS` (R161). -/
  | csrs (d : Dst) (a : Src) (csr : BitVec 12)
  /-- `CSRC` (R161). -/
  | csrc (d : Dst) (a : Src) (csr : BitVec 12)
  /-- `FADD` (R163). -/
  | fadd (d : Dst) (a : Src) (b : Src) (rm : Rnd)
  /-- `FSUB` (R163). -/
  | fsub (d : Dst) (a : Src) (b : Src) (rm : Rnd)
  /-- `FMUL` (R163). -/
  | fmul (d : Dst) (a : Src) (b : Src) (rm : Rnd)
  /-- `FFMA` (R163). -/
  | ffma (d : XReg) (a : Src) (b : Src) (rm : Rnd)
  /-- `FMIN` (R164). -/
  | fmin (d : Dst) (a : Src) (b : Src)
  /-- `FMAX` (R164). -/
  | fmax (d : Dst) (a : Src) (b : Src)
  /-- `FEQ` (R164). -/
  | feq (d : Dst) (a : Src) (b : Src)
  /-- `FLT` (R164). -/
  | flt (d : Dst) (a : Src) (b : Src)
  /-- `FLE` (R164). -/
  | fle (d : Dst) (a : Src) (b : Src)
  /-- `FCVTW` (R165). -/
  | fcvtw (d : Dst) (a : Src) (rm : Rnd)
  /-- `FCVTF` (R165). -/
  | fcvtf (d : Dst) (a : Src)
  /-- `FCVTFN` (R165). -/
  | fcvtfn (d : Dst) (a : Src) (rm : Rnd)
  /-- `VADD` (R240). -/
  | vadd (d : VReg) (a : VReg) (b : VReg) (xs : XReg)
  /-- `VSUB` (R240). -/
  | vsub (d : VReg) (a : VReg) (b : VReg) (xs : XReg)
  /-- `VMUL` (R240). -/
  | vmul (d : VReg) (a : VReg) (b : VReg) (xs : XReg)
  /-- `VFMA` (R241). -/
  | vfma (d : VReg) (a : VReg) (b : VReg) (c : VReg) (xs : XReg)
  /-- `VMIN` (R240). -/
  | vmin (d : VReg) (a : VReg) (b : VReg) (xs : XReg)
  /-- `VMAX` (R240). -/
  | vmax (d : VReg) (a : VReg) (b : VReg) (xs : XReg)
  /-- `VABS` (R242). -/
  | vabs (d : VReg) (a : VReg)
  /-- `VNEG` (R242). -/
  | vneg (d : VReg) (a : VReg)
  /-- `VCMP` (R243). -/
  | vcmp (c : VCond) (d : VReg) (a : VReg) (b : VReg) (xs : XReg)
  /-- `VSEL` (R244). -/
  | vsel (d : VReg) (a : VReg) (b : VReg) (c : VReg)
  /-- `VAND` (R245). -/
  | vand (d : VReg) (a : VReg) (b : VReg) (xs : XReg)
  /-- `VOR` (R245). -/
  | vor (d : VReg) (a : VReg) (b : VReg) (xs : XReg)
  /-- `VXOR` (R245). -/
  | vxor (d : VReg) (a : VReg) (b : VReg) (xs : XReg)
  /-- `VSHL` (R245). -/
  | vshl (d : VReg) (a : VReg) (b : VReg) (xs : XReg)
  /-- `VSHR` (R245). -/
  | vshr (d : VReg) (a : VReg) (b : VReg) (xs : XReg)
  /-- `VSHR_A` (R245). -/
  | vshrA (d : VReg) (a : VReg) (b : VReg) (xs : XReg)
  /-- `VIADD` (R245). -/
  | viadd (d : VReg) (a : VReg) (b : VReg) (xs : XReg)
  /-- `VIMUL` (R245). -/
  | vimul (d : VReg) (a : VReg) (b : VReg) (xs : XReg)
  /-- `VCVT` (R246). -/
  | vcvt (k : VCvt) (d : VReg) (a : VReg)
  /-- `VRCP` (R247). -/
  | vrcp (d : VReg) (a : VReg)
  /-- `VRSQ` (R247). -/
  | vrsq (d : VReg) (a : VReg)
  /-- `VEXP2` (R247). -/
  | vexp2 (d : VReg) (a : VReg)
  /-- `VLOG2` (R247). -/
  | vlog2 (d : VReg) (a : VReg)
  /-- `VTANH` (R247). -/
  | vtanh (d : VReg) (a : VReg)
  /-- `VRED` (R249). -/
  | vred (r : VRedOp) (a : VReg)
  /-- `VMOV_COPY` (R248). -/
  | vmovCopy (d : VReg) (a : VReg)
  /-- `VMOV_BROADCAST` (R248). -/
  | vmovBroadcast (d : VReg) (xs : XReg)
  /-- `VMOV_IDX` (R248). -/
  | vmovIdx (d : VReg)
  /-- `VMOV_GET` (R248). -/
  | vmovGet (a : VReg) (xs : XReg)
  /-- `VQNT` (R251). -/
  | vqnt (f : SEFmt) (d : VReg) (a : VReg)
  /-- `VDQ` (R252). -/
  | vdq (f : SEFmt) (d : VReg) (a : VReg)
  /-- `VLD` (R254). -/
  | vld (f : VForm) (d : VReg) (xs : XReg)
  /-- `VST` (R254). -/
  | vst (f : VForm) (a : VReg) (xs : XReg)
  /-- `VGTH` (R255). -/
  | vgth (f : VForm3) (d : VReg) (a : VReg) (xs : XReg)
  /-- `VSCT` (R255). -/
  | vsct (f : VForm3) (a : VReg) (b : VReg) (xs : XReg)
  /-- `VREDPUT` (R256). -/
  | vredput (a : VReg) (xs : XReg)
  /-- `VREDGET` (R257). -/
  | vredget (d : VReg) (xs : XReg)
  /-- `VCLAIM` (R259). -/
  | vclaim (d : Dst) (a : Src)
  /-- `VREL` (R261). -/
  | vrel
  /-- `VYIELD` (R260). -/
  | vyield (d : Dst) (a : Src)
  /-- `VLOOP` (R262). -/
  | vloop (a : Src) (n : BitVec 5)
  /-- `MGEO` (R288). -/
  | mgeo (a : Src) (b : Src)
  /-- `MIDX` (R289). -/
  | midx (a : Src)
  /-- `MMUL` (R290). -/
  | mmul (a : Src) (b : Src)
  /-- `MZERO` (R293). -/
  | mzero (a : Src)
  /-- `MSCAC` (R294). -/
  | mscac
  /-- `MDRN` (R295). -/
  | mdrn (a : Src) (b : Src)
  /-- `MCHK` (R296). -/
  | mchk (d : Dst) (a : Src)
  /-- `GTW` (R325). -/
  | gtw (a : Src) (b : Src)
  /-- `GTD` (R326). -/
  | gtd (a : Src) (b : Src)
  /-- `GCMT` (R327). -/
  | gcmt (d : Dst) (a : Src)
  /-- `GINJ` (R329). -/
  | ginj (a : Src) (b : Src)
  /-- `GTAKE` (R330). -/
  | gtake (a : Src) (b : Src)
  /-- `GCTR` (R331). -/
  | gctr (d : Dst) (a : Src) (b : Src)
  /-- `GBIND` (R328). -/
  | gbind (a : Src) (b : Src)
  /-- `PSBIND` (R361). -/
  | psbind (d : Dst) (a : Src)
  /-- `PSREAD` (R362). -/
  | psread (a : Src) (b : Src)
  /-- `PSADD` (R363). -/
  | psadd (a : Src) (b : Src)
  /-- `PSMASS` (R364). -/
  | psmass (d : XReg) (a : Src)
  /-- `PSDIS` (R364). -/
  | psdis (d : Dst) (a : Src)
  /-- `PSJOIN` (R361). -/
  | psjoin (a : Src) (b : Src)
  /-- `PSLEAVE` (R367). -/
  | psleave (a : Src) (b : Src)
  /-- `PSQUI` (R366). -/
  | psqui (a : Src) (b : Src)
  /-- `PSSTEP` (R365). -/
  | psstep (a : Src)
  /-- `PSHELD` (R364). -/
  | psheld (d : XReg) (a : Src)
  /-- `CPY` (R394). -/
  | cpy (d : Dst) (a : Src)
  /-- `STFL` (R395). -/
  | stfl (a : Src) (b : Src)
  /-- `STIV` (R395). -/
  | stiv (a : Src) (b : Src)
  /-- `STFIL` (R395). -/
  | stfil (a : Src) (b : Src)
  /-- `TLBINV` (R396). -/
  | tlbinv (a : Src) (b : Src)
  /-- `DEMOTE` (R397). -/
  | demote (a : Src) (b : Src)
  /-- `PROMOTE` (R397). -/
  | promote (a : Src)
  /-- `DIVIDE_COMPLETE` (R114). -/
  | divideComplete (k : Nat) (n : Nat)
  /-- `LOAD_COMPLETE` (R108). -/
  | loadComplete (k : Nat) (n : Nat) (dest : Nat)
  /-- `LOAD_TRANSLATION_FAULT` (R109). -/
  | loadTranslationFault (k : Nat) (n : Nat)
  /-- `ALIGN_RELEASE` (R103). -/
  | alignRelease (k : Nat)
  /-- `LAND` (R168). -/
  | land (k : Nat)
  /-- `AWAIT_TEST` (R141). -/
  | awaitTest (k : Nat)
  /-- `STEP_GENERATION_COMPLETE` (R142). -/
  | stepGenerationComplete (l : Nat)
  /-- `MESSAGE_ARRIVAL` (R180). -/
  | messageArrival (k : Nat)
  /-- `RECEIVE` (R148). -/
  | receive (k : Nat) (n : Nat)
  /-- `BERTH_MOVE` (R181). -/
  | berthMove (k : Nat) (ch : Nat)
  /-- `ITEM_PUSH` (R93). -/
  | itemPush (k : Nat)
  /-- `YIELD_TIMEOUT` (R158). -/
  | yieldTimeout (k : Nat)
  /-- `ILLEGAL_WORD` (R48). -/
  | illegalWord (w : Word)
  /-- `IMPRECISE_ERROR_DELIVERY` (R195). -/
  | impreciseErrorDelivery (k : Nat)
  /-- `REARMED_ACCESS_COMPLETE` (R193). -/
  | rearmedAccessComplete (k : Nat) (n : Nat)
  /-- `QUEUE_HELD_DELIVERY` (R22). -/
  | queueHeldDelivery (k : Nat) (q : Nat)
  /-- `ENGINE_ACCEPT` (R32). -/
  | engineAccept (k : Nat)
  /-- `ENGINE_READ` (R175). -/
  | engineRead (k : Nat) (e : Engine)
  /-- `ENGINE_COMPLETE` (R176). -/
  | engineComplete (k : Nat) (e : Engine)
  /-- `KERNEL_BOUNDARY` (R183). -/
  | kernelBoundary (l : Nat)
  /-- `LAUNCH_PART_RECEIVE` (R431). -/
  | launchPartReceive (l : Nat) (die : Nat)
  /-- `DISPATCH_ASSIGN` (R95). -/
  | dispatchAssign (k : Nat) (l : Nat)
  /-- `LAUNCH_STARVATION_TIMEOUT` (R100). -/
  | launchStarvationTimeout (l : Nat) (die : Nat)
  /-- `WITHDRAWN_DIE_LEAVE` (R101). -/
  | withdrawnDieLeave (l : Nat) (die : Nat)
  /-- `ADDRESS_BREAKPOINT_MATCH` (R211). -/
  | addressBreakpointMatch (k : Nat)
  /-- `DBGICINV_COMPLETE` (R212). -/
  | dbgicinvComplete (k : Nat)
  /-- `PRECTL_SAVE` (R202). -/
  | prectlSave (k : Nat)
  /-- `SAVE_COMPLETE` (R202). -/
  | saveComplete (k : Nat)
  /-- `PRECTL_RESTORE` (R206). -/
  | prectlRestore (k : Nat)
  /-- `TRACE_DRAIN` (R214). -/
  | traceDrain (k : Nat)
  /-- `ROUTER_REDUCE` (R74). -/
  | routerReduce (die : Nat) (level : Nat) (idx : Nat) (tag : Nat)
  /-- `VECTOR_ENTRY_COMPLETE` (R224). -/
  | vectorEntryComplete (k : Nat)
  /-- `GRANT_RENEGOTIATION` (R258). -/
  | grantRenegotiation (k : Nat)
  /-- `MATRIX_TILE_START` (R275). -/
  | matrixTileStart (c : Nat) (k : Nat)
  /-- `GALLERY_ADMIT` (R300). -/
  | galleryAdmit (die : Nat) (c : Nat)
  /-- `GALLERY_STAGE` (R306). -/
  | galleryStage (die : Nat) (n : Nat)
  /-- `GALLERY_LEAVE` (R309). -/
  | galleryLeave (die : Nat) (n : Nat)
  /-- `EXIT_BUFFER_RELEASE` (R310). -/
  | exitBufferRelease (die : Nat) (c : Nat)
  /-- `GALLERY_SHADOW_WRITE` (R334). -/
  | galleryShadowWrite (k : Nat)
  /-- `GALLERY_COMMIT` (R312). -/
  | galleryCommit (die : Nat) (c : Nat)
  /-- `GALLERY_SHADOW_COPY_DONE` (R312). -/
  | galleryShadowCopyDone (die : Nat) (c : Nat)
  /-- `GALLERY_BIND_EFFECT` (R328). -/
  | galleryBindEffect (die : Nat) (c : Nat)
  /-- `FERRY_ROUND` (R345). -/
  | ferryRound (die : Nat) (g : Nat)
  /-- `FERRY_HALF_ARRIVAL` (R346). -/
  | ferryHalfArrival (die : Nat) (n : Nat)
  /-- `FERRY_ACK_ARRIVAL` (R347). -/
  | ferryAckArrival (die : Nat) (n : Nat)
  /-- `FERRY_REFUSAL_ARRIVAL` (R347). -/
  | ferryRefusalArrival (die : Nat) (n : Nat)
  /-- `FERRY_HALF_TIMEOUT` (R347). -/
  | ferryHalfTimeout (die : Nat) (b : Nat)
  /-- `FERRY_HANDOVER` (R351). -/
  | ferryHandover (die : Nat) (b : Nat)
  /-- `FERRY_CHECKPOINT_COPY_DONE` (R414). -/
  | ferryCheckpointCopyDone (k : Nat)
  /-- `COPY_ROW_READ` (R398). -/
  | copyRowRead (k : Nat)
  /-- `TIER_MOVE` (R382). -/
  | tierMove (n : Nat) (copy : CopyStage)
  /-- `TIER_MOVE_RELEASE` (R382). -/
  | tierMoveRelease (n : Nat)
  /-- `WQ_TAIL_STORE` (R98). -/
  | wqTailStore (q : Nat)
  /-- `LEADER_ELECTION` (R99). -/
  | leaderElection
  /-- `HEARTBEAT_TIMEOUT` (R99). -/
  | heartbeatTimeout (die : Nat)
  /-- `DIE_SET_REQUEST` (R101). -/
  | dieSetRequest (l : Nat) (mask : Nat)
  /-- `WQCTL_WRITE` (R98). -/
  | wqctlWrite (k : Nat) (v : Word)
  /-- `FEMASK_WRITE` (R81). -/
  | femaskWrite (k : Nat) (v : Word)
  /-- `SRAMCFG_WRITE` (R85). -/
  | sramcfgWrite (k : Nat) (v : Word)
  /-- `LSTAT_WRITE` (R133). -/
  | lstatWrite (k : Nat) (v : Word)
  /-- `STBASE_WRITE` (R372). -/
  | stbaseWrite (k : Nat) (v : Word)
  /-- `DBG_HALTREQ` (R210). -/
  | dbgHaltreq (k : Nat)
  /-- `DBG_RESUMEREQ` (R210). -/
  | dbgResumereq (k : Nat)
  /-- `DBGDATA_WRITE` (R209). -/
  | dbgdataWrite (k : Nat) (v : Word)
  /-- `DBGMDATA_READ` (R209). -/
  | dbgmdataRead (k : Nat)
  /-- `DBGMDATA_WRITE` (R209). -/
  | dbgmdataWrite (k : Nat) (v : Word)
  /-- `DBGICINV_WRITE` (R212). -/
  | dbgicinvWrite (k : Nat) (v : Word)
  /-- `NPUSH` (R371). -/
  | npush (k : Nat) (v : Word)
  /-- `IMPPOP` (R196). -/
  | imppop (k : Nat)
  /-- `BASIN_DEFINE` (R197). -/
  | basinDefine (k : Nat) (v : Word)
  /-- `BASIN_RESET` (R199). -/
  | basinReset (k : Nat)
  /-- `DIE_LOST` (R200). -/
  | dieLost (die : Nat)
  /-- `MATRIX_CSR_WRITE` (R270). -/
  | matrixCsrWrite (k : Nat) (csr : BitVec 12) (v : Word)
  /-- `TELEMETRY_COUNTER_SAMPLE` (R318). -/
  | telemetryCounterSample (die : Nat)
  /-- `POWER_SAMPLE` (R318). -/
  | powerSample (die : Nat) (watts : Nat) (temp : Nat)
  /-- `GOWN_WRITE` (R316). -/
  | gownWrite (die : Nat) (c : Nat) (v : Word)
  /-- `FGEVQ_READ` (R354). -/
  | fgevqRead (k : Nat)
  /-- `FNB_WRITE` (R341). -/
  | fnbWrite (k : Nat) (v : Word)
  /-- `FGTAG_WRITE` (R339). -/
  | fgtagWrite (k : Nat) (v : Word)
  /-- `FGOWN_WRITE` (R343). -/
  | fgownWrite (die : Nat) (v : Word)
  /-- `FERRYID_WRITE` (R343). -/
  | ferryidWrite (die : Nat) (v : Word)
  /-- `FCKCTL_GO` (R414). -/
  | fckctlGo (k : Nat) (v : Word)
  /-- `DEMOTION_ENGINE_START` (R381). -/
  | demotionEngineStart (die : Nat) (part : Nat) (tier : Nat)
  /-- `STORAGE_RING_STATUS` (R405). -/
  | storageRingStatus (part : Nat) (n : Nat) (ok : Bool)
  /-- `STORQCTL_WRITE` (R405). -/
  | storqctlWrite (k : Nat) (v : Word)
  /-- `BERTH_WRITE` (R388). -/
  | berthWrite (k : Nat) (csr : BitVec 12) (v : Word)
  /-- `BERTH_RECONFIG_APPLY` (R388). -/
  | berthReconfigApply (part : Nat) (rank : Nat)
  /-- `RANKSET_WRITE` (R389). -/
  | ranksetWrite (k : Nat) (v : Word)
  /-- `PGCTL_WRITE` (R430). -/
  | pgctlWrite (die : Nat) (v : Word)
  /-- `TGRANT_WRITE` (R430). -/
  | tgrantWrite (die : Nat) (n : Nat) (v : Word)
  /-- `QUAY_PACKET_ARRIVAL` (R408). -/
  | quayPacketArrival (p : Packet)
  /-- `E2E_ACK_ARRIVAL` (R409). -/
  | e2eAckArrival (peer : Nat) (seq : Nat) (ans : Nat)
  /-- `PACKET_RETRANSMIT_TIMEOUT` (R409). -/
  | packetRetransmitTimeout (peer : Nat) (seq : Nat)
  /-- `LINK_REMOVED` (R410). -/
  | linkRemoved (n : Nat)
  /-- `PACKAGE_LOST` (R411). -/
  | packageLost (peer : Nat)
  /-- `SNP_INV` (R403). -/
  | snpInv (line : Nat) (data : List Byte)
  /-- `SNP_DATA` (R402). -/
  | snpData (line : Nat)
  /-- `SNP_CUR` (R402). -/
  | snpCur (line : Nat)
  /-- `GO` (R403). -/
  | go (k : Nat)
  /-- `GO_WRITE_PULL` (R402). -/
  | goWritePull (k : Nat)
  /-- `WRITE_PULL` (R402). -/
  | writePull (k : Nat)
  /-- `GO_ERR` (R402). -/
  | goErr (k : Nat)
  /-- `MEM_RD` (R403). -/
  | memRd (line : Nat)
  /-- `MEM_WR` (R403). -/
  | memWr (line : Nat) (data : List Byte)
  /-- `MEM_WR_PTL` (R403). -/
  | memWrPtl (line : Nat) (mask : Nat) (data : List Byte)
  /-- `M2S_REFUSED` (R402): the request's opcode and address, and whether it reads. -/
  | m2sRefused (req : M2SRequest) (rd : Bool)
  /-- `SKOVAZ_LINK_LOST` (R404). -/
  | skovazLinkLost
  /-- `POWER_ON_RESET` (R421): the dies that come through, and a recovery request over I3C. -/
  | powerOnReset (up : PowerUp)
  /-- `RECOVERY_IMAGE_LOAD` (R422). -/
  | recoveryImageLoad (slot : Bool) (img : Image)
  /-- `RECOVERY_KEY_ENROL` (R422). -/
  | recoveryKeyEnrol (hash : Nat) (present : Bool)
  /-- `BISTCTL_GO` (R423). -/
  | bistctlGo (die : Nat) (v : Word)
  /-- `BIST_COMPLETE` (R423). -/
  | bistComplete (die : Nat) (res : Word)
  /-- `REMAP_GO` (R424). -/
  | remapGo (die : Nat) (v : Word)
  /-- `PARTCTL_WRITE` (R419). -/
  | partctlWrite (die : Nat) (v : Word)
  /-- `CLUPART_WRITE` (R419). -/
  | clupartWrite (die : Nat) (v : Word)
  /-- `POLCTL_GO` (R426). -/
  | polctlGo (k : Nat) (v : Word)
  /-- `BBDATA_READ` (R418). -/
  | bbdataRead (k : Nat)
  /-- `BLACK_BOX_FLUSH` (R427). -/
  | blackBoxFlush (die : Nat)
  /-- `INPUT_POWER_LOSS` (R427). -/
  | inputPowerLoss
  /-- `CLOCK_STEP` (R429). -/
  | clockStep (die : Nat) (up : Bool) (heat : Bool)
  /-- `JUNCTION_OVERHEAT` (R429). -/
  | junctionOverheat (die : Nat)
  /-- `LINK_RETURN` (R410). -/
  | linkReturn (n : Nat)
  /-- `UNCORRECTABLE_ERROR_DETECTED` (R194). -/
  | uncorrectableErrorDetected (line : Nat) (k : Nat) (dir : Bool)
  /-- `LAUNCH_CANCEL` (R199). -/
  | launchCancel (l : Nat)
  deriving DecidableEq, Repr

end Sys2Proof
end

