-- ==== Sys2Proof/WellFormed.lean ====
section
/-!
DEFINITION. Sys2Proof/WellFormed.lean: which instructions a word can encode (R44, R45, R131, R239), and which rows of
the opcode table have a word at all.
-/
namespace Sys2Proof

/-- The row has a word of 32 bits; the others are events. -/
def Instr.isWord : Instr → Bool
  | .add .. => true
  | .sub .. => true
  | .and .. => true
  | .or .. => true
  | .xor .. => true
  | .andn .. => true
  | .sll .. => true
  | .srl .. => true
  | .sra .. => true
  | .slt .. => true
  | .sltn .. => true
  | .min .. => true
  | .max .. => true
  | .minn .. => true
  | .maxn .. => true
  | .mul .. => true
  | .mulh .. => true
  | .mulhn .. => true
  | .div .. => true
  | .divn .. => true
  | .rem .. => true
  | .remn .. => true
  | .clz .. => true
  | .pop .. => true
  | .bext .. => true
  | .bins .. => true
  | .addi .. => true
  | .andi .. => true
  | .ori .. => true
  | .xori .. => true
  | .slti .. => true
  | .sltni .. => true
  | .slli .. => true
  | .srli .. => true
  | .srai .. => true
  | .lui .. => true
  | .muli .. => true
  | .ldb .. => true
  | .ldbn .. => true
  | .ldh .. => true
  | .ldhn .. => true
  | .ldw .. => true
  | .pref .. => true
  | .stb .. => true
  | .sth .. => true
  | .stw .. => true
  | .rstw .. => true
  | .swp .. => true
  | .aadd .. => true
  | .aand .. => true
  | .aor .. => true
  | .axor .. => true
  | .amin .. => true
  | .amax .. => true
  | .aminn .. => true
  | .amaxn .. => true
  | .cas .. => true
  | .beq .. => true
  | .bne .. => true
  | .blt .. => true
  | .bge .. => true
  | .bltn .. => true
  | .bgen .. => true
  | .jal .. => true
  | .jalr .. => true
  | .loop .. => true
  | .bes .. => true
  | .bec .. => true
  | .align => true
  | .phase .. => true
  | .waitc .. => true
  | .arrive .. => true
  | .await .. => true
  | .sstep .. => true
  | .efence => true
  | .icsync .. => true
  | .send .. => true
  | .sendb .. => true
  | .recv .. => true
  | .recvb .. => true
  | .migr .. => true
  | .launch .. => true
  | .take .. => true
  | .pass .. => true
  | .tdone => true
  | .mark .. => true
  | .trap .. => true
  | .eret => true
  | .upret => true
  | .resume .. => true
  | .yield .. => true
  | .halt => true
  | .brk => true
  | .tmark .. => true
  | .csrr .. => true
  | .csrw .. => true
  | .csrs .. => true
  | .csrc .. => true
  | .fadd .. => true
  | .fsub .. => true
  | .fmul .. => true
  | .ffma .. => true
  | .fmin .. => true
  | .fmax .. => true
  | .feq .. => true
  | .flt .. => true
  | .fle .. => true
  | .fcvtw .. => true
  | .fcvtf .. => true
  | .fcvtfn .. => true
  | .vadd .. => true
  | .vsub .. => true
  | .vmul .. => true
  | .vfma .. => true
  | .vmin .. => true
  | .vmax .. => true
  | .vabs .. => true
  | .vneg .. => true
  | .vcmp .. => true
  | .vsel .. => true
  | .vand .. => true
  | .vor .. => true
  | .vxor .. => true
  | .vshl .. => true
  | .vshr .. => true
  | .vshrA .. => true
  | .viadd .. => true
  | .vimul .. => true
  | .vcvt .. => true
  | .vrcp .. => true
  | .vrsq .. => true
  | .vexp2 .. => true
  | .vlog2 .. => true
  | .vtanh .. => true
  | .vred .. => true
  | .vmovCopy .. => true
  | .vmovBroadcast .. => true
  | .vmovIdx .. => true
  | .vmovGet .. => true
  | .vqnt .. => true
  | .vdq .. => true
  | .vld .. => true
  | .vst .. => true
  | .vgth .. => true
  | .vsct .. => true
  | .vredput .. => true
  | .vredget .. => true
  | .vclaim .. => true
  | .vrel => true
  | .vyield .. => true
  | .vloop .. => true
  | .mgeo .. => true
  | .midx .. => true
  | .mmul .. => true
  | .mzero .. => true
  | .mscac => true
  | .mdrn .. => true
  | .mchk .. => true
  | .gtw .. => true
  | .gtd .. => true
  | .gcmt .. => true
  | .ginj .. => true
  | .gtake .. => true
  | .gctr .. => true
  | .gbind .. => true
  | .psbind .. => true
  | .psread .. => true
  | .psadd .. => true
  | .psmass .. => true
  | .psdis .. => true
  | .psjoin .. => true
  | .psleave .. => true
  | .psqui .. => true
  | .psstep .. => true
  | .psheld .. => true
  | .cpy .. => true
  | .stfl .. => true
  | .stiv .. => true
  | .stfil .. => true
  | .tlbinv .. => true
  | .demote .. => true
  | .promote .. => true
  | .divideComplete .. => false
  | .loadComplete .. => false
  | .loadTranslationFault .. => false
  | .alignRelease .. => false
  | .land .. => false
  | .awaitTest .. => false
  | .stepGenerationComplete .. => false
  | .messageArrival .. => false
  | .receive .. => false
  | .berthMove .. => false
  | .itemPush .. => false
  | .yieldTimeout .. => false
  | .illegalWord .. => false
  | .impreciseErrorDelivery .. => false
  | .rearmedAccessComplete .. => false
  | .queueHeldDelivery .. => false
  | .engineAccept .. => false
  | .engineRead .. => false
  | .engineComplete .. => false
  | .kernelBoundary .. => false
  | .launchPartReceive .. => false
  | .dispatchAssign .. => false
  | .launchStarvationTimeout .. => false
  | .withdrawnDieLeave .. => false
  | .addressBreakpointMatch .. => false
  | .dbgicinvComplete .. => false
  | .prectlSave .. => false
  | .saveComplete .. => false
  | .prectlRestore .. => false
  | .traceDrain .. => false
  | .routerReduce .. => false
  | .vectorEntryComplete .. => false
  | .grantRenegotiation .. => false
  | .matrixTileStart .. => false
  | .galleryAdmit .. => false
  | .galleryStage .. => false
  | .galleryLeave .. => false
  | .exitBufferRelease .. => false
  | .galleryShadowWrite .. => false
  | .galleryCommit .. => false
  | .galleryShadowCopyDone .. => false
  | .galleryBindEffect .. => false
  | .ferryRound .. => false
  | .ferryHalfArrival .. => false
  | .ferryAckArrival .. => false
  | .ferryRefusalArrival .. => false
  | .ferryHalfTimeout .. => false
  | .ferryHandover .. => false
  | .ferryCheckpointCopyDone .. => false
  | .copyRowRead .. => false
  | .tierMove .. => false
  | .tierMoveRelease .. => false
  | .wqTailStore .. => false
  | .leaderElection => false
  | .heartbeatTimeout .. => false
  | .dieSetRequest .. => false
  | .wqctlWrite .. => false
  | .femaskWrite .. => false
  | .sramcfgWrite .. => false
  | .lstatWrite .. => false
  | .stbaseWrite .. => false
  | .dbgHaltreq .. => false
  | .dbgResumereq .. => false
  | .dbgdataWrite .. => false
  | .dbgmdataRead .. => false
  | .dbgmdataWrite .. => false
  | .dbgicinvWrite .. => false
  | .npush .. => false
  | .imppop .. => false
  | .basinDefine .. => false
  | .basinReset .. => false
  | .dieLost .. => false
  | .matrixCsrWrite .. => false
  | .telemetryCounterSample .. => false
  | .powerSample .. => false
  | .gownWrite .. => false
  | .fgevqRead .. => false
  | .fnbWrite .. => false
  | .fgtagWrite .. => false
  | .fgownWrite .. => false
  | .ferryidWrite .. => false
  | .fckctlGo .. => false
  | .demotionEngineStart .. => false
  | .storageRingStatus .. => false
  | .storqctlWrite .. => false
  | .berthWrite .. => false
  | .berthReconfigApply .. => false
  | .ranksetWrite .. => false
  | .pgctlWrite .. => false
  | .tgrantWrite .. => false
  | .quayPacketArrival .. => false
  | .e2eAckArrival .. => false
  | .packetRetransmitTimeout .. => false
  | .linkRemoved .. => false
  | .packageLost .. => false
  | .snpInv .. => false
  | .snpData .. => false
  | .snpCur .. => false
  | .go .. => false
  | .goWritePull .. => false
  | .writePull .. => false
  | .goErr .. => false
  | .memRd .. => false
  | .memWr .. => false
  | .memWrPtl .. => false
  | .m2sRefused .. => false
  | .skovazLinkLost => false
  | .powerOnReset .. => false
  | .recoveryImageLoad .. => false
  | .recoveryKeyEnrol .. => false
  | .bistctlGo .. => false
  | .bistComplete .. => false
  | .remapGo .. => false
  | .partctlWrite .. => false
  | .clupartWrite .. => false
  | .polctlGo .. => false
  | .bbdataRead .. => false
  | .blackBoxFlush .. => false
  | .inputPowerLoss => false
  | .clockStep .. => false
  | .junctionOverheat .. => false
  | .linkReturn .. => false
  | .uncorrectableErrorDetected .. => false
  | .launchCancel .. => false

/-- A general register between two numbers. -/
def XReg.between (r : XReg) (lo hi : Nat) : Bool := lo ≤ r.val && r.val ≤ hi

/-- The broadcast rule of R239. -/
def bcastOk (b : VReg) (xs : XReg) : Bool := xs.val == 0 || b.val == 0

/-- The limits that the encoding puts on operands beyond their types. -/
def Instr.wellFormed : Instr → Bool
  | .add .. => true
  | .sub .. => true
  | .and .. => true
  | .or .. => true
  | .xor .. => true
  | .andn .. => true
  | .sll .. => true
  | .srl .. => true
  | .sra .. => true
  | .slt .. => true
  | .sltn .. => true
  | .min .. => true
  | .max .. => true
  | .minn .. => true
  | .maxn .. => true
  | .mul .. => true
  | .mulh .. => true
  | .mulhn .. => true
  | .div .. => true
  | .divn .. => true
  | .rem .. => true
  | .remn .. => true
  | .clz .. => true
  | .pop .. => true
  | .bext .. => true
  | .bins .. => true
  | .addi .. => true
  | .andi .. => true
  | .ori .. => true
  | .xori .. => true
  | .slti .. => true
  | .sltni .. => true
  | .slli .. => true
  | .srli .. => true
  | .srai .. => true
  | .lui .. => true
  | .muli .. => true
  | .ldb .. => true
  | .ldbn .. => true
  | .ldh .. => true
  | .ldhn .. => true
  | .ldw .. => true
  | .pref .. => true
  | .stb .. => true
  | .sth .. => true
  | .stw .. => true
  | .rstw .. => true
  | .swp .. => true
  | .aadd .. => true
  | .aand .. => true
  | .aor .. => true
  | .axor .. => true
  | .amin .. => true
  | .amax .. => true
  | .aminn .. => true
  | .amaxn .. => true
  | .cas .. => true
  | .beq .. => true
  | .bne .. => true
  | .blt .. => true
  | .bge .. => true
  | .bltn .. => true
  | .bgen .. => true
  | .jal .. => true
  | .jalr .. => true
  | .loop _ _ len => len.toNat != 0
  | .bes .. => true
  | .bec .. => true
  | .align => true
  | .phase .. => true
  | .waitc .. => true
  | .arrive .. => true
  | .await .. => true
  | .sstep .. => true
  | .efence => true
  | .icsync .. => true
  | .send _ b _ n => 1 ≤ n.toNat && n.toNat ≤ 8 && b.val + n.toNat ≤ 24
  | .sendb _ b _ => b.between 1 22
  | .recv .. => true
  | .recvb .. => true
  | .migr .. => true
  | .launch .. => true
  | .take .. => true
  | .pass _ b _ => b.between 1 21
  | .tdone => true
  | .mark .. => true
  | .trap .. => true
  | .eret => true
  | .upret => true
  | .resume .. => true
  | .yield .. => true
  | .halt => true
  | .brk => true
  | .tmark .. => true
  | .csrr .. => true
  | .csrw .. => true
  | .csrs .. => true
  | .csrc .. => true
  | .fadd .. => true
  | .fsub .. => true
  | .fmul .. => true
  | .ffma .. => true
  | .fmin .. => true
  | .fmax .. => true
  | .feq .. => true
  | .flt .. => true
  | .fle .. => true
  | .fcvtw .. => true
  | .fcvtf .. => true
  | .fcvtfn .. => true
  | .vadd _ _ b xs => bcastOk b xs
  | .vsub _ _ b xs => bcastOk b xs
  | .vmul _ _ b xs => bcastOk b xs
  | .vfma _ _ b _ xs => bcastOk b xs
  | .vmin _ _ b xs => bcastOk b xs
  | .vmax _ _ b xs => bcastOk b xs
  | .vabs .. => true
  | .vneg .. => true
  | .vcmp _ _ _ b xs => bcastOk b xs
  | .vsel .. => true
  | .vand _ _ b xs => bcastOk b xs
  | .vor _ _ b xs => bcastOk b xs
  | .vxor _ _ b xs => bcastOk b xs
  | .vshl _ _ b xs => bcastOk b xs
  | .vshr _ _ b xs => bcastOk b xs
  | .vshrA _ _ b xs => bcastOk b xs
  | .viadd _ _ b xs => bcastOk b xs
  | .vimul _ _ b xs => bcastOk b xs
  | .vcvt .. => true
  | .vrcp .. => true
  | .vrsq .. => true
  | .vexp2 .. => true
  | .vlog2 .. => true
  | .vtanh .. => true
  | .vred .. => true
  | .vmovCopy .. => true
  | .vmovBroadcast _ xs => xs.val != 0
  | .vmovIdx .. => true
  | .vmovGet .. => true
  | .vqnt .. => true
  | .vdq .. => true
  | .vld .. => true
  | .vst .. => true
  | .vgth .. => true
  | .vsct .. => true
  | .vredput .. => true
  | .vredget .. => true
  | .vclaim .. => true
  | .vrel => true
  | .vyield .. => true
  | .vloop _ n => 1 ≤ n.toNat && n.toNat ≤ 16
  | .mgeo .. => true
  | .midx .. => true
  | .mmul .. => true
  | .mzero .. => true
  | .mscac => true
  | .mdrn .. => true
  | .mchk .. => true
  | .gtw .. => true
  | .gtd .. => true
  | .gcmt .. => true
  | .ginj .. => true
  | .gtake .. => true
  | .gctr .. => true
  | .gbind .. => true
  | .psbind .. => true
  | .psread .. => true
  | .psadd .. => true
  | .psmass d _ => d.between 1 22
  | .psdis .. => true
  | .psjoin .. => true
  | .psleave .. => true
  | .psqui .. => true
  | .psstep .. => true
  | .psheld d _ => d.between 1 22
  | .cpy .. => true
  | .stfl .. => true
  | .stiv .. => true
  | .stfil .. => true
  | .tlbinv .. => true
  | .demote .. => true
  | .promote .. => true
  | .divideComplete .. => true
  | .loadComplete .. => true
  | .loadTranslationFault .. => true
  | .alignRelease .. => true
  | .land .. => true
  | .awaitTest .. => true
  | .stepGenerationComplete .. => true
  | .messageArrival .. => true
  | .receive .. => true
  | .berthMove .. => true
  | .itemPush .. => true
  | .yieldTimeout .. => true
  | .illegalWord .. => true
  | .impreciseErrorDelivery .. => true
  | .rearmedAccessComplete .. => true
  | .queueHeldDelivery .. => true
  | .engineAccept .. => true
  | .engineRead .. => true
  | .engineComplete .. => true
  | .kernelBoundary .. => true
  | .launchPartReceive .. => true
  | .dispatchAssign .. => true
  | .launchStarvationTimeout .. => true
  | .withdrawnDieLeave .. => true
  | .addressBreakpointMatch .. => true
  | .dbgicinvComplete .. => true
  | .prectlSave .. => true
  | .saveComplete .. => true
  | .prectlRestore .. => true
  | .traceDrain .. => true
  | .routerReduce .. => true
  | .vectorEntryComplete .. => true
  | .grantRenegotiation .. => true
  | .matrixTileStart .. => true
  | .galleryAdmit .. => true
  | .galleryStage .. => true
  | .galleryLeave .. => true
  | .exitBufferRelease .. => true
  | .galleryShadowWrite .. => true
  | .galleryCommit .. => true
  | .galleryShadowCopyDone .. => true
  | .galleryBindEffect .. => true
  | .ferryRound .. => true
  | .ferryHalfArrival .. => true
  | .ferryAckArrival .. => true
  | .ferryRefusalArrival .. => true
  | .ferryHalfTimeout .. => true
  | .ferryHandover .. => true
  | .ferryCheckpointCopyDone .. => true
  | .copyRowRead .. => true
  | .tierMove .. => true
  | .tierMoveRelease .. => true
  | .wqTailStore .. => true
  | .leaderElection => true
  | .heartbeatTimeout .. => true
  | .dieSetRequest .. => true
  | .wqctlWrite .. => true
  | .femaskWrite .. => true
  | .sramcfgWrite .. => true
  | .lstatWrite .. => true
  | .stbaseWrite .. => true
  | .dbgHaltreq .. => true
  | .dbgResumereq .. => true
  | .dbgdataWrite .. => true
  | .dbgmdataRead .. => true
  | .dbgmdataWrite .. => true
  | .dbgicinvWrite .. => true
  | .npush .. => true
  | .imppop .. => true
  | .basinDefine .. => true
  | .basinReset .. => true
  | .dieLost .. => true
  | .matrixCsrWrite .. => true
  | .telemetryCounterSample .. => true
  | .powerSample .. => true
  | .gownWrite .. => true
  | .fgevqRead .. => true
  | .fnbWrite .. => true
  | .fgtagWrite .. => true
  | .fgownWrite .. => true
  | .ferryidWrite .. => true
  | .fckctlGo .. => true
  | .demotionEngineStart .. => true
  | .storageRingStatus .. => true
  | .storqctlWrite .. => true
  | .berthWrite .. => true
  | .berthReconfigApply .. => true
  | .ranksetWrite .. => true
  | .pgctlWrite .. => true
  | .tgrantWrite .. => true
  | .quayPacketArrival .. => true
  | .e2eAckArrival .. => true
  | .packetRetransmitTimeout .. => true
  | .linkRemoved .. => true
  | .packageLost .. => true
  | .snpInv .. => true
  | .snpData .. => true
  | .snpCur .. => true
  | .go .. => true
  | .goWritePull .. => true
  | .writePull .. => true
  | .goErr .. => true
  | .memRd .. => true
  | .memWr .. => true
  | .memWrPtl .. => true
  | .m2sRefused .. => true
  | .skovazLinkLost => true
  | .powerOnReset .. => true
  | .recoveryImageLoad .. => true
  | .recoveryKeyEnrol .. => true
  | .bistctlGo .. => true
  | .bistComplete .. => true
  | .remapGo .. => true
  | .partctlWrite .. => true
  | .clupartWrite .. => true
  | .polctlGo .. => true
  | .bbdataRead .. => true
  | .blackBoxFlush .. => true
  | .inputPowerLoss => true
  | .clockStep .. => true
  | .junctionOverheat .. => true
  | .linkReturn .. => true
  | .uncorrectableErrorDetected .. => true
  | .launchCancel .. => true

end Sys2Proof
end

