-- ==== Sys2Proof/Decode.lean ====
section
/-!
DEFINITION. Sys2Proof/Decode.lean: from words to instructions (R43 to R48), rejecting by name, and the encoder written
from the same tables.
-/
namespace Sys2Proof

/-- Why a word is not an instruction (R48), in the order of its checks; `short` when fewer than four bytes are given. -/
inductive DecodeErr where
  | illegalOp | reservedField | queueWrite | short
  deriving DecidableEq, Repr

/-- Field `[lo + len - 1 : lo]` of a word given as a number (R43). -/
def fld (w lo len : Nat) : Nat := w / 2 ^ lo % 2 ^ len

/-- One bit as a Bool. -/
def bit (w i : Nat) : Bool := fld w i 1 == 1

/-- A Bool as a bit. -/
def b2n (b : Bool) : Nat := if b then 1 else 0

/-- A field that must be 0 (R48 item 3). -/
def zeroF (w lo len : Nat) : Except DecodeErr Unit :=
  if fld w lo len = 0 then .ok () else .error .reservedField

/-- A source specifier (R44): 0 to 23 x, 24 to 30 q0 to q6; q7 is forbidden. -/
def srcReg (n : Nat) : Except DecodeErr SrcReg :=
  if h : n < 24 then .ok (.x ⟨n, h⟩)
  else if h : n - 24 < 7 then .ok (.q ⟨n - 24, h⟩)
  else .error .reservedField

/-- A source with its e bit. -/
def srcF (w lo e : Nat) : Except DecodeErr Src := do
  let r ← srcReg (fld w lo 5)
  return ⟨r, bit w e⟩

/-- A destination (R44): q0 to q6 trap QUEUE_WRITE, q7 is legal. -/
def dstF (n : Nat) : Except DecodeErr Dst :=
  if h : n < 24 then .ok (.x ⟨n, h⟩) else if n = 31 then .ok .q7 else .error .queueWrite

/-- A destination limited to x0 to x23 (R44): q7 traps RESERVED_FIELD. -/
def dstX (n : Nat) : Except DecodeErr XReg :=
  if h : n < 24 then .ok ⟨n, h⟩ else if n = 31 then .error .reservedField else .error .queueWrite

/-- The first of a pair of destinations (R44): x1 to x22. -/
def dstPair (n : Nat) : Except DecodeErr XReg :=
  if h : n < 24 then (if 1 ≤ n ∧ n ≤ 22 then .ok ⟨n, h⟩ else .error .reservedField)
  else if n = 31 then .error .reservedField else .error .queueWrite

/-- A general register between `lo` and `hi`; any other specifier is forbidden (R44, R45). -/
def xRange (n lo hi : Nat) : Except DecodeErr XReg :=
  if h : n < 24 then (if lo ≤ n ∧ n ≤ hi then .ok ⟨n, h⟩ else .error .reservedField) else .error .reservedField

/-- A coded field with reserved codes. -/
def code {α : Type} (o : Option α) : Except DecodeErr α :=
  match o with
  | some x => .ok x
  | none => .error .reservedField

/-! The codes of R45, R243, R246, R249, R251 and R253. -/
def Scope.ofCode : Nat → Scope | 0 => .K | 1 => .D | 2 => .P | _ => .H
def Scope.toCode : Scope → Nat | .K => 0 | .D => 1 | .P => 2 | .H => 3
def Order.ofCode : Nat → Order | 0 => .rlx | 1 => .acq | 2 => .rel | _ => .ar
def Order.toCode : Order → Nat | .rlx => 0 | .acq => 1 | .rel => 2 | .ar => 3
def AcqOrder.ofCode : Nat → Option AcqOrder | 0 => some .rlx | 1 => some .acq | _ => none
def AcqOrder.toCode : AcqOrder → Nat | .rlx => 0 | .acq => 1
def RelOrder.ofCode : Nat → Option RelOrder | 0 => some .rlx | 2 => some .rel | _ => none
def RelOrder.toCode : RelOrder → Nat | .rlx => 0 | .rel => 2
def PhaseOrder.ofCode : Nat → PhaseOrder | 0 => .sc | 1 => .acq | 2 => .rel | _ => .ar
def PhaseOrder.toCode : PhaseOrder → Nat | .sc => 0 | .acq => 1 | .rel => 2 | .ar => 3
def Rnd.ofCode : Nat → Rnd | 0 => .rne | 1 => .rtz | 2 => .rdn | _ => .rup
def Rnd.toCode : Rnd → Nat | .rne => 0 | .rtz => 1 | .rdn => 2 | .rup => 3
def Counter.ofCode : Nat → Option Counter
  | 0 => some .LD | 1 => some .ST | 2 => some .MX | 3 => some .VX | 4 => some .CP | 5 => some .GL | 6 => some .PS
  | 7 => some .RM | _ => none
def Counter.toCode : Counter → Nat
  | .LD => 0 | .ST => 1 | .MX => 2 | .VX => 3 | .CP => 4 | .GL => 5 | .PS => 6 | .RM => 7
def Engine.ofCode : Nat → Option Engine
  | 0 => some .MX | 1 => some .VX | 2 => some .CP | 3 => some .GL | 4 => some .PS | _ => none
def Engine.toCode : Engine → Nat | .MX => 0 | .VX => 1 | .CP => 2 | .GL => 3 | .PS => 4
def Flag.ofCode : Nat → Option Flag | 0 => some .busy | 1 => some .fault | 2 => some .full | _ => none
def Flag.toCode : Flag → Nat | .busy => 0 | .fault => 1 | .full => 2
def VCond.ofCode : Nat → Option VCond
  | 0 => some .eq | 1 => some .lt | 2 => some .le | 3 => some .ne | 4 => some .ieq | 5 => some .ilt | 6 => some .iltn
  | _ => none
def VCond.toCode : VCond → Nat | .eq => 0 | .lt => 1 | .le => 2 | .ne => 3 | .ieq => 4 | .ilt => 5 | .iltn => 6
def VCvt.ofCode : Nat → Option VCvt
  | 0 => some .f2i | 1 => some .i2f | 2 => some .n2f | 3 => some .f2b | 4 => some .b2f | 5 => some .f2h
  | 6 => some .h2f | 7 => some .f2i8 | 8 => some .f2n8 | 9 => some .i82f | 10 => some .n82f | _ => none
def VCvt.toCode : VCvt → Nat
  | .f2i => 0 | .i2f => 1 | .n2f => 2 | .f2b => 3 | .b2f => 4 | .f2h => 5 | .h2f => 6 | .f2i8 => 7 | .f2n8 => 8
  | .i82f => 9 | .n82f => 10
def VRedOp.ofCode : Nat → Option VRedOp | 0 => some .sum | 1 => some .min | 2 => some .max | 3 => some .isum | _ => none
def VRedOp.toCode : VRedOp → Nat | .sum => 0 | .min => 1 | .max => 2 | .isum => 3
def SEFmt.ofCode : Nat → Option SEFmt | 0 => some .se2 | 1 => some .se4 | 2 => some .se7 | _ => none
def SEFmt.toCode : SEFmt → Nat | .se2 => 0 | .se4 => 1 | .se7 => 2
def VForm3.ofCode : Nat → Option VForm3 | 0 => some .w | 1 => some .h | 2 => some .b | _ => none
def VForm3.toCode : VForm3 → Nat | .w => 0 | .h => 1 | .b => 2
def VForm.ofCode : Nat → Option VForm
  | 0 => some .w | 1 => some .h | 2 => some .b | 3 => some .se2 | 4 => some .se4 | 5 => some .se7 | 6 => some .sc
  | _ => none
def VForm.toCode : VForm → Nat | .w => 0 | .h => 1 | .b => 2 | .se2 => 3 | .se4 => 4 | .se7 => 5 | .sc => 6

/-- A vector register field: always legal (R238). -/
def vreg (w lo : Nat) : VReg := ⟨fld w lo 4, Nat.mod_lt _ (by decide)⟩

/-- The xs field of format V (R44). -/
def xsF (w : Nat) : Except DecodeErr XReg := xRange (fld w 5 5) 0 23

/-! One decoder per operand shape; each takes the constructor. -/

def decR3 (w : Nat) (mk : Dst → Src → Src → Instr) : Except DecodeErr Instr := do
  let a ← srcF w 16 10
  let b ← srcF w 11 9
  let d ← dstF (fld w 21 5)
  return mk d a b

def decR3X (w : Nat) (mk : XReg → Src → Src → Instr) : Except DecodeErr Instr := do
  let a ← srcF w 16 10
  let b ← srcF w 11 9
  let d ← dstX (fld w 21 5)
  return mk d a b

def decR2 (w : Nat) (mk : Dst → Src → Instr) : Except DecodeErr Instr := do
  let a ← srcF w 16 10
  zeroF w 11 5
  zeroF w 9 1
  let d ← dstF (fld w 21 5)
  return mk d a

def decI (w : Nat) (mk : Dst → Src → BitVec 15 → Instr) : Except DecodeErr Instr := do
  let a ← srcF w 16 15
  let d ← dstF (fld w 21 5)
  return mk d a (BitVec.ofNat 15 w)

def decSH (w : Nat) (mk : Dst → Src → BitVec 5 → Instr) : Except DecodeErr Instr := do
  let a ← srcF w 16 15
  zeroF w 5 8
  let d ← dstF (fld w 21 5)
  return mk d a (BitVec.ofNat 5 w)

def decJ (w : Nat) (mk : Dst → BitVec 21 → Instr) : Except DecodeErr Instr := do
  let d ← dstF (fld w 21 5)
  return mk d (BitVec.ofNat 21 w)

def decPREF (w : Nat) : Except DecodeErr Instr := do
  zeroF w 22 4
  let a ← srcF w 16 15
  return .pref (bit w 21) a (BitVec.ofNat 15 w)

def decM (w : Nat) (mk : Src → Src → BitVec 14 → Instr) : Except DecodeErr Instr := do
  let a ← srcF w 21 15
  let b ← srcF w 16 14
  return mk a b (BitVec.ofNat 14 w)

def decAT (w : Nat) (mk : Dst → Src → Src → Order → Scope → Instr) : Except DecodeErr Instr := do
  let a ← srcF w 16 10
  let b ← srcF w 11 9
  let d ← dstF (fld w 21 5)
  return mk d a b (Order.ofCode (fld w 7 2)) (Scope.ofCode (fld w 5 2))

def decCAS (w : Nat) : Except DecodeErr Instr := do
  let a ← srcF w 16 10
  let b ← srcF w 11 9
  let fo ← code (AcqOrder.ofCode (fld w 3 2))
  zeroF w 0 3
  let d ← dstX (fld w 21 5)
  return .cas d a b (Order.ofCode (fld w 7 2)) fo (Scope.ofCode (fld w 5 2))

def decLOOP (w : Nat) : Except DecodeErr Instr := do
  let c ← srcF w 21 20
  zeroF w 19 1
  if fld w 0 18 = 0 then .error .reservedField else .ok (.loop c (bit w 18) (BitVec.ofNat 18 w))

def decE (w : Nat) : Except DecodeErr Instr := do
  let e ← code (Engine.ofCode (fld w 21 5))
  let f ← code (Flag.ofCode (fld w 16 5))
  zeroF w 14 1
  return if bit w 15 then .bec e f (BitVec.ofNat 14 w) else .bes e f (BitVec.ofNat 14 w)

def decALIGN (w : Nat) : Except DecodeErr Instr := do
  zeroF w 0 26
  return .align

/-- Fields b, eb of format C that are not used. -/
def noB (w : Nat) : Except DecodeErr Unit := do
  zeroF w 16 5
  zeroF w 14 1

/-- Fields a, ea of format C that are not used. -/
def noA (w : Nat) : Except DecodeErr Unit := do
  zeroF w 21 5
  zeroF w 15 1

def decPHASE (w : Nat) : Except DecodeErr Instr := do
  noA w
  noB w
  zeroF w 9 1
  return .phase (PhaseOrder.ofCode (fld w 12 2)) (Scope.ofCode (fld w 10 2))

def decWAITC (w : Nat) : Except DecodeErr Instr := do
  noB w
  zeroF w 9 1
  let a ← srcF w 21 15
  let c ← code (Counter.ofCode (fld w 10 4))
  return .waitc c a

def decARRIVE (w : Nat) : Except DecodeErr Instr := do
  noB w
  zeroF w 9 1
  let a ← srcF w 21 15
  let o ← code (RelOrder.ofCode (fld w 12 2))
  return .arrive o (Scope.ofCode (fld w 10 2)) a

def decAWAIT (w : Nat) : Except DecodeErr Instr := do
  zeroF w 9 1
  let a ← srcF w 21 15
  let b ← srcF w 16 14
  let o ← code (AcqOrder.ofCode (fld w 12 2))
  return .await o (Scope.ofCode (fld w 10 2)) a b

def decC0 (w : Nat) (i : Instr) : Except DecodeErr Instr := do
  noA w
  noB w
  zeroF w 9 5
  return i

def decCA (w : Nat) (mk : Src → Instr) : Except DecodeErr Instr := do
  noB w
  zeroF w 9 5
  let a ← srcF w 21 15
  return mk a

def decCAB (w : Nat) (mk : Src → Src → Instr) : Except DecodeErr Instr := do
  zeroF w 9 5
  let a ← srcF w 21 15
  let b ← srcF w 16 14
  return mk a b

def decCAX (w lo hi : Nat) (mk : Src → XReg → Bool → Instr) : Except DecodeErr Instr := do
  zeroF w 9 5
  let a ← srcF w 21 15
  let b ← xRange (fld w 16 5) lo hi
  return mk a b (bit w 14)

def decSEND (w : Nat) : Except DecodeErr Instr := do
  let a ← srcF w 21 15
  let b ← xRange (fld w 16 5) 0 23
  if 1 ≤ fld w 9 5 ∧ fld w 9 5 ≤ 8 ∧ b.val + fld w 9 5 ≤ 24 then
    .ok (.send a b (bit w 14) (BitVec.ofNat 5 (fld w 9 5)))
  else .error .reservedField

def decCDXA (w : Nat) (mk : XReg → Src → Instr) : Except DecodeErr Instr := do
  noB w
  let a ← srcF w 21 15
  let d ← dstX (fld w 9 5)
  return mk d a

def decCDXAB (w : Nat) (mk : XReg → Src → Src → Instr) : Except DecodeErr Instr := do
  let a ← srcF w 21 15
  let b ← srcF w 16 14
  let d ← dstX (fld w 9 5)
  return mk d a b

def decCDA (w : Nat) (mk : Dst → Src → Instr) : Except DecodeErr Instr := do
  noB w
  let a ← srcF w 21 15
  let d ← dstF (fld w 9 5)
  return mk d a

def decCDAB (w : Nat) (mk : Dst → Src → Src → Instr) : Except DecodeErr Instr := do
  let a ← srcF w 21 15
  let b ← srcF w 16 14
  let d ← dstF (fld w 9 5)
  return mk d a b

def decCDPA (w : Nat) (mk : XReg → Src → Instr) : Except DecodeErr Instr := do
  noB w
  let a ← srcF w 21 15
  let d ← dstPair (fld w 9 5)
  return mk d a

def decCD (w : Nat) (mk : Dst → Instr) : Except DecodeErr Instr := do
  noA w
  noB w
  let d ← dstF (fld w 9 5)
  return mk d

def decCSRR (w : Nat) : Except DecodeErr Instr := do
  zeroF w 16 5
  zeroF w 15 1
  let d ← dstF (fld w 21 5)
  return .csrr d (BitVec.ofNat 12 w)

def decCSR (w : Nat) (mk : Dst → Src → BitVec 12 → Instr) : Except DecodeErr Instr := do
  let a ← srcF w 16 15
  let d ← dstF (fld w 21 5)
  return mk d a (BitVec.ofNat 12 w)

def decF3 (w : Nat) (mk : Dst → Src → Src → Rnd → Instr) : Except DecodeErr Instr := do
  let a ← srcF w 16 10
  let b ← srcF w 11 9
  let d ← dstF (fld w 21 5)
  return mk d a b (Rnd.ofCode (fld w 7 2))

def decF3X (w : Nat) (mk : XReg → Src → Src → Rnd → Instr) : Except DecodeErr Instr := do
  let a ← srcF w 16 10
  let b ← srcF w 11 9
  let d ← dstX (fld w 21 5)
  return mk d a b (Rnd.ofCode (fld w 7 2))

def decF2 (w : Nat) (mk : Dst → Src → Rnd → Instr) : Except DecodeErr Instr := do
  let a ← srcF w 16 10
  zeroF w 11 5
  zeroF w 9 1
  let d ← dstF (fld w 21 5)
  return mk d a (Rnd.ofCode (fld w 7 2))

/-- The broadcast rule of R239: with xs other than x0, vb must be 0. -/
def bcast (w : Nat) (xs : XReg) : Except DecodeErr Unit :=
  if xs.val = 0 ∨ fld w 14 4 = 0 then .ok () else .error .reservedField

def decVB (w : Nat) (mk : VReg → VReg → VReg → XReg → Instr) : Except DecodeErr Instr := do
  zeroF w 10 4
  let xs ← xsF w
  bcast w xs
  return mk (vreg w 22) (vreg w 18) (vreg w 14) xs

def decVSHR (w : Nat) : Except DecodeErr Instr := do
  let xs ← xsF w
  bcast w xs
  match fld w 10 4 with
  | 0 => .ok (.vshr (vreg w 22) (vreg w 18) (vreg w 14) xs)
  | 1 => .ok (.vshrA (vreg w 22) (vreg w 18) (vreg w 14) xs)
  | _ => .error .reservedField

def decVBC (w : Nat) (mk : VReg → VReg → VReg → VReg → XReg → Instr) : Except DecodeErr Instr := do
  let xs ← xsF w
  bcast w xs
  return mk (vreg w 22) (vreg w 18) (vreg w 14) (vreg w 10) xs

def decVCMP (w : Nat) : Except DecodeErr Instr := do
  let c ← code (VCond.ofCode (fld w 10 4))
  let xs ← xsF w
  bcast w xs
  return .vcmp c (vreg w 22) (vreg w 18) (vreg w 14) xs

def decV2 (w : Nat) (mk : VReg → VReg → Instr) : Except DecodeErr Instr := do
  zeroF w 14 4
  zeroF w 10 4
  zeroF w 5 5
  return mk (vreg w 22) (vreg w 18)

def decVSEL (w : Nat) : Except DecodeErr Instr := do
  zeroF w 5 5
  return .vsel (vreg w 22) (vreg w 18) (vreg w 14) (vreg w 10)

def decVK {α : Type} (w : Nat) (of : Nat → Option α) (mk : α → VReg → VReg → Instr) : Except DecodeErr Instr := do
  let k ← code (of (fld w 10 4))
  zeroF w 14 4
  zeroF w 5 5
  return mk k (vreg w 22) (vreg w 18)

def decVRED (w : Nat) : Except DecodeErr Instr := do
  let r ← code (VRedOp.ofCode (fld w 10 4))
  zeroF w 22 4
  zeroF w 14 4
  zeroF w 5 5
  return .vred r (vreg w 18)

/-- The four forms of VMOV (R248). -/
def decVMOV (w : Nat) : Except DecodeErr Instr := do
  let xs ← xsF w
  zeroF w 14 4
  match fld w 10 4 with
  | 0 => if xs.val = 0 then .ok (.vmovCopy (vreg w 22) (vreg w 18))
         else if fld w 18 4 = 0 then .ok (.vmovBroadcast (vreg w 22) xs) else .error .reservedField
  | 1 => if fld w 18 4 = 0 ∧ xs.val = 0 then .ok (.vmovIdx (vreg w 22)) else .error .reservedField
  | 2 => if fld w 22 4 = 0 then .ok (.vmovGet (vreg w 18) xs) else .error .reservedField
  | _ => .error .reservedField

def decVLD (w : Nat) : Except DecodeErr Instr := do
  let f ← code (VForm.ofCode (fld w 10 4))
  zeroF w 14 8
  let xs ← xsF w
  return .vld f (vreg w 22) xs

def decVST (w : Nat) : Except DecodeErr Instr := do
  let f ← code (VForm.ofCode (fld w 10 4))
  zeroF w 14 4
  zeroF w 22 4
  let xs ← xsF w
  return .vst f (vreg w 18) xs

def decVGTH (w : Nat) : Except DecodeErr Instr := do
  let f ← code (VForm3.ofCode (fld w 10 4))
  zeroF w 14 4
  let xs ← xsF w
  return .vgth f (vreg w 22) (vreg w 18) xs

def decVSCT (w : Nat) : Except DecodeErr Instr := do
  let f ← code (VForm3.ofCode (fld w 10 4))
  zeroF w 22 4
  let xs ← xsF w
  return .vsct f (vreg w 18) (vreg w 14) xs

def decVREDPUT (w : Nat) : Except DecodeErr Instr := do
  zeroF w 22 4
  zeroF w 10 8
  let xs ← xsF w
  return .vredput (vreg w 18) xs

def decVREDGET (w : Nat) : Except DecodeErr Instr := do
  zeroF w 10 12
  let xs ← xsF w
  return .vredget (vreg w 22) xs

def decVLOOP (w : Nat) : Except DecodeErr Instr := do
  noB w
  let a ← srcF w 21 15
  if 1 ≤ fld w 9 5 ∧ fld w 9 5 ≤ 16 then .ok (.vloop a (BitVec.ofNat 5 (fld w 9 5))) else .error .reservedField

/-- Opcode 0x1 by its selector (R47). -/
def decOp1 (sel w : Nat) : Except DecodeErr Instr :=
  match sel with
  | 0 => decR3 w .add
  | 1 => decR3 w .sub
  | 2 => decR3 w .and
  | 3 => decR3 w .or
  | 4 => decR3 w .xor
  | 5 => decR3 w .andn
  | 6 => decR3 w .sll
  | 7 => decR3 w .srl
  | 8 => decR3 w .sra
  | 9 => decR3 w .slt
  | 10 => decR3 w .sltn
  | 11 => decR3 w .min
  | 12 => decR3 w .max
  | 13 => decR3 w .minn
  | 14 => decR3 w .maxn
  | 15 => decR3 w .mul
  | 16 => decR3 w .mulh
  | 17 => decR3 w .mulhn
  | 18 => decR3 w .div
  | 19 => decR3 w .divn
  | 20 => decR3 w .rem
  | 21 => decR3 w .remn
  | 22 => decR2 w .clz
  | 23 => decR2 w .pop
  | 24 => decR3 w .bext
  | 25 => decR3X w .bins
  | _ => .error .illegalOp

/-- Opcode 0x8 by its selector (R47). -/
def decOp8 (sel w : Nat) : Except DecodeErr Instr :=
  match sel with
  | 0 => decSH w .slli
  | 1 => decSH w .srli
  | 2 => decSH w .srai
  | _ => .error .illegalOp

/-- Opcode 0x1a by its selector (R47). -/
def decOp26 (sel w : Nat) : Except DecodeErr Instr :=
  match sel with
  | 0 => decAT w .swp
  | 1 => decAT w .aadd
  | 2 => decAT w .aand
  | 3 => decAT w .aor
  | 4 => decAT w .axor
  | 5 => decAT w .amin
  | 6 => decAT w .amax
  | 7 => decAT w .aminn
  | 8 => decAT w .amaxn
  | _ => .error .illegalOp

/-- Opcode 0x2c by its selector (R47). -/
def decOp44 (sel w : Nat) : Except DecodeErr Instr :=
  match sel with
  | 0 => decPHASE w
  | 1 => decWAITC w
  | 2 => decARRIVE w
  | 3 => decAWAIT w
  | 4 => decCA w .sstep
  | 5 => decC0 w .efence
  | 6 => decCAB w .icsync
  | 7 => decSEND w
  | 8 => decCAX w 1 22 .sendb
  | 9 => decCDXA w .recv
  | 10 => decCDXAB w .recvb
  | 11 => decCA w .migr
  | 12 => decCDA w .launch
  | 13 => decCD w .take
  | 14 => decCAX w 1 21 .pass
  | 15 => decC0 w .tdone
  | 16 => decCA w .mark
  | _ => .error .illegalOp

/-- Opcode 0x2e by its selector (R47). -/
def decOp46 (sel w : Nat) : Except DecodeErr Instr :=
  match sel with
  | 0 => decCA w .trap
  | 1 => decC0 w .eret
  | 2 => decC0 w .upret
  | 3 => decCA w .resume
  | 4 => decCA w .yield
  | 5 => decC0 w .halt
  | 6 => decC0 w .brk
  | 7 => decCAB w .tmark
  | _ => .error .illegalOp

/-- Opcode 0x2f by its selector (R47). -/
def decOp47 (sel w : Nat) : Except DecodeErr Instr :=
  match sel with
  | 0 => decCSRR w
  | 1 => decCSR w .csrw
  | 2 => decCSR w .csrs
  | 3 => decCSR w .csrc
  | _ => .error .illegalOp

/-- Opcode 0x30 by its selector (R47). -/
def decOp48 (sel w : Nat) : Except DecodeErr Instr :=
  match sel with
  | 0 => decF3 w .fadd
  | 1 => decF3 w .fsub
  | 2 => decF3 w .fmul
  | 3 => decF3X w .ffma
  | 4 => (do zeroF w 7 2; decR3 w .fmin)
  | 5 => (do zeroF w 7 2; decR3 w .fmax)
  | 6 => (do zeroF w 7 2; decR3 w .feq)
  | 7 => (do zeroF w 7 2; decR3 w .flt)
  | 8 => (do zeroF w 7 2; decR3 w .fle)
  | 9 => decF2 w .fcvtw
  | 10 => (do zeroF w 7 2; decR2 w .fcvtf)
  | 11 => decF2 w .fcvtfn
  | _ => .error .illegalOp

/-- Opcode 0x34 by its selector (R47). -/
def decOp52 (sel w : Nat) : Except DecodeErr Instr :=
  match sel with
  | 0 => decVB w .vadd
  | 1 => decVB w .vsub
  | 2 => decVB w .vmul
  | 3 => decVBC w .vfma
  | 4 => decVB w .vmin
  | 5 => decVB w .vmax
  | 6 => decV2 w .vabs
  | 7 => decV2 w .vneg
  | 8 => decVCMP w
  | 9 => decVSEL w
  | 10 => decVB w .vand
  | 11 => decVB w .vor
  | 12 => decVB w .vxor
  | 13 => decVB w .vshl
  | 14 => decVSHR w
  | 15 => decVB w .viadd
  | 16 => decVB w .vimul
  | 17 => decVK w VCvt.ofCode .vcvt
  | 18 => decV2 w .vrcp
  | 19 => decV2 w .vrsq
  | 20 => decV2 w .vexp2
  | 21 => decV2 w .vlog2
  | 22 => decV2 w .vtanh
  | 23 => decVRED w
  | 24 => decVMOV w
  | 25 => decVK w SEFmt.ofCode .vqnt
  | 26 => decVK w SEFmt.ofCode .vdq
  | _ => .error .illegalOp

/-- Opcode 0x35 by its selector (R47). -/
def decOp53 (sel w : Nat) : Except DecodeErr Instr :=
  match sel with
  | 0 => decVLD w
  | 1 => decVST w
  | 2 => decVGTH w
  | 3 => decVSCT w
  | 4 => decVREDPUT w
  | 5 => decVREDGET w
  | _ => .error .illegalOp

/-- Opcode 0x36 by its selector (R47). -/
def decOp54 (sel w : Nat) : Except DecodeErr Instr :=
  match sel with
  | 0 => decCDA w .vclaim
  | 1 => decC0 w .vrel
  | 2 => decCDA w .vyield
  | 3 => decVLOOP w
  | _ => .error .illegalOp

/-- Opcode 0x38 by its selector (R47). -/
def decOp56 (sel w : Nat) : Except DecodeErr Instr :=
  match sel with
  | 0 => decCAB w .mgeo
  | 1 => decCA w .midx
  | 2 => decCAB w .mmul
  | 3 => decCA w .mzero
  | 4 => decC0 w .mscac
  | 5 => decCAB w .mdrn
  | 6 => decCDA w .mchk
  | _ => .error .illegalOp

/-- Opcode 0x39 by its selector (R47). -/
def decOp57 (sel w : Nat) : Except DecodeErr Instr :=
  match sel with
  | 0 => decCAB w .gtw
  | 1 => decCAB w .gtd
  | 2 => decCDA w .gcmt
  | 3 => decCAB w .ginj
  | 4 => decCAB w .gtake
  | 5 => decCDAB w .gctr
  | 6 => decCAB w .gbind
  | _ => .error .illegalOp

/-- Opcode 0x3a by its selector (R47). -/
def decOp58 (sel w : Nat) : Except DecodeErr Instr :=
  match sel with
  | 0 => decCDA w .psbind
  | 1 => decCAB w .psread
  | 2 => decCAB w .psadd
  | 3 => decCDPA w .psmass
  | 4 => decCDA w .psdis
  | 5 => decCAB w .psjoin
  | 6 => decCAB w .psleave
  | 7 => decCAB w .psqui
  | 8 => decCA w .psstep
  | 9 => decCDPA w .psheld
  | _ => .error .illegalOp

/-- Opcode 0x3b by its selector (R47). -/
def decOp59 (sel w : Nat) : Except DecodeErr Instr :=
  match sel with
  | 0 => decCDA w .cpy
  | 1 => decCAB w .stfl
  | 2 => decCAB w .stiv
  | 3 => decCAB w .stfil
  | 4 => decCAB w .tlbinv
  | 5 => decCAB w .demote
  | 6 => decCA w .promote
  | _ => .error .illegalOp

/-- The instruction of an opcode: the first check that fails settles its fate (R48). -/
def decodeOp (op w : Nat) : Except DecodeErr Instr :=
  match op with
  | 1 => decOp1 (fld w 0 9) w
  | 2 => decI w .addi
  | 3 => decI w .andi
  | 4 => decI w .ori
  | 5 => decI w .xori
  | 6 => decI w .slti
  | 7 => decI w .sltni
  | 8 => decOp8 (fld w 13 2) w
  | 9 => decJ w .lui
  | 10 => decI w .muli
  | 16 => decI w .ldb
  | 17 => decI w .ldbn
  | 18 => decI w .ldh
  | 19 => decI w .ldhn
  | 20 => decI w .ldw
  | 21 => decPREF w
  | 22 => decM w .stb
  | 23 => decM w .sth
  | 24 => decM w .stw
  | 25 => decM w .rstw
  | 26 => decOp26 (fld w 0 5) w
  | 27 => decCAS w
  | 32 => decM w .beq
  | 33 => decM w .bne
  | 34 => decM w .blt
  | 35 => decM w .bge
  | 36 => decM w .bltn
  | 37 => decM w .bgen
  | 38 => decJ w .jal
  | 39 => decI w .jalr
  | 40 => decLOOP w
  | 41 => decE w
  | 42 => decALIGN w
  | 44 => decOp44 (fld w 0 9) w
  | 46 => decOp46 (fld w 0 9) w
  | 47 => decOp47 (fld w 12 3) w
  | 48 => decOp48 (fld w 0 7) w
  | 52 => decOp52 (fld w 0 5) w
  | 53 => decOp53 (fld w 0 5) w
  | 54 => decOp54 (fld w 0 9) w
  | 56 => decOp56 (fld w 0 9) w
  | 57 => decOp57 (fld w 0 9) w
  | 58 => decOp58 (fld w 0 9) w
  | 59 => decOp59 (fld w 0 9) w
  | _ => .error .illegalOp

/-- Decoding of one word (R48). -/
def decodeWord (word : Word) : Except DecodeErr Instr := decodeOp (fld word.toNat 26 6) word.toNat

/-- Four bytes, least significant first, as a word (R35). -/
def wordOfBytes (b0 b1 b2 b3 : Byte) : Word := b3 ++ b2 ++ b1 ++ b0

/-- Decoding of a list of bytes: the instruction and the bytes after it, or the name of the refusal. -/
def decode (bs : List Byte) : Except DecodeErr (Instr × List Byte) :=
  match bs with
  | b0 :: b1 :: b2 :: b3 :: rest =>
    match decodeWord (wordOfBytes b0 b1 b2 b3) with
    | .ok i => .ok (i, rest)
    | .error e => .error e
  | _ => .error .short

/-- The bytes of a word, least significant first (R35). -/
def bytesOfWord (w : Word) : List Byte :=
  [w.extractLsb' 0 8, w.extractLsb' 8 8, w.extractLsb' 16 8, w.extractLsb' 24 8]

/-- The instruction the decoder reads from a table row's word: every instruction is one word of 32 bits. -/
def decodeTableWord (nbits w : Nat) : Option Instr :=
  if nbits = 32 then
    match decode (bytesOfWord (BitVec.ofNat 32 w)) with
    | .ok (i, _) => some i
    | .error _ => none
  else none

/-- Codes of specifiers (R44). -/
def SrcReg.code : SrcReg → Nat
  | .x n => n.val
  | .q n => 24 + n.val

def Dst.code : Dst → Nat
  | .x n => n.val
  | .q7 => 31

/-! The formats of R43. -/
def encR (op d a : Nat) (ea : Bool) (b : Nat) (eb : Bool) (fn : Nat) : Nat :=
  op * 2 ^ 26 + d * 2 ^ 21 + a * 2 ^ 16 + b * 2 ^ 11 + b2n ea * 2 ^ 10 + b2n eb * 2 ^ 9 + fn

def encI (op d a : Nat) (ea : Bool) (imm : Nat) : Nat :=
  op * 2 ^ 26 + d * 2 ^ 21 + a * 2 ^ 16 + b2n ea * 2 ^ 15 + imm

def encM (op a : Nat) (ea : Bool) (b : Nat) (eb : Bool) (imm : Nat) : Nat :=
  op * 2 ^ 26 + a * 2 ^ 21 + b * 2 ^ 16 + b2n ea * 2 ^ 15 + b2n eb * 2 ^ 14 + imm

def encJ (op d imm : Nat) : Nat := op * 2 ^ 26 + d * 2 ^ 21 + imm

def encL (c : Nat) (ea : Bool) (level : Bool) (len : Nat) : Nat :=
  40 * 2 ^ 26 + c * 2 ^ 21 + b2n ea * 2 ^ 20 + b2n level * 2 ^ 18 + len

def encC (op a b : Nat) (ea eb : Bool) (sel fn : Nat) : Nat :=
  op * 2 ^ 26 + a * 2 ^ 21 + b * 2 ^ 16 + b2n ea * 2 ^ 15 + b2n eb * 2 ^ 14 + sel * 2 ^ 9 + fn

def encV (op d a b c xs fn : Nat) : Nat :=
  op * 2 ^ 26 + d * 2 ^ 22 + a * 2 ^ 18 + b * 2 ^ 14 + c * 2 ^ 10 + xs * 2 ^ 5 + fn

def encE (e f sense off : Nat) : Nat := 41 * 2 ^ 26 + e * 2 ^ 21 + f * 2 ^ 16 + sense * 2 ^ 15 + off

/-- The word of a well-formed instruction (R43 to R47); an event has no word and gives 0. -/
def encode (i : Instr) : Word :=
  BitVec.ofNat 32 (match i with
  | .add d a b => encR 1 d.code a.reg.code a.e b.reg.code b.e 0
  | .sub d a b => encR 1 d.code a.reg.code a.e b.reg.code b.e 1
  | .and d a b => encR 1 d.code a.reg.code a.e b.reg.code b.e 2
  | .or d a b => encR 1 d.code a.reg.code a.e b.reg.code b.e 3
  | .xor d a b => encR 1 d.code a.reg.code a.e b.reg.code b.e 4
  | .andn d a b => encR 1 d.code a.reg.code a.e b.reg.code b.e 5
  | .sll d a b => encR 1 d.code a.reg.code a.e b.reg.code b.e 6
  | .srl d a b => encR 1 d.code a.reg.code a.e b.reg.code b.e 7
  | .sra d a b => encR 1 d.code a.reg.code a.e b.reg.code b.e 8
  | .slt d a b => encR 1 d.code a.reg.code a.e b.reg.code b.e 9
  | .sltn d a b => encR 1 d.code a.reg.code a.e b.reg.code b.e 10
  | .min d a b => encR 1 d.code a.reg.code a.e b.reg.code b.e 11
  | .max d a b => encR 1 d.code a.reg.code a.e b.reg.code b.e 12
  | .minn d a b => encR 1 d.code a.reg.code a.e b.reg.code b.e 13
  | .maxn d a b => encR 1 d.code a.reg.code a.e b.reg.code b.e 14
  | .mul d a b => encR 1 d.code a.reg.code a.e b.reg.code b.e 15
  | .mulh d a b => encR 1 d.code a.reg.code a.e b.reg.code b.e 16
  | .mulhn d a b => encR 1 d.code a.reg.code a.e b.reg.code b.e 17
  | .div d a b => encR 1 d.code a.reg.code a.e b.reg.code b.e 18
  | .divn d a b => encR 1 d.code a.reg.code a.e b.reg.code b.e 19
  | .rem d a b => encR 1 d.code a.reg.code a.e b.reg.code b.e 20
  | .remn d a b => encR 1 d.code a.reg.code a.e b.reg.code b.e 21
  | .clz d a => encR 1 d.code a.reg.code a.e 0 false 22
  | .pop d a => encR 1 d.code a.reg.code a.e 0 false 23
  | .bext d a b => encR 1 d.code a.reg.code a.e b.reg.code b.e 24
  | .bins d a b => encR 1 d.val a.reg.code a.e b.reg.code b.e 25
  | .addi d a imm => encI 2 d.code a.reg.code a.e imm.toNat
  | .andi d a imm => encI 3 d.code a.reg.code a.e imm.toNat
  | .ori d a imm => encI 4 d.code a.reg.code a.e imm.toNat
  | .xori d a imm => encI 5 d.code a.reg.code a.e imm.toNat
  | .slti d a imm => encI 6 d.code a.reg.code a.e imm.toNat
  | .sltni d a imm => encI 7 d.code a.reg.code a.e imm.toNat
  | .slli d a n => encI 8 d.code a.reg.code a.e (0 * 2 ^ 13 + n.toNat)
  | .srli d a n => encI 8 d.code a.reg.code a.e (1 * 2 ^ 13 + n.toNat)
  | .srai d a n => encI 8 d.code a.reg.code a.e (2 * 2 ^ 13 + n.toNat)
  | .lui d imm => encJ 9 d.code imm.toNat
  | .muli d a imm => encI 10 d.code a.reg.code a.e imm.toNat
  | .ldb d a off => encI 16 d.code a.reg.code a.e off.toNat
  | .ldbn d a off => encI 17 d.code a.reg.code a.e off.toNat
  | .ldh d a off => encI 18 d.code a.reg.code a.e off.toNat
  | .ldhn d a off => encI 19 d.code a.reg.code a.e off.toNat
  | .ldw d a off => encI 20 d.code a.reg.code a.e off.toNat
  | .pref write a off => encI 21 (b2n write) a.reg.code a.e off.toNat
  | .stb a b off => encM 22 a.reg.code a.e b.reg.code b.e off.toNat
  | .sth a b off => encM 23 a.reg.code a.e b.reg.code b.e off.toNat
  | .stw a b off => encM 24 a.reg.code a.e b.reg.code b.e off.toNat
  | .rstw a b off => encM 25 a.reg.code a.e b.reg.code b.e off.toNat
  | .swp d a b o s => encR 26 d.code a.reg.code a.e b.reg.code b.e (o.toCode * 2 ^ 7 + s.toCode * 2 ^ 5 + 0)
  | .aadd d a b o s => encR 26 d.code a.reg.code a.e b.reg.code b.e (o.toCode * 2 ^ 7 + s.toCode * 2 ^ 5 + 1)
  | .aand d a b o s => encR 26 d.code a.reg.code a.e b.reg.code b.e (o.toCode * 2 ^ 7 + s.toCode * 2 ^ 5 + 2)
  | .aor d a b o s => encR 26 d.code a.reg.code a.e b.reg.code b.e (o.toCode * 2 ^ 7 + s.toCode * 2 ^ 5 + 3)
  | .axor d a b o s => encR 26 d.code a.reg.code a.e b.reg.code b.e (o.toCode * 2 ^ 7 + s.toCode * 2 ^ 5 + 4)
  | .amin d a b o s => encR 26 d.code a.reg.code a.e b.reg.code b.e (o.toCode * 2 ^ 7 + s.toCode * 2 ^ 5 + 5)
  | .amax d a b o s => encR 26 d.code a.reg.code a.e b.reg.code b.e (o.toCode * 2 ^ 7 + s.toCode * 2 ^ 5 + 6)
  | .aminn d a b o s => encR 26 d.code a.reg.code a.e b.reg.code b.e (o.toCode * 2 ^ 7 + s.toCode * 2 ^ 5 + 7)
  | .amaxn d a b o s => encR 26 d.code a.reg.code a.e b.reg.code b.e (o.toCode * 2 ^ 7 + s.toCode * 2 ^ 5 + 8)
  | .cas d a b so fo s => encR 27 d.val a.reg.code a.e b.reg.code b.e (so.toCode * 2 ^ 7 + s.toCode * 2 ^ 5 + fo.toCode * 2 ^ 3)
  | .beq a b off => encM 32 a.reg.code a.e b.reg.code b.e off.toNat
  | .bne a b off => encM 33 a.reg.code a.e b.reg.code b.e off.toNat
  | .blt a b off => encM 34 a.reg.code a.e b.reg.code b.e off.toNat
  | .bge a b off => encM 35 a.reg.code a.e b.reg.code b.e off.toNat
  | .bltn a b off => encM 36 a.reg.code a.e b.reg.code b.e off.toNat
  | .bgen a b off => encM 37 a.reg.code a.e b.reg.code b.e off.toNat
  | .jal d imm => encJ 38 d.code imm.toNat
  | .jalr d a off => encI 39 d.code a.reg.code a.e off.toNat
  | .loop count level len => encL count.reg.code count.e level len.toNat
  | .bes eng flag off => encE eng.toCode flag.toCode 0 off.toNat
  | .bec eng flag off => encE eng.toCode flag.toCode 1 off.toNat
  | .align => 42 * 2 ^ 26
  | .phase o s => encC 44 0 0 false false (o.toCode * 2 ^ 3 + s.toCode * 2) 0
  | .waitc c a => encC 44 a.reg.code 0 a.e false (c.toCode * 2) 1
  | .arrive o s a => encC 44 a.reg.code 0 a.e false (o.toCode * 2 ^ 3 + s.toCode * 2) 2
  | .await o s a b => encC 44 a.reg.code b.reg.code a.e b.e (o.toCode * 2 ^ 3 + s.toCode * 2) 3
  | .sstep a => encC 44 a.reg.code 0 a.e false 0 4
  | .efence => encC 44 0 0 false false 0 5
  | .icsync a b => encC 44 a.reg.code b.reg.code a.e b.e 0 6
  | .send a b eb n => encC 44 a.reg.code b.val a.e eb n.toNat 7
  | .sendb a b eb => encC 44 a.reg.code b.val a.e eb 0 8
  | .recv d a => encC 44 a.reg.code 0 a.e false d.val 9
  | .recvb d a b => encC 44 a.reg.code b.reg.code a.e b.e d.val 10
  | .migr a => encC 44 a.reg.code 0 a.e false 0 11
  | .launch d a => encC 44 a.reg.code 0 a.e false d.code 12
  | .take d => encC 44 0 0 false false d.code 13
  | .pass a b eb => encC 44 a.reg.code b.val a.e eb 0 14
  | .tdone => encC 44 0 0 false false 0 15
  | .mark a => encC 44 a.reg.code 0 a.e false 0 16
  | .trap a => encC 46 a.reg.code 0 a.e false 0 0
  | .eret => encC 46 0 0 false false 0 1
  | .upret => encC 46 0 0 false false 0 2
  | .resume a => encC 46 a.reg.code 0 a.e false 0 3
  | .yield a => encC 46 a.reg.code 0 a.e false 0 4
  | .halt => encC 46 0 0 false false 0 5
  | .brk => encC 46 0 0 false false 0 6
  | .tmark a b => encC 46 a.reg.code b.reg.code a.e b.e 0 7
  | .csrr d csr => encI 47 d.code 0 false csr.toNat
  | .csrw d a csr => encI 47 d.code a.reg.code a.e (1 * 2 ^ 12 + csr.toNat)
  | .csrs d a csr => encI 47 d.code a.reg.code a.e (2 * 2 ^ 12 + csr.toNat)
  | .csrc d a csr => encI 47 d.code a.reg.code a.e (3 * 2 ^ 12 + csr.toNat)
  | .fadd d a b rm => encR 48 d.code a.reg.code a.e b.reg.code b.e (rm.toCode * 2 ^ 7 + 0)
  | .fsub d a b rm => encR 48 d.code a.reg.code a.e b.reg.code b.e (rm.toCode * 2 ^ 7 + 1)
  | .fmul d a b rm => encR 48 d.code a.reg.code a.e b.reg.code b.e (rm.toCode * 2 ^ 7 + 2)
  | .ffma d a b rm => encR 48 d.val a.reg.code a.e b.reg.code b.e (rm.toCode * 2 ^ 7 + 3)
  | .fmin d a b => encR 48 d.code a.reg.code a.e b.reg.code b.e 4
  | .fmax d a b => encR 48 d.code a.reg.code a.e b.reg.code b.e 5
  | .feq d a b => encR 48 d.code a.reg.code a.e b.reg.code b.e 6
  | .flt d a b => encR 48 d.code a.reg.code a.e b.reg.code b.e 7
  | .fle d a b => encR 48 d.code a.reg.code a.e b.reg.code b.e 8
  | .fcvtw d a rm => encR 48 d.code a.reg.code a.e 0 false (rm.toCode * 2 ^ 7 + 9)
  | .fcvtf d a => encR 48 d.code a.reg.code a.e 0 false 10
  | .fcvtfn d a rm => encR 48 d.code a.reg.code a.e 0 false (rm.toCode * 2 ^ 7 + 11)
  | .vadd d a b xs => encV 52 d.val a.val b.val 0 xs.val 0
  | .vsub d a b xs => encV 52 d.val a.val b.val 0 xs.val 1
  | .vmul d a b xs => encV 52 d.val a.val b.val 0 xs.val 2
  | .vfma d a b c xs => encV 52 d.val a.val b.val c.val xs.val 3
  | .vmin d a b xs => encV 52 d.val a.val b.val 0 xs.val 4
  | .vmax d a b xs => encV 52 d.val a.val b.val 0 xs.val 5
  | .vabs d a => encV 52 d.val a.val 0 0 0 6
  | .vneg d a => encV 52 d.val a.val 0 0 0 7
  | .vcmp c d a b xs => encV 52 d.val a.val b.val c.toCode xs.val 8
  | .vsel d a b c => encV 52 d.val a.val b.val c.val 0 9
  | .vand d a b xs => encV 52 d.val a.val b.val 0 xs.val 10
  | .vor d a b xs => encV 52 d.val a.val b.val 0 xs.val 11
  | .vxor d a b xs => encV 52 d.val a.val b.val 0 xs.val 12
  | .vshl d a b xs => encV 52 d.val a.val b.val 0 xs.val 13
  | .vshr d a b xs => encV 52 d.val a.val b.val 0 xs.val 14
  | .vshrA d a b xs => encV 52 d.val a.val b.val 1 xs.val 14
  | .viadd d a b xs => encV 52 d.val a.val b.val 0 xs.val 15
  | .vimul d a b xs => encV 52 d.val a.val b.val 0 xs.val 16
  | .vcvt k d a => encV 52 d.val a.val 0 k.toCode 0 17
  | .vrcp d a => encV 52 d.val a.val 0 0 0 18
  | .vrsq d a => encV 52 d.val a.val 0 0 0 19
  | .vexp2 d a => encV 52 d.val a.val 0 0 0 20
  | .vlog2 d a => encV 52 d.val a.val 0 0 0 21
  | .vtanh d a => encV 52 d.val a.val 0 0 0 22
  | .vred r a => encV 52 0 a.val 0 r.toCode 0 23
  | .vmovCopy d a => encV 52 d.val a.val 0 0 0 24
  | .vmovBroadcast d xs => encV 52 d.val 0 0 0 xs.val 24
  | .vmovIdx d => encV 52 d.val 0 0 1 0 24
  | .vmovGet a xs => encV 52 0 a.val 0 2 xs.val 24
  | .vqnt f d a => encV 52 d.val a.val 0 f.toCode 0 25
  | .vdq f d a => encV 52 d.val a.val 0 f.toCode 0 26
  | .vld f d xs => encV 53 d.val 0 0 f.toCode xs.val 0
  | .vst f a xs => encV 53 0 a.val 0 f.toCode xs.val 1
  | .vgth f d a xs => encV 53 d.val a.val 0 f.toCode xs.val 2
  | .vsct f a b xs => encV 53 0 a.val b.val f.toCode xs.val 3
  | .vredput a xs => encV 53 0 a.val 0 0 xs.val 4
  | .vredget d xs => encV 53 d.val 0 0 0 xs.val 5
  | .vclaim d a => encC 54 a.reg.code 0 a.e false d.code 0
  | .vrel => encC 54 0 0 false false 0 1
  | .vyield d a => encC 54 a.reg.code 0 a.e false d.code 2
  | .vloop a n => encC 54 a.reg.code 0 a.e false n.toNat 3
  | .mgeo a b => encC 56 a.reg.code b.reg.code a.e b.e 0 0
  | .midx a => encC 56 a.reg.code 0 a.e false 0 1
  | .mmul a b => encC 56 a.reg.code b.reg.code a.e b.e 0 2
  | .mzero a => encC 56 a.reg.code 0 a.e false 0 3
  | .mscac => encC 56 0 0 false false 0 4
  | .mdrn a b => encC 56 a.reg.code b.reg.code a.e b.e 0 5
  | .mchk d a => encC 56 a.reg.code 0 a.e false d.code 6
  | .gtw a b => encC 57 a.reg.code b.reg.code a.e b.e 0 0
  | .gtd a b => encC 57 a.reg.code b.reg.code a.e b.e 0 1
  | .gcmt d a => encC 57 a.reg.code 0 a.e false d.code 2
  | .ginj a b => encC 57 a.reg.code b.reg.code a.e b.e 0 3
  | .gtake a b => encC 57 a.reg.code b.reg.code a.e b.e 0 4
  | .gctr d a b => encC 57 a.reg.code b.reg.code a.e b.e d.code 5
  | .gbind a b => encC 57 a.reg.code b.reg.code a.e b.e 0 6
  | .psbind d a => encC 58 a.reg.code 0 a.e false d.code 0
  | .psread a b => encC 58 a.reg.code b.reg.code a.e b.e 0 1
  | .psadd a b => encC 58 a.reg.code b.reg.code a.e b.e 0 2
  | .psmass d a => encC 58 a.reg.code 0 a.e false d.val 3
  | .psdis d a => encC 58 a.reg.code 0 a.e false d.code 4
  | .psjoin a b => encC 58 a.reg.code b.reg.code a.e b.e 0 5
  | .psleave a b => encC 58 a.reg.code b.reg.code a.e b.e 0 6
  | .psqui a b => encC 58 a.reg.code b.reg.code a.e b.e 0 7
  | .psstep a => encC 58 a.reg.code 0 a.e false 0 8
  | .psheld d a => encC 58 a.reg.code 0 a.e false d.val 9
  | .cpy d a => encC 59 a.reg.code 0 a.e false d.code 0
  | .stfl a b => encC 59 a.reg.code b.reg.code a.e b.e 0 1
  | .stiv a b => encC 59 a.reg.code b.reg.code a.e b.e 0 2
  | .stfil a b => encC 59 a.reg.code b.reg.code a.e b.e 0 3
  | .tlbinv a b => encC 59 a.reg.code b.reg.code a.e b.e 0 4
  | .demote a b => encC 59 a.reg.code b.reg.code a.e b.e 0 5
  | .promote a => encC 59 a.reg.code 0 a.e false 0 6
  | .divideComplete .. => 0
  | .loadComplete .. => 0
  | .loadTranslationFault .. => 0
  | .alignRelease .. => 0
  | .land .. => 0
  | .awaitTest .. => 0
  | .stepGenerationComplete .. => 0
  | .messageArrival .. => 0
  | .receive .. => 0
  | .berthMove .. => 0
  | .itemPush .. => 0
  | .yieldTimeout .. => 0
  | .illegalWord .. => 0
  | .impreciseErrorDelivery .. => 0
  | .rearmedAccessComplete .. => 0
  | .queueHeldDelivery .. => 0
  | .engineAccept .. => 0
  | .engineRead .. => 0
  | .engineComplete .. => 0
  | .kernelBoundary .. => 0
  | .launchPartReceive .. => 0
  | .dispatchAssign .. => 0
  | .launchStarvationTimeout .. => 0
  | .withdrawnDieLeave .. => 0
  | .addressBreakpointMatch .. => 0
  | .dbgicinvComplete .. => 0
  | .prectlSave .. => 0
  | .saveComplete .. => 0
  | .prectlRestore .. => 0
  | .traceDrain .. => 0
  | .routerReduce .. => 0
  | .vectorEntryComplete .. => 0
  | .grantRenegotiation .. => 0
  | .matrixTileStart .. => 0
  | .galleryAdmit .. => 0
  | .galleryStage .. => 0
  | .galleryLeave .. => 0
  | .exitBufferRelease .. => 0
  | .galleryShadowWrite .. => 0
  | .galleryCommit .. => 0
  | .galleryShadowCopyDone .. => 0
  | .galleryBindEffect .. => 0
  | .ferryRound .. => 0
  | .ferryHalfArrival .. => 0
  | .ferryAckArrival .. => 0
  | .ferryRefusalArrival .. => 0
  | .ferryHalfTimeout .. => 0
  | .ferryHandover .. => 0
  | .ferryCheckpointCopyDone .. => 0
  | .copyRowRead .. => 0
  | .tierMove .. => 0
  | .tierMoveRelease .. => 0
  | .wqTailStore .. => 0
  | .leaderElection => 0
  | .heartbeatTimeout .. => 0
  | .dieSetRequest .. => 0
  | .wqctlWrite .. => 0
  | .femaskWrite .. => 0
  | .sramcfgWrite .. => 0
  | .lstatWrite .. => 0
  | .stbaseWrite .. => 0
  | .dbgHaltreq .. => 0
  | .dbgResumereq .. => 0
  | .dbgdataWrite .. => 0
  | .dbgmdataRead .. => 0
  | .dbgmdataWrite .. => 0
  | .dbgicinvWrite .. => 0
  | .npush .. => 0
  | .imppop .. => 0
  | .basinDefine .. => 0
  | .basinReset .. => 0
  | .dieLost .. => 0
  | .matrixCsrWrite .. => 0
  | .telemetryCounterSample .. => 0
  | .powerSample .. => 0
  | .gownWrite .. => 0
  | .fgevqRead .. => 0
  | .fnbWrite .. => 0
  | .fgtagWrite .. => 0
  | .fgownWrite .. => 0
  | .ferryidWrite .. => 0
  | .fckctlGo .. => 0
  | .demotionEngineStart .. => 0
  | .storageRingStatus .. => 0
  | .storqctlWrite .. => 0
  | .berthWrite .. => 0
  | .berthReconfigApply .. => 0
  | .ranksetWrite .. => 0
  | .pgctlWrite .. => 0
  | .tgrantWrite .. => 0
  | .quayPacketArrival .. => 0
  | .e2eAckArrival .. => 0
  | .packetRetransmitTimeout .. => 0
  | .linkRemoved .. => 0
  | .packageLost .. => 0
  | .snpInv .. => 0
  | .snpData .. => 0
  | .snpCur .. => 0
  | .go .. => 0
  | .goWritePull .. => 0
  | .writePull .. => 0
  | .goErr .. => 0
  | .memRd .. => 0
  | .memWr .. => 0
  | .memWrPtl .. => 0
  | .m2sRefused .. => 0
  | .skovazLinkLost => 0
  | .powerOnReset .. => 0
  | .recoveryImageLoad .. => 0
  | .recoveryKeyEnrol .. => 0
  | .bistctlGo .. => 0
  | .bistComplete .. => 0
  | .remapGo .. => 0
  | .partctlWrite .. => 0
  | .clupartWrite .. => 0
  | .polctlGo .. => 0
  | .bbdataRead .. => 0
  | .blackBoxFlush .. => 0
  | .inputPowerLoss => 0
  | .clockStep .. => 0
  | .junctionOverheat .. => 0
  | .linkReturn .. => 0
  | .uncorrectableErrorDetected .. => 0
  | .launchCancel .. => 0)

end Sys2Proof
end

