-- ==== Sys2Proof/Config.lean ====
section
/-!
DEFINITION. Sys2Proof/Config.lean: what the part fixes (the figure sheet R9 and the counts of R12, R14),
and the values the spec leaves open, as constants without a body (log 3).
-/
namespace Sys2Proof.Config

/-- Dies in a package (R2, R9). -/
def dies : Nat := 8
/-- Clusters of a die (R9, R12). -/
def clusters : Nat := 16
/-- Cores of a package: 8 dies of 16 clusters of 8 cores (R9, R13). -/
def cores : Nat := 1024
/-- Vector lanes of a cluster (R9, R219). -/
def lanes : Nat := 512
/-- Partitions of a package (R25). -/
def partitions : Nat := 48
/-- Work queues of a package (R97). -/
def workQueues : Nat := 1024
/-- Quay links of a package (R9, R406). -/
def quayLinks : Nat := 36
/-- Bytes of a line (R369). -/
def lineBytes : Nat := 64
/-- Bytes of a page (R369). -/
def pageBytes : Nat := 65536
/-- Bytes of a core's local SRAM (R9, R85). -/
def sramBytes : Nat := 1572864

/-- Entries of a port's TLB (R9, R375). -/
def tlbEntries : Nat := 8192
/-- Lines of a cluster's instruction cache of 128 KiB (R9, R103). -/
def icacheLines : Nat := 2048

/-- Pages that a tier holds: HBM4 of 768 GB, LPDDR-6 of 1,536 GB (R9, R10; GB as 2^30 bytes, log 79). -/
def tierPages : Nat → Nat
  | 0 => 12582912
  | _ => 25165824

/-- FREE VALUE (log 3). A word the spec leaves open: drawn by a step at the place its argument counts. -/
opaque freeWord : Nat → Word

/-- FREE VALUE (log 3). Whether a Falcon-1024 signature over SHAKE256 verifies (R11, R420, R426), for the image or
policy that the argument names: the spec names the scheme and not its arithmetic. -/
opaque signatureVerifies : Nat → Bool

/-- FREE VALUE (log 3). Whether an image's signature verifies under the owner key of a hash (R420). -/
opaque ownerVerifies : Nat → Nat → Bool

/-- FREE VALUE (log 3). The die whose port serves a physical frame (R373): the spec does not give the interleaving. -/
opaque homeDie : Nat → Nat

/-- FREE VALUE (log 3). Whether the entries that the service core compiles from a policy fit class 0 (R426): the compiled form
is the service core's own. -/
opaque policyFits : Nat → Bool

/-- FREE VALUE (log 3). The check word a save writes (R203): its form is the device's own. -/
opaque checkWord : Nat → Word

/-- FREE VALUE (log 3). The rounded value of a special function (R68) where the fixed-point evaluation of the model
does not decide the rounding: indexed by function code and input. -/
opaque specialFallback : Nat → Word → Word

end Sys2Proof.Config
end

