-- ==== Sys2Proof/Machine/Num.lean ====
section
/-!
DEFINITION. Sys2Proof/Machine/Num.lean: number formats, rounding, conversions, special functions and the order of sums
(R54 to R79). Every value is an exact dyadic until one rounding.
-/
namespace Sys2Proof.Machine
open Sys2Proof

/-- A binary floating-point format by its fraction and exponent widths (R55). -/
structure Fmt where
  frac : Nat
  expo : Nat

def fp32 : Fmt := ⟨23, 8⟩
def fp16 : Fmt := ⟨10, 5⟩
def bf16 : Fmt := ⟨7, 8⟩
/-- binary64, for the check vectors of R279. -/
def fp64 : Fmt := ⟨52, 11⟩

/-- Bias of a format (R55). -/
def Fmt.bias (f : Fmt) : Nat := 2 ^ (f.expo - 1) - 1
/-- Exponent of the least subnormal (R55). -/
def Fmt.qmin (f : Fmt) : Int := 1 - (f.bias : Int) - (f.frac : Int)
/-- Encoding of +infinity. -/
def Fmt.infBits (f : Fmt) : Nat := (2 ^ f.expo - 1) * 2 ^ f.frac
/-- Sign bit. -/
def Fmt.signBit (f : Fmt) : Nat := 2 ^ (f.frac + f.expo)
/-- The canonical NaN (R56): all exponent bits and the top fraction bit. -/
def Fmt.nan (f : Fmt) : Nat := f.infBits + 2 ^ (f.frac - 1)

/-- The no-mass NaN of a ferry read (R56). -/
def noMassNaN : Word := 0x7FE00000

/-- What a floating-point encoding stands for: a NaN, an infinity, or the exact value (-1)^neg m 2^e. -/
inductive FV where
  | nan
  | inf (neg : Bool)
  | fin (neg : Bool) (m : Nat) (e : Int)
  deriving DecidableEq, Repr

/-- Reading an encoding (R55, R56, R57). -/
def Fmt.decode (f : Fmt) (n : Nat) : FV :=
  let neg := n / f.signBit % 2 == 1
  let ex := n / 2 ^ f.frac % 2 ^ f.expo
  let fr := n % 2 ^ f.frac
  if ex = 2 ^ f.expo - 1 then (if fr = 0 then .inf neg else .nan)
  else if ex = 0 then .fin neg fr f.qmin
  else .fin neg (fr + 2 ^ f.frac) (f.qmin + (ex : Int) - 1)

/-- Whether the magnitude rounds up: `r` of `2^s` is the part dropped, `odd` the last bit kept (R59). -/
def roundsUp (rm : Rnd) (neg odd : Bool) (r s : Nat) : Bool :=
  match rm with
  | .rtz => false
  | .rdn => neg && r != 0
  | .rup => !neg && r != 0
  | .rne => 2 ^ s < 2 * r || (2 * r == 2 ^ s && odd)

/-- One rounding of the exact value (-1)^neg m 2^e to a format, subnormals kept, overflow under R59. -/
def Fmt.round (f : Fmt) (rm : Rnd) (neg : Bool) (m : Nat) (e : Int) : Nat :=
  let sgn := if neg then f.signBit else 0
  if m = 0 then sgn
  else
    let q : Int := max (e + (Nat.log2 m : Int) - (f.frac : Int)) f.qmin
    let s := q - e
    let mant :=
      if s ≤ 0 then m * 2 ^ (-s).toNat
      else
        let k := s.toNat
        let t := m / 2 ^ k
        if roundsUp rm neg (t % 2 == 1) (m % 2 ^ k) k then t + 1 else t
    let bits := (q - f.qmin).toNat * 2 ^ f.frac + mant
    if bits < f.infBits then sgn + bits
    else
      let toMax := match rm with
        | .rne => false
        | .rtz => true
        | .rup => neg
        | .rdn => !neg
      sgn + (if toMax then f.infBits - 1 else f.infBits)

/-- An encoding of a value, rounded once. -/
def Fmt.encode (f : Fmt) (rm : Rnd) (v : FV) : Nat :=
  match v with
  | .nan => f.nan
  | .inf neg => (if neg then f.signBit else 0) + f.infBits
  | .fin neg m e => f.round rm neg m e

/-- The exact product (R57): signs combine by exclusive or; infinity times zero is a NaN. -/
def FV.mul : FV → FV → FV
  | .nan, _ => .nan
  | _, .nan => .nan
  | .inf s, .inf t => .inf (s != t)
  | .inf s, .fin t m _ => if m = 0 then .nan else .inf (s != t)
  | .fin s m _, .inf t => if m = 0 then .nan else .inf (s != t)
  | .fin s m e, .fin t n g => .fin (s != t) (m * n) (e + g)

def FV.neg : FV → FV
  | .nan => .nan
  | .inf s => .inf (!s)
  | .fin s m e => .fin (!s) m e

def FV.isNaN : FV → Bool
  | .nan => true
  | _ => false

def FV.isInf (s : Bool) : FV → Bool
  | .inf t => s == t
  | _ => false

/-- The term is a zero of sign `s`. -/
def FV.isZero (s : Bool) : FV → Bool
  | .fin t m _ => m == 0 && s == t
  | _ => false

/-- Least exponent among finite terms. -/
def minExp (ts : List FV) : Int :=
  ts.foldl (fun a t => match t with
    | .fin _ m e => if m = 0 then a else min a e
    | _ => a) 100000

/-- The term as a multiple of 2^q, for q at most its exponent. -/
def FV.scaled (q : Int) : FV → Int
  | .fin s m e => if m = 0 then 0 else (if s then -1 else 1) * ((m * 2 ^ (e - q).toNat : Nat) : Int)
  | _ => 0

/-- The exact sum of terms with the sign of zero of R57 and the special values of R75. -/
def sumFV (rm : Rnd) (ts : List FV) : FV :=
  if ts.any FV.isNaN || (ts.any (FV.isInf true) && ts.any (FV.isInf false)) then .nan
  else if ts.any (FV.isInf true) then .inf true
  else if ts.any (FV.isInf false) then .inf false
  else
    let q := minExp ts
    let t := (ts.map (FV.scaled q)).foldl (· + ·) 0
    if t = 0 then
      if ts.all (FV.isZero true) && !ts.isEmpty then .fin true 0 0
      else if ts.all (FV.isZero false) then .fin false 0 0
      else .fin (rm == .rdn) 0 0
    else .fin (t < 0) t.natAbs q

/-- A word as an FP32 value. -/
def f32 (w : Word) : FV := fp32.decode w.toNat

/-- RoundFP32 (R42). -/
def roundFP32 (rm : Rnd) (v : FV) : Word := BitVec.ofNat 32 (fp32.encode rm v)

/-- FADD, FSUB, FMUL, FFMA (R163, R72). -/
def fpAdd (rm : Rnd) (a b : Word) : Word := roundFP32 rm (sumFV rm [f32 a, f32 b])
def fpSub (rm : Rnd) (a b : Word) : Word := roundFP32 rm (sumFV rm [f32 a, (f32 b).neg])
def fpMul (rm : Rnd) (a b : Word) : Word := roundFP32 rm ((f32 a).mul (f32 b))
def fpFma (rm : Rnd) (a b c : Word) : Word := roundFP32 rm (sumFV rm [(f32 a).mul (f32 b), f32 c])

/-- The order of R60 on encodings that are no NaN: a key that rises with the value, -0 below +0. -/
def fpKey (w : Word) : Int :=
  if w.toNat < 2 ^ 31 then (w.toNat : Int) else -((w.toNat - 2 ^ 31 : Nat) : Int) - 1

def isNaN32 (w : Word) : Bool := (f32 w).isNaN

/-- Canonical NaN of FP32. -/
def nan32 : Word := 0x7FC00000

/-- FMIN, FMAX (R60). -/
def fpMin (a b : Word) : Word :=
  if isNaN32 a && isNaN32 b then nan32 else if isNaN32 a then b else if isNaN32 b then a
  else if fpKey a ≤ fpKey b then a else b
def fpMax (a b : Word) : Word :=
  if isNaN32 a && isNaN32 b then nan32 else if isNaN32 a then b else if isNaN32 b then a
  else if fpKey b ≤ fpKey a then a else b

/-- Both zeros have one value in comparisons (R60). -/
def cmpKey (w : Word) : Int := if w.toNat % 2 ^ 31 = 0 then 0 else fpKey w

def fpEq (a b : Word) : Bool := !isNaN32 a && !isNaN32 b && cmpKey a == cmpKey b
def fpLt (a b : Word) : Bool := !isNaN32 a && !isNaN32 b && cmpKey a < cmpKey b
def fpLe (a b : Word) : Bool := !isNaN32 a && !isNaN32 b && cmpKey a ≤ cmpKey b

/-- A finite value rounded to an integer (R66, R65 RoundInt). -/
def roundInt (rm : Rnd) (neg : Bool) (m : Nat) (e : Int) : Int :=
  let mag : Nat :=
    if 0 ≤ e then m * 2 ^ e.toNat
    else
      let k := (-e).toNat
      let t := m / 2 ^ k
      if roundsUp rm neg (t % 2 == 1) (m % 2 ^ k) k then t + 1 else t
  if neg then -(mag : Int) else (mag : Int)

/-- FP32 to an integer clamped to a range; NaN gives 0 (R66, R67). -/
def fpToInt (rm : Rnd) (lo hi : Int) (w : Word) : Int :=
  match f32 w with
  | .nan => 0
  | .inf neg => if neg then lo else hi
  | .fin neg m e => max lo (min hi (roundInt rm neg m e))

/-- FCVTW (R165). -/
def fcvtw (rm : Rnd) (a : Word) : Word := BitVec.ofInt 32 (fpToInt rm (-2147483648) 2147483647 a)

/-- An integer as FP32, rounded (R66). -/
def intToFP (rm : Rnd) (i : Int) : Word := roundFP32 rm (.fin (i < 0) i.natAbs 0)

/-- FP32 to a narrower format and back (R66). -/
def fpNarrow (f : Fmt) (rm : Rnd) (a : Word) : Word :=
  match f32 a with
  | .fin neg m e => BitVec.ofNat 32 (f.round rm neg m e)
  | v => BitVec.ofNat 32 (f.encode rm v)
def fpWiden (f : Fmt) (n : Nat) : Word := roundFP32 .rne (f.decode n)

/-- The quotient of two positive naturals, rounded once: enough bits and a sticky bit (R79, R68). -/
def divRound (rm : Rnd) (neg : Bool) (m : Nat) (e : Int) (d : Nat) : Word :=
  if m = 0 then BitVec.ofNat 32 (fp32.round rm neg 0 0)
  else
    let k := Nat.log2 d + 40
    let n := m * 2 ^ k
    BitVec.ofNat 32 (fp32.round rm neg (2 * (n / d) + (if n % d = 0 then 0 else 1)) (e - k - 1))

/-- RoundFP32(value / mass, RNE) with mass at least 1 (R79, R344). -/
def fpDivNat (v : Word) (mass : Nat) : Word :=
  match f32 v with
  | .nan => nan32
  | .inf neg => roundFP32 .rne (.inf neg)
  | .fin neg m e => divRound .rne neg m e mass

/-! Special functions (R68, R69). -/

/-- Integer square root, bit by bit from 2^(n-1) down. -/
def isqrtAux (x : Nat) : Nat → Nat → Nat
  | 0, r => r
  | n + 1, r => let t := r + 2 ^ n; isqrtAux x n (if t * t ≤ x then t else r)

def isqrt (x : Nat) : Nat := isqrtAux x (Nat.log2 x / 2 + 1) 0

def ceilDiv (a b : Nat) : Nat := (a + b - 1) / b

/-- VRCP (R68, R69). -/
def vrcp (w : Word) : Word :=
  match f32 w with
  | .nan => nan32
  | .inf neg => BitVec.ofNat 32 (if neg then 2 ^ 31 else 0)
  | .fin neg m e =>
    if m = 0 then roundFP32 .rne (.inf neg)
    else divRound .rne neg (2 ^ 60) (-60 - e) m

/-- VRSQ (R68, R69): 1/sqrt(m 2^e) with e made even. -/
def vrsq (w : Word) : Word :=
  match f32 w with
  | .nan => nan32
  | .inf neg => if neg then nan32 else 0
  | .fin neg m e =>
    if m = 0 then roundFP32 .rne (.inf neg)
    else if neg then nan32
    else
      let (m2, e2) := if e % 2 = 0 then (m, e) else (2 * m, e - 1)
      let k : Nat := 64
      let q := isqrt (2 ^ (2 * k) / m2)
      let sticky := if q * q * m2 = 2 ^ (2 * k) then 0 else 1
      BitVec.ofNat 32 (fp32.round .rne false (2 * q + sticky) (-(e2 / 2) - k - 1))

/-- Width of the fixed-point evaluation. -/
def fxW : Nat := 256

/-- Lower and upper bounds of ln 2 at scale 2^fxW: the series of 1/(k 2^k). -/
def ln2Lo : Nat := (List.range 270).foldl (fun a i => a + 2 ^ fxW / ((i + 1) * 2 ^ (i + 1))) 0
def ln2Hi : Nat := ln2Lo + 300

/-- Bounds of exp r for a bound pair r below 2^-11, by its Taylor series. -/
def expSmall (lo hi : Nat) : Nat × Nat :=
  let step := fun (a : (Nat × Nat) × (Nat × Nat)) (i : Nat) =>
    let tl := a.1.1 * lo / (2 ^ fxW * (i + 1))
    let th := ceilDiv (a.1.2 * hi) (2 ^ fxW * (i + 1))
    ((tl, th), (a.2.1 + tl, a.2.2 + th))
  let r := (List.range 30).foldl step ((2 ^ fxW, 2 ^ fxW), (2 ^ fxW, 2 ^ fxW))
  (r.2.1, r.2.2 + 2)

/-- Bounds of exp y: halve y sixteen times, then square. -/
def expBounds (lo hi : Nat) : Nat × Nat :=
  (List.range 16).foldl (fun a _ => (a.1 * a.1 / 2 ^ fxW, ceilDiv (a.2 * a.2) (2 ^ fxW)))
    (expSmall (lo / 2 ^ 16) (hi / 2 ^ 16 + 1))

/-- The result if both bounds, at scale 2^-k, round to one encoding; otherwise the free value (log 3). -/
def decideRound (fn : Nat) (w : Word) (neg : Bool) (lo hi : Nat) (e : Int) : Word :=
  let a := fp32.round .rne neg lo e
  let b := fp32.round .rne neg hi e
  if a = b then BitVec.ofNat 32 a else Config.specialFallback fn w

/-- Floor of the exact value m 2^e scaled by 2^fxW, with 1 added for an upper bound when inexact. -/
def scaleFx (m : Nat) (e : Int) : Nat × Nat :=
  let s := e + fxW
  if 0 ≤ s then (m * 2 ^ s.toNat, m * 2 ^ s.toNat) else (m / 2 ^ (-s).toNat, m / 2 ^ (-s).toNat + 1)

/-- VEXP2 (R68, R69). -/
def vexp2 (w : Word) : Word :=
  match f32 w with
  | .nan => nan32
  | .inf neg => if neg then 0 else roundFP32 .rne (.inf false)
  | .fin neg m e =>
    if m = 0 then 0x3F800000
    else
      let x := scaleFx m e
      let big := x.1 / 2 ^ fxW
      if !neg && 128 ≤ big then roundFP32 .rne (.inf false)
      else if neg && (150 < big ∨ (big = 150 ∧ x.1 % 2 ^ fxW ≠ 0)) then 0
      else
        -- 2^x = 2^n 2^f with n the floor of x and f in [0, 1)
        let n : Int := if neg then (if x.1 % 2 ^ fxW = 0 ∧ x.1 = x.2 then -(big : Int) else -(big : Int) - 1) else big
        let fr := x.1 % 2 ^ fxW
        if fr = 0 ∧ x.1 = x.2 then BitVec.ofNat 32 (fp32.round .rne false 1 n)
        else
          let f := if neg then (2 ^ fxW - fr - 1, 2 ^ fxW - fr) else (fr, fr + 1)
          let b := expBounds (f.1 * ln2Lo / 2 ^ fxW) (ceilDiv (f.2 * ln2Hi) (2 ^ fxW))
          decideRound 20 w false b.1 b.2 (n - fxW)

/-- Bits of log2 y for a bound pair y in [1, 2), squared bit by bit while the bounds agree: the bits found, and how many. -/
def log2Bits : Nat → Nat → Nat → Nat → Nat → Nat × Nat
  | 0, _, _, acc, n => (acc, n)
  | fuel + 1, lo, hi, acc, n =>
    let l := lo * lo / 2 ^ fxW
    let h := ceilDiv (hi * hi) (2 ^ fxW)
    if h < 2 * 2 ^ fxW then log2Bits fuel l h (2 * acc) (n + 1)
    else if 2 * 2 ^ fxW ≤ l then log2Bits fuel (l / 2) (h / 2 + 1) (2 * acc + 1) (n + 1)
    else (acc, n)

/-- VLOG2 (R68, R69). -/
def vlog2 (w : Word) : Word :=
  match f32 w with
  | .nan => nan32
  | .inf neg => if neg then nan32 else roundFP32 .rne (.inf false)
  | .fin neg m e =>
    if m = 0 then roundFP32 .rne (.inf true)
    else if neg then nan32
    else
      let n : Int := e + (Nat.log2 m : Int)
      let y := m * 2 ^ fxW / 2 ^ Nat.log2 m
      if m = 2 ^ Nat.log2 m then intToFP .rne n
      else
        let r := log2Bits 160 y y 0 0
        let lo : Int := n * ((2 ^ r.2 : Nat) : Int) + (r.1 : Int)
        let hi : Int := lo + 1
        if 0 ≤ lo then decideRound 21 w false lo.natAbs hi.natAbs (-(r.2 : Int))
        else decideRound 21 w true hi.natAbs lo.natAbs (-(r.2 : Int))

/-- VTANH (R68, R69): the input itself below 2^-12, one from 10 up, else 1 - 2/(exp 2x + 1). -/
def vtanh (w : Word) : Word :=
  match f32 w with
  | .nan => nan32
  | .inf neg => if neg then 0xBF800000 else 0x3F800000
  | .fin neg m e =>
    let x := scaleFx m e
    if m = 0 then w
    else if x.2 < 2 ^ (fxW - 12) then w
    else if 10 * 2 ^ fxW ≤ x.1 then (if neg then 0xBF800000 else 0x3F800000)
    else
      let b := expBounds (2 * x.1) (2 * x.2)
      let lo := 2 ^ fxW - ceilDiv (2 * 2 ^ (2 * fxW)) (b.1 + 2 ^ fxW)
      let hi := 2 ^ fxW - 2 * 2 ^ (2 * fxW) / (b.2 + 2 ^ fxW)
      decideRound 22 w neg lo hi (-(fxW : Int))

/-! Shared-exponent formats (R61 to R65). -/

/-- Magnitude width m of a format (R61). -/
def seM : SEFmt → Nat
  | .se2 => 2
  | .se4 => 4
  | .se7 => 7

/-- Value of an element: field with sign at bit m, its block's E, its pair's micro bit (R61, R63). -/
def seValue (f : SEFmt) (field E mu : Nat) : Word :=
  let m : Nat := seM f
  let s := field / 2 ^ m % 2 == 1
  let mag := field % 2 ^ m
  if E = 255 then nan32
  else if E = 0 then BitVec.ofNat 32 (if s then 2 ^ 31 else 0)
  else BitVec.ofNat 32 (fp32.round .rne s mag ((E : Int) - 127 - mu - (m - 1)))

/-- Floor of log2 of a finite non-zero magnitude (R65 Exponent). -/
def expoOf (m : Nat) (e : Int) : Int := e + (Nat.log2 m : Int)

/-- Magnitude of a finite FP32 value as mantissa and exponent. -/
def magOf (w : Word) : Nat × Int :=
  match f32 w with
  | .fin _ m e => (m, e)
  | _ => (0, 0)

/-- The greater of two magnitudes. -/
def maxMag (a b : Word) : Word := if a.toNat % 2 ^ 31 ≤ b.toNat % 2 ^ 31 then b else a

/-- Quantisation of sixteen FP32 values (R65): E, the eight micro bits, the sixteen element fields. -/
def quantise (f : SEFmt) (x : List Word) : Nat × List Nat × List Nat :=
  let m : Nat := seM f
  if x.any (fun w => w.toNat % 2 ^ 31 ≥ 0x7F800000) then (255, List.replicate 8 0, List.replicate 16 0)
  else
    let a := magOf (x.foldl maxMag 0)
    let sgn := fun (w : Word) => w.toNat / 2 ^ 31 * 2 ^ m
    if a.1 = 0 then (0, List.replicate 8 0, x.map sgn)
    else
      let E : Int := max (expoOf a.1 a.2 + 127) 1
      let mu := (List.range 8).map (fun p =>
        let big := magOf (maxMag (x.getD (2 * p) 0) (x.getD (2 * p + 1) 0))
        if roundInt .rne false big.1 (big.2 + m + 127 - E) ≤ 2 ^ m - 1 then 1 else 0)
      let el := (List.range 16).map (fun i =>
        let w := x.getD i 0
        let g := magOf w
        let r := (roundInt .rne false g.1 (g.2 + m - 1 + (mu.getD (i / 2) 0 : Nat) + 127 - E)).toNat
        min r (2 ^ m - 1) + sgn w)
      (E.toNat, mu, el)

/-- Bytes of a body block (R62): micro byte, zero, then packed fields. -/
def sePack (f : SEFmt) (mu fields : List Nat) : List Byte :=
  let w := seM f + 1
  let micro := (List.range 8).foldl (fun a p => a + mu.getD p 0 * 2 ^ p) 0
  let packed := (List.range 16).foldl (fun a i => a + fields.getD i 0 % 2 ^ w * 2 ^ (i * w)) 0
  [BitVec.ofNat 8 micro, 0] ++ (List.range (2 * w)).map (fun i => BitVec.ofNat 8 (packed / 2 ^ (8 * i)))

/-- Micro bits and element fields of a body block (R62). -/
def seUnpack (f : SEFmt) (bs : List Byte) : List Nat × List Nat :=
  let w := seM f + 1
  let packed := (List.range (2 * w)).foldl (fun a i => a + (bs.getD (2 + i) 0).toNat * 2 ^ (8 * i)) 0
  ((List.range 8).map (fun p => (bs.getD 0 0).toNat / 2 ^ p % 2),
   (List.range 16).map (fun i => packed / 2 ^ (i * w) % 2 ^ w))

/-- Bytes of a body block: 8, 12 or 18 (R62). -/
def seBytes (f : SEFmt) : Nat := 2 + 2 * (seM f + 1)

/-- The pairwise tree of VRED SUM (R73), one level. -/
def sumLevel : List Word → List Word
  | a :: b :: r => fpAdd .rne a b :: sumLevel r
  | l => l

/-- The pairwise tree of VRED SUM (R73), over at most 2^fuel lanes. -/
def sumTree : Nat → List Word → Word
  | 0, l => l.headD 0
  | n + 1, l => match l with
    | [] => 0
    | [w] => w
    | _ => sumTree n (sumLevel l)

/-- CRC-32C (R386): one byte into the running value. -/
def crcByte (c : Word) (b : Byte) : Word :=
  (List.range 8).foldl (fun c _ => if c.getLsbD 0 then (c >>> 1) ^^^ 0x82F63B78 else c >>> 1) (c ^^^ b.zeroExtend 32)

/-- CRC-32C continued over bytes; the initial value and the final inversion are the caller's (R394). -/
def crcBytes (c : Word) (bs : List Byte) : Word := bs.foldl crcByte c

end Sys2Proof.Machine
end

