-- ==== Sys2Proof/Machine/State.lean ====
section
/-!
DEFINITION. Sys2Proof/Machine/State.lean: the state of one package (R30, R167 and the state sections of every
engine chapter), as plain data, and the state after reset. INVENTORY.md lists every piece with its rule and reset value.
-/
namespace Sys2Proof.Machine
open Sys2Proof

/-- A sparse table: keys strictly rising; a key that is absent stands for the default its reader names. -/
abbrev Tbl (α : Type) := List (Nat × α)

/-- A value with its poison mark (R194): a queue entry or a vector lane. -/
structure PWord where
  w : Word := 0
  poison : Bool := false
  deriving DecidableEq, Repr

/-- Privilege levels (R29). -/
inductive Priv where
  | task | supervisor | service
  deriving DecidableEq, Repr

/-- A party of the reference machine at its position (R18): a core, an engine of a cluster (package cluster number),
an engine of a die, a walking port (R398: only P and H cover it), the host. -/
inductive Party where
  | core (k : Nat) | cluster (c : Nat) | die (d : Nat) | walker | host
  deriving DecidableEq, Repr

/-- A publication event of one byte in a history (R30): address, value, scope, origin and the launch that made it. -/
structure Ev where
  addr : Nat
  byte : Byte
  scope : Scope
  origin : Party
  launch : Option Nat
  deriving DecidableEq, Repr

/-- A buffered store (R108, R124): its virtual address, address space, first physical byte, bytes. -/
structure Entry where
  va : Nat
  asid : Nat
  pa : Nat
  bytes : List Byte
  remote : Bool := false
  poison : Bool := false
  hostHomed : Bool := false
  launch : Option Nat := none
  issuedAt : Nat := 0
  deriving DecidableEq, Repr

/-- A landing at H on a host-homed line that GO has not yet acknowledged (R403): remote store or not, the physical line, and its
address, address space and issue for R215. -/
structure GoPend where
  remote : Bool
  line : Nat
  va : Nat := 0
  asid : Nat := 0
  issuedAt : Nat := 0
  deriving DecidableEq, Repr

/-- An item of an outbound queue: a sealed entry with its scope, or the widening mark of a Publish and its task's launch (R167, R168,
R183). -/
inductive OutItem where
  | entry (e : Entry) (s : Scope)
  | mark (s : Scope) (launch : Option Nat)
  deriving DecidableEq, Repr

/-- A snapshot entry: a virtual line and its 64 bytes (R30). -/
structure SnapLine where
  line : Nat
  bytes : List Byte
  poison : Bool := false
  deriving DecidableEq, Repr

/-- Read-modify-write operations of R125. -/
inductive AtomicOp where
  | swp | add | and | or | xor | min | max | minn | maxn
  deriving DecidableEq, Repr

/-- What a long-latency producer does (R41). -/
inductive AccOp where
  /-- A load of `size` bytes, sign-extended or not (R121). -/
  | load (size : Nat) (signed : Bool)
  | atomic (op : AtomicOp) (o : Order) (s : Scope)
  | cas (so : Order) (fo : AcqOrder) (s : Scope)
  /-- ARRIVE (R141): it adds one to its word at a scope and counts in ST -/
  | arrive (s : Scope)
  /-- A divide with the value it will write (R114). -/
  | divide (v : Word)
  /-- RECV and RECVB on a channel (R148). -/
  | recv (ch : Nat)
  | recvb (ch : Nat)
  /-- A command of an engine that writes d at accept or completion (VCLAIM, VYIELD, MCHK, GCMT, GCTR, PSBIND, PSMASS,
  PSDIS, PSHELD, CPY). -/
  | engine (e : Engine)
  deriving DecidableEq, Repr

/-- Where a producer stands: issued; its read performed and the value on its way; a cause recorded with its register
(R109); or rearmed (R193) at the address that met the cause, ready to walk again or not. -/
inductive AccSt where
  | issued
  | got (v : Word) (poison : Bool)
  | recorded (cause : Nat) (addr detail : Word)
  | rearmed (cause : Nat) (ready : Bool) (va : Nat)
  deriving DecidableEq, Repr

/-- An outstanding producer: destination, count of registers it writes, operands, address of its instruction. -/
structure Access where
  op : AccOp
  d : Dst
  nregs : Nat := 1
  addr : Word := 0
  b : Word := 0
  expected : Word := 0
  bPoison : Bool := false
  pc : Word := 0
  instr : Word := 0
  issuedAt : Nat := 0
  st : AccSt := .issued
  pa : Option Nat := none
  /-- address space and launch of the issuing task -/
  asid : Nat := 0
  launch : Option Nat := none
  /-- values the destinations held before issue (R432) -/
  old : List PWord := []
  /-- the task that issued it has ended (R88) -/
  dead : Bool := false
  deriving DecidableEq, Repr

/-- A message (R145): its sixteen words and its bulk payload. -/
structure Msg where
  words : List Word
  bulk : List Byte
  poison : Bool := false
  deriving DecidableEq, Repr

/-- A hardware loop level (R82). -/
structure Loop where
  lc : Word := 0
  ls : Word := 0
  le : Word := 0
  active : Bool := false
  deriving DecidableEq, Repr

/-- The running task (R87): its number, launch, flight, coordinate, item words 1 to 3, uses of TAKE. -/
structure Task where
  uid : Nat
  launch : Nat
  flight : Nat
  row : Nat
  col : Nat
  item : List Word
  takes : Nat := 0
  deriving DecidableEq, Repr

/-- Whether a core issues, and why not (R88, R159, R198, R210). `idle`: no task; `debug r`: halted with REASON r. -/
inductive Run where
  | idle | running | halted | debug (reason : Nat)
  deriving DecidableEq, Repr

/-- An imprecise-error record (R196). -/
structure ImpRec where
  cause : Nat
  pc : Word
  addr : Word
  src : Word
  deriving DecidableEq, Repr

/-- A fault record of an engine for one core (R223, R268, R315, R342, R370): FAULT, its fields, the address. -/
structure FaultRec where
  fault : Bool := false
  cause : Nat := 0
  f1 : Nat := 0
  f2 : Nat := 0
  addr : Word := 0
  deriving DecidableEq, Repr

/-- An engine cause that waits for delivery (R49 item 5): cause, TRDETAIL, address. -/
structure Waiting where
  cause : Nat
  detail : Word
  addr : Word
  deriving DecidableEq, Repr

/-- A gallery record (R301) on its way: the stage it enters next (16: it leaves), whether a recirculation was refused, the
command of the source core that injected it, poisoned fields, the landing or remote message it waits for in an exit
buffer. -/
structure GRec where
  cls : Nat
  src : Nat
  gen : Nat := 0
  pass : Nat := 0
  c : Bool := false
  rq : Bool := false
  kind : Nat := 0
  k : Nat := 0
  f : List Word
  poison : BitVec 16 := 0
  stage : Nat := 0
  lim : Bool := false
  cmd : Option Nat := none
  /-- launch and landing of a LANDING record -/
  land : Option (Nat × Nat) := none
  /-- package and sequence of a RANK record that left as a packet -/
  sent : Option (Nat × Nat) := none
  deriving DecidableEq, Repr

/-- A command handed over and not yet accepted, or in a command queue: its instruction, A and B, its address and word,
its launch, its sequence number, the data read at issue. -/
structure Cmd where
  instr : Instr
  a : Word := 0
  b : Word := 0
  pc : Word := 0
  word : Word := 0
  asid : Nat := 0
  launch : Option Nat := none
  seq : Nat := 0
  data : List Word := []
  /-- operand bytes read by the engine, none before the read -/
  rd : Option (List (Byte × Bool)) := none
  /-- physical bytes the command will write, in order, none before they are taken -/
  wr : Option (List Nat) := none
  /-- started: a tile on the array, a record injected, a command that has taken effect -/
  started : Bool := false
  /-- result for q0 to q4, where the command is done and waits its turn -/
  done : Option Word := none
  /-- the cause with which it will complete -/
  cause : Option Waiting := none
  /-- the record that it returns -/
  ret : Option GRec := none
  /-- the task has ended: result and register are discarded (R88) -/
  dead : Bool := false
  deriving DecidableEq, Repr

/-- A sequencer entry (R224): its instruction, S, its word and address, its stride step. -/
structure VEntry where
  instr : Instr
  s : Word
  sp : Bool := false
  word : Word
  pc : Word
  asid : Nat := 0
  launch : Option Nat := none
  deriving DecidableEq, Repr

/-- What a standing instruction has offered: a command to an engine, a message to a rank, an item to a landing. -/
inductive Hand where
  | cmd (e : Engine) (c : Cmd)
  | msg (rank : Nat) (ch : Nat) (m : Msg)
  /-- a message that left for another package as a packet, its answer still to come (R409) -/
  | sent (pkg seq rank ch : Nat)
  /-- a VLOOP's body, its pass count and stride -/
  | loop (es : List VEntry) (count stride : Word)
  | item (words : List Word)
  /-- a MIGR that has released its grant and waits for its target to be free; `lost`: the target's basin has been fenced since -/
  | move (target : Nat) (lost : Bool)
  deriving DecidableEq, Repr

/-- A trace record: source code of R318 and its words (R214). -/
structure TraceRec where
  code : Nat
  words : List Word
  deriving DecidableEq, Repr

/-- A bounds record of the scope checker (R217). -/
structure Bounds where
  page : Nat
  lo : Nat
  hi : Nat
  count : Nat
  deriving DecidableEq, Repr

/-- Registers and queues of a core (R80), with held results (R22) and poison (R194). -/
structure Regs where
  x : Vector Word 24
  full : BitVec 24
  poison : BitVec 24
  q : Vector (List PWord) 7
  held : List (Nat × PWord)
  deriving DecidableEq, Repr

/-- Upcall CSRs (R82, R84). -/
structure Upcall where
  vec : Word := 0
  pc : Word := 0
  cause : Nat := 0
  addr : Word := 0
  en : Bool := false
  inH : Bool := false
  deriving DecidableEq, Repr

/-- Trap CSRs (R185, R186) and imprecise records (R196), oldest first. -/
structure TrapRegs where
  vec : Word := 0
  pc : Word := 0
  cause : Nat := 0
  addr : Word := 0
  detail : Word := 0
  scr : Word := 0
  fromSup : Bool := false
  re : Bool := false
  double : Bool := false
  imp : List ImpRec := []
  deriving DecidableEq, Repr

/-- The eight counters of R21. -/
structure Counters where
  LD : Nat := 0
  ST : Nat := 0
  MX : Nat := 0
  VX : Nat := 0
  CP : Nat := 0
  gl : Nat := 0
  PS : Nat := 0
  RM : Nat := 0
  deriving DecidableEq, Repr

/-- Debug, trace, latency and scope-checker state (R209, R214 to R217), telemetry counts (R318). -/
structure Debug where
  arm : Bool := false
  step : Bool := false
  stepping : Bool := false
  haltReq : Bool := false
  reason : Nat := 0
  sel : Nat := 0
  pa : Vector Word 4 := #v[0, 0, 0, 0]
  wa : Vector Word 2 := #v[0, 0]
  maddr : Word := 0
  icinv : Option Word := none
  tracectl : Nat := 0
  trace : List TraceRec := []
  loss : Nat := 0
  dlatctl : Bool := false
  dlat : Tbl Word := []
  sckEn : Bool := false
  sckLo : Word := 0
  sckHi : Word := 0
  flagged : List Nat := []
  bounds : List Bounds := []
  retired : Nat := 0
  stalled : Nat := 0
  traps : Nat := 0
  upcalls : Nat := 0
  /-- the ck up to which the lane-ck of the grant have entered their count (R318) -/
  lanesAt : Nat := 0
  deriving DecidableEq, Repr

/-- Selectors and windows of the supervisor (R97, R197, R201, R371, R389, R414, R418). -/
structure SupRegs where
  presel : Nat := 0
  prearea : Word := 0
  preStatus : Nat := 0
  preReason : Nat := 0
  basinsel : Nat := 0
  wqsel : Nat := 0
  asidsel : Nat := 0
  berthsel : Nat := 0
  tiersel : Nat := 0
  prsel : Nat := 0
  ranksel : Nat := 0
  fckaddr : Word := 0
  fckblock : Nat := 0
  fckStatus : Nat := 0
  fckReason : Nat := 0
  fckcrc : Word := 0
  bbidx : Nat := 0
  bbword : Nat := 0
  deriving DecidableEq, Repr

/-- A renegotiation that has issued and not yet taken effect (R258): VCLAIM or VYIELD with its request and d, or VREL. -/
structure Reneg where
  claim : Bool
  ask : Word
  d : Option Dst
  deriving DecidableEq, Repr

/-- The vector pool's part of a core (R219 to R225). -/
structure VecCore where
  grant : Nat := 0
  /-- lanes of an ended task's pending entries (R88) -/
  heldLanes : Nat := 0
  v : Vector (List PWord) 16 := Vector.replicate 16 []
  stride : Word := 0
  lim : Nat := 64
  flt : FaultRec := {}
  fuse : Bool := false
  seq : List VEntry := []
  /-- VLOOP: passes left to complete, pass number, position in the body, body length, stride (R225) -/
  passes : Nat := 0
  pass : Nat := 0
  pos : Nat := 0
  len : Nat := 0
  lstride : Word := 0
  /-- bytes the current entry's engine reads returned; bytes it will write -/
  rd : Option (List (Byte × Bool)) := none
  wr : Option (List Nat) := none
  /-- HELD: the current entry holds a recorded cause (R234) -/
  waiting : Option Waiting := none
  rearmed : Option (Nat × Bool) := none
  reneg : Option Reneg := none
  dead : Bool := false
  deriving DecidableEq, Repr

/-- A matrix array of 128 rows (R265): rows and elements that are absent read 0. -/
abbrev Mat := List (List Word)

/-- Check values of a partial set: rowchk and colchk of R278. -/
structure PartChk where
  row : List Int := []
  col : List Int := []
  deriving DecidableEq, Repr

/-- An accumulator with its check vectors (R279): binary64 value and magnitude per row and column, the exact integer
sums of the INT32 test, and the block-add count; poisoned elements by key 512 i + j (R280). -/
structure Accum where
  el : Mat := []
  rowC : List (BitVec 64) := []
  rowM : List (BitVec 64) := []
  colC : List (BitVec 64) := []
  colM : List (BitVec 64) := []
  rowI : List Word := []
  colI : List Word := []
  count : Nat := 0
  poison : List Nat := []
  deriving DecidableEq, Repr

/-- The matrix unit's part of a core (R265, R266). -/
structure MatCore where
  mg : Vector Word 10 := Vector.replicate 10 0
  idx : List Nat := []
  acc0 : Accum := {}
  acc1 : Accum := {}
  pp : List Mat := [[], [], [], []]
  ppPoison : List (List Nat) := [[], [], [], []]
  ppChk : List PartChk := [{}, {}, {}, {}]
  la : List (List Nat) := []
  lb : List (List Nat) := []
  np : Nat := 0
  ovf0 : Bool := false
  ovf1 : Bool := false
  flt : FaultRec := {}
  corr : Nat := 0
  inj : Word := 0
  seq : Nat := 0
  queue : List Cmd := []
  /-- a task entered while the last task's commands stood in the queue: the unit clears its state behind them -/
  clear : Bool := false
  waiting : Option Waiting := none
  rearmed : Option (Nat × Bool) := none
  deriving DecidableEq, Repr

/-- The copy engine's part of a core (R370, R386, R394): running CRC states and the pending writes of the command at
its turn, its next row. -/
structure CpyCore where
  flt : FaultRec := {}
  crc : Word := 0
  seq : Nat := 0
  queue : List Cmd := []
  row : Nat := 0
  c1 : Word := 0xFFFFFFFF
  c2 : Word := 0xFFFFFFFF
  /-- pending writes, newest last: address, byte, poison -/
  pend : List (Nat × Byte × Bool) := []
  waiting : Option Waiting := none
  rearmed : Option (Nat × Bool) := none
  deriving DecidableEq, Repr

/-- The gallery's part of a core (R315, R323, R330). -/
structure GalCore where
  clsel : Nat := 0
  flt : FaultRec := {}
  slots : Tbl GRec := []
  queue : List Cmd := []
  waiting : Option Waiting := none
  rearmed : Option (Nat × Bool) := none
  deriving DecidableEq, Repr

/-- The ferry's part of a core (R340, R359). -/
structure FerCore where
  gsel : Nat := 0
  nbsel : Nat := 0
  bsel : Nat := 0
  flt : FaultRec := {}
  queue : List Cmd := []
  waiting : Option Waiting := none
  rearmed : Option (Nat × Bool) := none
  deriving DecidableEq, Repr

/-- A SAVE that was asked for: the core that asked, its area and address space, the addresses of the engine region and of the
image region that the area named (R202, R203). -/
structure SaveReq where
  asker : Nat
  area : Word
  asid : Nat
  engine : Word
  image : Word
  deriving DecidableEq, Repr

/-- A core (R80 to R88, R30, R167) with its parts of the engines. -/
structure Core where
  regs : Regs
  pc : Word := 0
  priv : Priv := .task
  run : Run := .idle
  fenced : Bool := false
  /-- the instruction the core stands in (R138), whether its publication is made, what it has offered -/
  standing : Option Instr := none
  pubDone : Bool := false
  hand : Option Hand := none
  /-- queue entries that it pops when it completes (R41) -/
  pops : List (Fin 7) := []
  handPoison : Bool := false
  waitSince : Nat := 0
  /-- the ck since which issue has been stalled on an empty register (R318) -/
  emptySince : Option Nat := none
  /-- YIELD: an entry or message arrived since it issued (R158) -/
  woken : Bool := false
  /-- ALIGN: its mates have freed it (R103) -/
  freed : Bool := false
  fbuf : List (Nat × Word) := []
  loop0 : Loop := {}
  loop1 : Loop := {}
  up : Upcall := {}
  tr : TrapRegs := {}
  alignlim : Nat := 4096
  cache : Nat := 4
  group : Nat := 0
  markin : Word := 0
  /-- the mark that the task last reached (R199) -/
  marked : Word := 0
  rank : Option Nat := none
  masid : Nat := 0
  task : Option Task := none
  cnt : Counters := {}
  buf : List Entry := []
  out : List OutItem := []
  snap : List SnapLine := []
  acc : List Access := []
  /-- pages whose demotion or absence struck at an instruction itself: (ASID, page, cause) (R193, R384) -/
  pageWaits : List (Nat × Nat × Nat) := []
  /-- registers an engine's discard left with its old value, and the engine (R432) -/
  discarded : List (Nat × Engine) := []
  /-- SSTEP: the arrival is counted in generation n (R138, R142) -/
  arrived : Option Nat := none
  /-- child notices in q6 and held behind it, oldest first: the die that issued the LAUNCH, and the handle (R102) -/
  notices : List (Nat × Nat) := []
  recvq : Tbl (List Msg) := []
  rankCache : Tbl Word := []
  sup : SupRegs := {}
  dbg : Debug := {}
  stbase : Word := 0
  stdef : Word := 0
  /-- lines held in the stash window and lines dirty in stash or cache: (virtual line, physical line) -/
  held : List (Nat × Nat) := []
  dirty : List (Nat × Nat) := []
  /-- landings at H on host-homed lines not yet acknowledged by GO (R403) -/
  goPend : List GoPend := []
  /-- SAVE asked for (R202) -/
  saveReq : Option SaveReq := none
  vec : VecCore := {}
  mat : MatCore := {}
  cpy : CpyCore := {}
  gal : GalCore := {}
  fer : FerCore := {}
  deriving DecidableEq, Repr

/-- A saved context (R203, R205): the core's state as it stood, the core it ran on, and its image's check word; the table
of saved contexts is keyed by the physical address of the image region. -/
structure Saved where
  ctx : Core
  core : Nat
  check : Word
  /-- number of the free values that fill the device's own forms in the engine region (R236, R283) -/
  seed : Nat
  deriving DecidableEq, Repr

/-- One reduction at a router for a tag (R227, R229): descriptor, grant, children delivered, and a mismatch seen. -/
structure Reduction where
  desc : Word
  g : Nat
  kids : Tbl (List PWord)
  bad : Bool := false
  deriving DecidableEq, Repr

/-- A cluster (R14): owner (R418 CLUPART), matrix weights and arbiter (R266, R275), instruction cache by (asid, line)
(R103, R144), cluster-router slots by tag (R229). -/
structure Cluster where
  part : Option Nat := none
  mweight : Word := 0
  lastCore : Nat := 7
  inRow : Nat := 0
  icache : List (Nat × Nat × List Byte) := []
  router : Tbl Reduction := []
  deriving DecidableEq, Repr

/-- One copy of a stage's tables (R302, R303): configuration; exact, ternary and range entries that are valid; action
words that are not zero. -/
structure GTab where
  conf : Word := 0
  exact : Tbl (Nat × Nat) := []
  tern : Tbl (Nat × Nat × Nat) := []
  range : Tbl (Nat × Nat × Nat) := []
  act : Tbl (List Word) := []
  deriving DecidableEq, Repr

/-- A gallery class (R299, R310 to R316). -/
structure GClass where
  stages : Nat := 0
  rlim : Nat := 0
  gen : Nat := 0
  old : Bool := false
  drop : Nat := 0
  limhit : Nat := 0
  ownValid : Bool := false
  ownPart : Nat := 0
  ownRsv : Nat := 0
  stgmask : Nat := 0
  cwin : Word := 0
  injq : List GRec := []
  exitq : List GRec := []
  deriving DecidableEq, Repr

/-- A die's gallery (R299). -/
structure Gallery where
  cls : Tbl GClass := []
  active : Tbl GTab := []
  shadow : Tbl GTab := []
  oldTab : Tbl GTab := []
  ctr : Tbl Nat := []
  flight : List GRec := []
  last : Nat := 7
  /-- number of the next command it accepts -/
  next : Nat := 0
  deriving DecidableEq, Repr

/-- A ferry half (R344) as it travels or waits; `bind` counts the binding of the sender's block that a reply answers, `src`
is the sender's die where it is one of this package. -/
structure FHalf where
  tag : Word
  key : Nat
  seq : Nat
  round : Nat
  fid : Word
  bind : Nat
  mass : Nat
  v : List Word
  poison : Bool := false
  src : Option Nat := none
  deriving DecidableEq, Repr

/-- What travels to a ferry of this package: a half for a rank's die, or a reply (R346). -/
inductive FMsg where
  | half (h : FHalf)
  | reply (bind seq : Nat) (ack : Bool)
  deriving DecidableEq, Repr

/-- A held half (R344): its neighbour entry, rank, the half, and the ck at which its timer ends. -/
structure HeldHalf where
  entry : Nat
  rank : Nat
  half : FHalf
  deadline : Nat
  deriving DecidableEq, Repr

/-- A bound ferry block (R338): its arrays stand in it from the bind to the unbind (log 30), with the physical address of
each word. -/
structure FBlock where
  n : Nat
  vaddr : Word
  haddr : Word
  asid : Nat
  vpas : List Nat
  hpas : List Nat
  mass : Nat
  pend : Nat := 0
  key : Nat
  group : Nat
  boff : Nat
  round : Nat := 0
  seq : Nat := 0
  dis : Word := 0
  unc : Nat := 0
  gain : Nat := 0
  qui : Bool := false
  values : List Word
  heldVals : List Word := []
  held : Option HeldHalf := none
  pending : List FHalf := []
  /-- tracked senders: FERRYID and last sequence accepted (R346) -/
  senders : Tbl Nat := []
  /-- halves returned by a timeout or a dead peer, by sequence: mass and entry, for late replies (R347) -/
  returned : Tbl (Nat × Nat) := []
  /-- number of this binding on the die -/
  bind : Nat := 0
  /-- bound by PSJOIN, its mass still 0 (R350) -/
  join : Bool := false
  /-- splitting stopped by a PSQUI at its turn -/
  quiWait : Bool := false
  /-- LEAVE and the neighbour entry of the hand-over; its share is sent; its PSLEAVE was recalled -/
  leave : Option Nat := none
  leaveSent : Bool := false
  leaveRecalled : Bool := false
  /-- entries of recalled PSLEAVEs whose hand-over has not started (R358) -/
  leaves : List Nat := []
  /-- a checkpoint copy of the block runs (R414) -/
  copying : Bool := false
  deriving DecidableEq, Repr

/-- A mixing group (R339, R341). -/
structure FGroup where
  ownValid : Bool := false
  ownPart : Nat := 0
  /-- the group's address space, that of the bind that found it without a bound block (R339, log 30) -/
  asid : Nat := 0
  en : Bool := false
  mode : Bool := false
  ncount : Nat := 0
  period : Nat := 8
  tag : Word := 0
  nb : Tbl Word := []
  evq : List Word := []
  evlost : Nat := 0
  /-- the ck of its next round boundary while it is free-running (R345) -/
  due : Nat := 0
  deriving DecidableEq, Repr

/-- A die's ferry (R338 to R343): `binds` and `next` count bindings and accepted commands, `outq` holds packets that wait
for a place (R408). -/
structure Ferry where
  ftmo : Nat := 4096
  finj : Word := 0
  fid : Word := 0
  ownsel : Nat := 0
  groups : Tbl FGroup := []
  blocks : Tbl FBlock := []
  transit : List FMsg := []
  binds : Nat := 0
  next : Nat := 0
  outq : List (Nat × PacketBody) := []
  deriving DecidableEq, Repr

/-- A basin (R197). -/
structure Basin where
  fenced : Bool := false
  valid : Bool := false
  rowhi : Nat := 0
  rowlo : Nat := 0
  colhi : Nat := 0
  collo : Nat := 0
  deriving DecidableEq, Repr

/-- A slot of a die's child-launch table (R102, R150): the child, and whether its notice is still to be popped. -/
structure ChildSlot where
  seq : Nat := 0
  launch : Option Nat := none
  noticed : Bool := false
  deriving DecidableEq, Repr

/-- An entry of the black box (R427) or a telemetry record: sixteen words (R317). -/
abbrev TRec := List Word

/-- A die (R14). -/
structure Die where
  lost : Bool := false
  failed : Bool := false
  gal : Gallery := {}
  fer : Ferry := {}
  basins : Tbl Basin := []
  rowRouter : Tbl Reduction := []
  rootRouter : Tbl Reduction := []
  /-- totals waiting at root cores, oldest first: (core, tag, descriptor, total or none for a mismatch) (R229) -/
  totals : List (Nat × Nat × Word × Option (List PWord)) := []
  children : Tbl ChildSlot := []
  svctgt : Word := 0
  bootstat : Word := 0
  bistctl : Word := 0
  bistres : Word := 0
  remapCtl : Word := 0
  spareUsed : Bool := false
  spareBad : Bool := false
  partsel : Nat := 0
  clusel : Nat := 0
  hallsel : Nat := 0
  pgsel : Word := 0
  tjmax : Nat := 0
  /-- the launch whose turn came last here, by 8 × partition + priority (R100) -/
  lastTurn : Tbl Nat := []
  bbox : List TRec := []
  bboxFlash : List TRec := []
  lastFlush : Nat := 0
  heartbeat : Nat := 0
  /-- counts of the interval for counter records (R318), by source code * 2^16 + partition * 2^10 + unit; ck of the last samples -/
  tele : Tbl Nat := []
  lastSample : Nat := 0
  lastPower : Nat := 0
  deriving DecidableEq, Repr

/-- A physical range granted to a partition (R430). -/
structure PRange where
  lo : Word := 0
  hi : Word := 0
  valid : Bool := false
  deriving DecidableEq, Repr

/-- A rank's berth (R388, R181): base, log2 size, a change that waits, messages held oldest first. -/
structure Berth where
  base : Word := 0
  log : Nat := 20
  next : Option (Word × Nat) := none
  msgs : List Msg := []
  deriving DecidableEq, Repr

/-- A partition (R25, R371, R389, R405, R418, R430). -/
structure Partition where
  valid : Bool := false
  debug : Bool := false
  netasid : Nat := 0
  tkeyh : List Word := [0, 0, 0, 0, 0, 0, 0, 0]
  polAddr : Word := 0
  polStatus : Nat := 0
  polReason : Nat := 0
  polSeq : Nat := 0
  soft : List Nat := [0, 0, 0]
  hard : List Nat := [0, 0, 0]
  tgrant : List Nat := [0, 0, 0]
  ranges : Tbl PRange := []
  hallways : Tbl Nat := []
  rankbase : Word := 0
  ranklog : Nat := 12
  berths : Tbl Berth := []
  storqBase : Word := 0
  storqCtl : Word := 0
  storqTail : Nat := 0
  sealKey : Bool := false
  /-- rules of the installed policy, four words each, and the records that each AGGREGATE rule has counted (R425, R426) -/
  policy : List (List Word) := []
  polCount : Tbl Nat := []
  /-- demotion engines at work and where their clocks stand: by 4 × die + tier, the next frame (R381) -/
  demoting : Tbl Nat := []
  deriving DecidableEq, Repr

/-- A TLB entry (R375, R378): die, port, (asid, first page), run, first frame, tier, in place, W, X, leaf's address. -/
structure TlbEntry where
  die : Nat
  port : Nat
  asid : Nat
  page : Nat
  run : Nat
  frame : Nat
  tier : Nat
  inpl : Bool
  w : Bool
  x : Bool
  leaf : Nat
  deriving DecidableEq, Repr

/-- Who asked for a tier move (R381, R383, R397): a walk, a copy-engine command (core and sequence number), a demotion
engine. -/
inductive Asked where
  | walk | cmd (k seq : Nat) | engine
  deriving DecidableEq, Repr

/-- A tier move under way (R382): the run's leaf, its frames, source and target tiers, its stage. -/
structure TierMove where
  asid : Nat
  page : Nat
  run : Nat
  frame : Nat
  src : Nat
  dst : Nat
  target : Nat := 0
  part : Nat
  leaf : Nat
  /-- 0 asked, 1 claimed, 2 gathered, 3 copied, 4 remapped -/
  stage : Nat := 0
  by' : Asked := .walk
  /-- its entry of the storage ring, with the status the host wrote (R405) -/
  ring : Option (Nat × Option Bool) := none
  /-- its copy is being repeated after a CRC mismatch (R382) -/
  again : Bool := false
  deriving DecidableEq, Repr

/-- A work queue (R97, R98). -/
structure WorkQueue where
  part : Option Nat := none
  base : Word := 0
  taila : Word := 0
  heada : Word := 0
  asid : Nat := 0
  err : Bool := false
  en : Bool := false
  prio : Nat := 0
  log : Nat := 4
  head : Word := 0
  deriving DecidableEq, Repr

/-- Where a launch came from (R89, R102): a work queue and slot count, or a LAUNCH on a die with its handle, the parent task
and its launch. -/
inductive LaunchSrc where
  | queue (q : Nat) (slot : Nat)
  | child (die : Nat) (handle : Nat) (task : Nat) (parent : Nat)
  deriving DecidableEq, Repr

/-- A flight (R89): entry, argument block, depth. -/
structure Flight where
  entry : Word
  arg : Word
  depth : Nat
  deriving DecidableEq, Repr

/-- A level (R89): columns, rows, placement. -/
structure Level where
  cols : Nat
  rows : Nat
  place : Nat
  deriving DecidableEq, Repr

/-- A launch's part on one die: its handle (R431), clusters, landing instances, waiting since (R100), the cores assigned to it and
not given back (R96); `left`: the die, withdrawn, has left the launch, whose handle stays taken (R101, R431). -/
structure DiePart where
  handle : Nat
  clusters : List Nat
  landings : List (List (List Word))
  waitSince : Nat
  starved : Bool := false
  assigned : List Nat := []
  left : Bool := false
  deriving DecidableEq, Repr

/-- A tile or item to be placed again (R101): die, flight, coordinate, item words, MARKIN. -/
structure Again where
  die : Nat
  flight : Nat
  row : Nat
  col : Nat
  item : List Word
  mark : Word
  deriving DecidableEq, Repr

/-- A launch (R89 to R102, R142, R431, R434). -/
structure Launch where
  src : LaunchSrc
  part : Nat
  asid : Nat
  ident : Word
  prio : Nat
  cache : Nat
  clustersReq : Nat
  doneAddr : Word
  levels : List Level
  flights : List Flight
  mask : Nat
  pendMask : Option Nat := none
  parts : Tbl DiePart := []
  /-- tiles of flight 0 started, as linear indexes -/
  started : List Nat := []
  /-- bound blocks: (level, block, unit number) (R434) -/
  bound : List (Nat × Nat × Nat) := []
  /-- level-0 blocks and the cores that ran one of their tiles (R218) -/
  used : List (Nat × Nat) := []
  /-- tasks to be placed again (R101) -/
  again : List Again := []
  running : Nat := 0
  gen : Nat := 0
  genN : Option Nat := none
  arrivals : Nat := 0
  /-- generations after it that have opened: count asked, arrivals (R142) -/
  later : List (Nat × Nat) := []
  /-- cores that ran its tasks (R183) -/
  cores : List Nat := []
  status : Nat := 0
  refused : Bool := false
  done : Bool := false
  /-- taken from its queue since the queue was last enabled (R98, R99) -/
  seen : Bool := true
  deriving DecidableEq, Repr

/-- A peer package (R407 to R411): sequences, packets unacknowledged with the ck they were sent, the ck of the last
acknowledgement, packets held; the acknowledgements given, newest first (sequence, answer: 0 taken, 1 berth full, 2 channel);
lost. -/
structure Peer where
  nextSeq : Nat := 0
  unacked : List (Packet × Nat) := []
  expect : Nat := 0
  heldPk : List Packet := []
  acks : List (Nat × Nat) := []
  lastAck : Nat := 0
  lost : Bool := false
  deriving DecidableEq, Repr

/-- Firmware and fuses (R420 to R422). -/
structure Firmware where
  slotA : Option Image := none
  slotB : Option Image := none
  recovery : Option Image := none
  ownerKeys : List Nat := []
  rollback : Nat := 0
  strapRecovery : Bool := false
  booted : Bool := false
  deriving DecidableEq, Repr

/-- Whose turn is next: the plain data that stands for the one move sequence (R167, log 1). -/
inductive Turn where
  /-- a core issues -/
  | core (k : Nat)
  /-- an event of the opcode table takes place -/
  | event (i : Instr)
  /-- n ck pass -/
  | tick (n : Nat)
  /-- a core fetches one more word ahead (R144) -/
  | prefetch (k : Nat)
  /-- a cluster drops an instruction-cache line -/
  | icDrop (c : Nat) (line : Nat)
  /-- a core writes a dirty line back (R372: lazily) -/
  | writeBack (k : Nat) (line : Nat)
  deriving DecidableEq, Repr

/-- Package-wide state of the memory system: contents visible to every party, histories newest first, poisoned lines,
ownership, TLBs, ASID tables, tier moves (R30, R194, R369 to R382). -/
structure MemSys where
  mem : List Host.Cell := []
  hist : List Ev := []
  poison : List Nat := []
  lostLines : List Nat := []
  /-- (physical line, owner): the engine, core and sequence number of the command that took it (R32, R177) -/
  own : List (Nat × Engine × Nat × Nat) := []
  tlb : List TlbEntry := []
  /-- runs of frames that a walk or a tier move used as host memory: first frame, pages after it (R373, R375) -/
  hostRuns : List (Nat × Nat) := []
  /-- ASIDPT of an ASID and the partition it belongs to -/
  asidPt : Tbl Word := []
  asidPart : Tbl Nat := []
  moves : List TierMove := []
  rmapbase : Word := 0
  deriving DecidableEq, Repr

/-- The machine: one package. `sched`, `cur` and `fresh` are the model's own fields (logs 1, 3). -/
structure State where
  sched : List Turn := []
  cur : Nat := 0
  ck : Nat := 0
  fresh : Nat := 0
  cores : Tbl Core := []
  clusters : Tbl Cluster := []
  dies : Tbl Die := []
  parts : Tbl Partition := []
  ms : MemSys := {}
  queues : Tbl WorkQueue := []
  launches : Tbl Launch := []
  nextLaunch : Nat := 1
  nextTask : Nat := 1
  leader : Nat := 0
  saved : Tbl Saved := []
  peers : Tbl Peer := []
  pkg : Nat := 0
  links : Tbl Bool := []
  skovazDead : Bool := false
  viral : Bool := false
  viralEn : Bool := false
  pwrlim : Nat := 3600
  pwrstat : Nat := 0
  clockStep : Nat := 0
  fw : Firmware := {}
  /-- records handed to the operator telemetry path, and the counts withheld by producer (a core, or 1,024 + die for a die's
  block) (R319) -/
  exported : List TRec := []
  withheld : Tbl Nat := []
  /-- answers given to the host on the Skovaz link, newest first (R402) -/
  answers : List (String × Nat × List Byte) := []
  deriving DecidableEq, Repr

/-- Reasons for which a step stops. -/
inductive Fault where
  /-- Raised by `step` when the schedule names a core number that the package does not have (R13): safe, no such core
  acts. -/
  | noSuchCore
  /-- Raised by `step` when the schedule names a die that the package does not have (R12): safe, no such die acts. -/
  | noSuchDie
  deriving DecidableEq, Repr

/-- Instructions without a meaning. -/
inductive Refusal where
  /-- Raised by an arm of `exec` whose instruction has no meaning yet: safe. -/
  | notModelled (mnemonic : String)
  deriving DecidableEq, Repr

/-- Registers at reset (R199: zero and full; poison: DESIGN CHOICE 0, log 4). -/
def Regs.reset : Regs :=
  { x := Vector.replicate 24 0, full := BitVec.allOnes 24, poison := 0, q := Vector.replicate 7 [], held := [] }

/-- A core at reset (R29, R82 to R86, R199; log 4 for what no rule gives). Numbers from 1,024 are service cores. -/
def Core.reset (k : Nat) : Core :=
  { regs := Regs.reset, priv := if k < Config.cores then .task else .service, group := 2 ^ (k % 8) }

/-- The machine right after reset: every table empty, so every core, cluster, die, partition and queue stands at its
own reset value; nothing listed in memory (log 2). -/
def State.reset : State := {}

end Sys2Proof.Machine
end

