-- ==== Sys2Proof/Machine/Ops.lean ====
section
/-!
DEFINITION. Sys2Proof/Machine/Ops.lean: tables, memory, translation, the moves of the reference machine (R30 to R32,
R168 to R178, R375 to R380), and taking and returning from exceptions (R104, R187, R188, R195, R198).
-/
namespace Sys2Proof.Machine
open Sys2Proof

/-- The outcome of every meaning (Host/Core.lean). -/
abbrev Out := Host.Outcome State Fault Refusal

/-! Tables. -/

def tfind {α : Type} : Tbl α → Nat → Option α
  | [], _ => none
  | (k, v) :: r, n => if n = k then some v else tfind r n

def tget {α : Type} (t : Tbl α) (d : α) (n : Nat) : α := (tfind t n).getD d

def tset {α : Type} : Tbl α → Nat → α → Tbl α
  | [], n, a => [(n, a)]
  | (k, v) :: r, n, a => if n < k then (n, a) :: (k, v) :: r else if n = k then (n, a) :: r else (k, v) :: tset r n a

def terase {α : Type} (t : Tbl α) (n : Nat) : Tbl α := t.filter (fun p => p.1 != n)

/-- Least number below `fuel` that satisfies a test. -/
def firstFree (p : Nat → Bool) (fuel : Nat) : Option Nat := (List.range fuel).find? p

/-! Parts of the package. -/

def State.core (s : State) (k : Nat) : Core := (tfind s.cores k).getD (Core.reset k)
def State.setCore (s : State) (k : Nat) (c : Core) : State := { s with cores := tset s.cores k c }
def State.updCore (s : State) (k : Nat) (f : Core → Core) : State := s.setCore k (f (s.core k))
def State.cluster (s : State) (c : Nat) : Cluster := tget s.clusters {} c
def State.updCluster (s : State) (c : Nat) (f : Cluster → Cluster) : State :=
  { s with clusters := tset s.clusters c (f (s.cluster c)) }
def State.die (s : State) (d : Nat) : Die := tget s.dies {} d
def State.updDie (s : State) (d : Nat) (f : Die → Die) : State := { s with dies := tset s.dies d (f (s.die d)) }
def State.part (s : State) (p : Nat) : Partition := tget s.parts {} p
def State.updPart (s : State) (p : Nat) (f : Partition → Partition) : State :=
  { s with parts := tset s.parts p (f (s.part p)) }
def State.updMs (s : State) (f : MemSys → MemSys) : State := { s with ms := f s.ms }
def State.updLaunch (s : State) (l : Nat) (f : Launch → Launch) : State :=
  match tfind s.launches l with
  | some x => { s with launches := tset s.launches l (f x) }
  | none => s

/-- A core's die and package cluster (R13); numbers from 1,024 are the service cores. -/
def coreDie (k : Nat) : Nat := if k < Config.cores then k / 128 else k - Config.cores
def coreClu (k : Nat) : Nat := k / 8
def isService (k : Nat) : Bool := Config.cores ≤ k
/-- Row and column of a core on its die's grid (R12). -/
def coreRow (k : Nat) : Nat := 2 * (k / 8 % 16 / 4) + k % 8 / 4
def coreCol (k : Nat) : Nat := 4 * (k / 8 % 16 % 4) + k % 8 % 4
/-- The core of a die at a row and column: inverse of R12. -/
def coreAt (d row col : Nat) : Nat := d * 128 + (row / 2 * 4 + col / 4) * 8 + (row % 2 * 4 + col % 4)
/-- The partition that owns a core's cluster (R25, R83); 0x3F stands for none. -/
def State.corePart (s : State) (k : Nat) : Nat :=
  if isService k then 63 else ((s.cluster (coreClu k)).part).getD 63
/-- The launch a core's task belongs to. -/
def Core.launch (c : Core) : Option Nat := c.task.map (·.launch)

/-! Scopes and parties (R17, R18). -/

def Party.dieOf : Party → Option Nat
  | .core k => some (coreDie k)
  | .cluster c => some (c / 16)
  | .die d => some d
  | _ => none

def Party.cluOf : Party → Option Nat
  | .core k => if isService k then none else some (coreClu k)
  | .cluster c => some c
  | _ => none

/-- A scope covers two parties when both lie in one extent of its kind (R18). -/
def covers (sc : Scope) (a b : Party) : Bool :=
  match sc with
  | .K => a.cluOf == b.cluOf && a.cluOf.isSome
  | .D => a.dieOf == b.dieOf && a.dieOf.isSome
  | .P => a != .host && b != .host
  | .H => true

/-- The narrowest scope that covers two parties (R147). -/
def narrowest (a b : Party) : Scope :=
  if covers .K a b then .K else if covers .D a b then .D else if covers .P a b then .P else .H

/-- Order of scopes from narrow to wide (R17). -/
def scopeRank : Scope → Nat
  | .K => 0 | .D => 1 | .P => 2 | .H => 3

/-! Memory (R30, R31, R369): contents visible to every party in one canonical list, the rest as events. -/

/-- What an unlisted address reads as: 0 (log 2, DESIGN CHOICE). -/
def memDefault : Byte := 0

def memRead : List Host.Cell → Nat → Byte
  | [], _ => memDefault
  | (k, v) :: r, a => if a = k then v else memRead r a

/-- A write keeps the canonical form: addresses strictly rising, no entry equal to the default. -/
def memWrite : List Host.Cell → Nat → Byte → List Host.Cell
  | [], a, b => if b = memDefault then [] else [(a, b)]
  | (k, v) :: r, a, b =>
    if a < k then (if b = memDefault then (k, v) :: r else (a, b) :: (k, v) :: r)
    else if a = k then (if b = memDefault then r else (a, b) :: r)
    else (k, v) :: memWrite r a b

/-- The canonical form (Memory.wf): every address above `lo`, strictly rising, no default byte. -/
def memWfFrom : Nat → List Host.Cell → Bool
  | _, [] => true
  | lo, (k, v) :: r => lo ≤ k && v != memDefault && memWfFrom (k + 1) r

def Memory.wf (m : List Host.Cell) : Bool := memWfFrom 0 m

/-- The canonical list with the same reads; a canonical list stays as it is. -/
def memCanon (m : List Host.Cell) : List Host.Cell :=
  if Memory.wf m then m else m.foldr (fun c acc => memWrite acc c.1 c.2) []

def visible (r : Party) (e : Ev) : Bool := covers e.scope e.origin r

/-- The latest event of a byte visible to a reader, or the contents (R31). -/
def MemSys.byteAt (ms : MemSys) (r : Party) (a : Nat) : Byte :=
  match ms.hist.find? (fun e => e.addr == a && visible r e) with
  | some e => e.byte
  | none => memRead ms.mem a

def MemSys.bytesAt (ms : MemSys) (r : Party) (a n : Nat) : List Byte :=
  (List.range n).map (fun i => ms.byteAt r (a + i))

/-- Appends publication events, in order (R30). -/
def MemSys.append (ms : MemSys) (ws : List (Nat × Byte)) (sc : Scope) (o : Party) (l : Option Nat) : MemSys :=
  { ms with hist := ws.foldl (fun h w => ⟨w.1, w.2, sc, o, l⟩ :: h) ms.hist }

/-- Widens events that satisfy a test to a scope, where theirs is narrower (R139, R183). -/
def MemSys.widen (ms : MemSys) (p : Ev → Bool) (sc : Scope) : MemSys :=
  { ms with hist := ms.hist.map (fun e => if p e && scopeRank e.scope < scopeRank sc then { e with scope := sc } else e) }

/-- Folds the oldest events at H into the contents: an event every party sees hides all before it at its address. -/
def settleHist : List Ev → List Host.Cell → List Ev × List Host.Cell
  | [], m => ([], m)
  | e :: older, m =>
    let r := settleHist older m
    if e.scope == .H then (r.1.filter (fun x => x.addr != e.addr), memWrite r.2 e.addr e.byte) else (e :: r.1, r.2)

/-- End of every step: events visible to all are contents, and the contents are canonical. -/
def State.settle (s : State) : State :=
  let r := settleHist s.ms.hist s.ms.mem
  { s with ms := { s.ms with hist := r.1, mem := memCanon r.2 } }

/-- A frame of host memory, whose home is the host (R373). -/
def MemSys.hostFrame (ms : MemSys) (f : Nat) : Bool := ms.hostRuns.any (fun h => h.1 ≤ f && f ≤ h.1 + h.2)

/-- Frames that become host memory, or stop being it, as a walk or a move uses them (R373). -/
def MemSys.setHost (ms : MemSys) (frame run : Nat) (host : Bool) : MemSys :=
  if host then (if ms.hostRuns.contains (frame, run) then ms else { ms with hostRuns := (frame, run) :: ms.hostRuns })
  else { ms with hostRuns := ms.hostRuns.filter (fun h => h.1 + h.2 < frame || frame + run < h.1) }

/-- Lost lines (R200): a line of a lost die, the home that R373 gives it, or one whose only modified copy went. -/
def State.lineLost (s : State) (line : Nat) : Bool :=
  s.ms.lostLines.contains line || (!s.ms.hostFrame (line / 1024) && (s.die (Config.homeDie (line / 1024))).lost)
/-- Poison of a line at its home (R194). -/
def State.linePoison (s : State) (line : Nat) : Bool := s.ms.poison.contains line || s.lineLost line
def MemSys.poisonLine (ms : MemSys) (line : Nat) : MemSys :=
  if ms.poison.contains line then ms else { ms with poison := line :: ms.poison }
def MemSys.cleanLine (ms : MemSys) (line : Nat) : MemSys :=
  { ms with poison := ms.poison.filter (· != line), lostLines := ms.lostLines.filter (· != line) }

/-- A tier move past its Claim owns every line of the run's frames (R382). -/
def moveOwns (m : TierMove) (line : Nat) : Bool :=
  let f := line / 1024
  (m.frame ≤ f && f ≤ m.frame + m.run) || (m.stage ≥ 3 && m.target ≤ f && f ≤ m.target + m.run)

/-- The line is in an ownership map (R32, R177). -/
def MemSys.owned (ms : MemSys) (line : Nat) : Bool :=
  ms.own.any (fun o => o.1 == line) || ms.moves.any (fun m => m.stage ≥ 1 && moveOwns m line)

/-- Owned by anything but the given command (R177: another command of the same engine and core is another). -/
def MemSys.ownedByOther (ms : MemSys) (e : Engine) (k q : Nat) (line : Nat) : Bool :=
  ms.own.any (fun o => o.1 == line && o.2 != (e, k, q)) || ms.moves.any (fun m => m.stage ≥ 1 && moveOwns m line)

def MemSys.take (ms : MemSys) (e : Engine) (k q : Nat) (lines : List Nat) : MemSys :=
  { ms with own := lines.map (fun l => (l, e, k, q)) ++ ms.own }
def MemSys.release (ms : MemSys) (e : Engine) (k q : Nat) : MemSys :=
  { ms with own := ms.own.filter (fun o => o.2 != (e, k, q)) }

def linesOf (bytes : List Nat) : List Nat := (bytes.map (· / 64)).eraseDups

/-! Words and bytes (R35). -/

def bytesToNat (bs : List Byte) : Nat := bs.foldr (fun b a => a * 256 + b.toNat) 0
def wordOf (bs : List Byte) : Word := BitVec.ofNat 32 (bytesToNat bs)
def bytesLE (n v : Nat) : List Byte := (List.range n).map (fun i => BitVec.ofNat 8 (v / 256 ^ i))
def wordBytes (w : Word) : List Byte := bytesLE 4 w.toNat
/-- The words of a list of bytes. -/
def wordsOf (n : Nat) (bs : List Byte) : List Word := (List.range n).map (fun i => wordOf ((bs.drop (4 * i)).take 4))

/-! Translation (R375 to R380). -/

/-- Kinds of access for W and X (R377). -/
inductive AccKind where
  | load | store | fetch
  deriving DecidableEq, Repr

/-- What a walk or a TLB entry settles: an address, in host memory or not; or a cause with TRDETAIL. -/
inductive Tr where
  | ok (pa : Nat) (host : Bool)
  | bad (cause : Nat) (detail : Word)
  deriving DecidableEq, Repr

/-- Hall bank of a line (R373); its misses go to port bank mod 4 (R375). -/
def hallBank (asid va : Nat) : Nat := (va / 64 % 32) ^^^ (va / 2048 % 32) ^^^ (asid % 32)

def TlbEntry.covers (t : TlbEntry) (die port asid page : Nat) : Bool :=
  t.die == die && t.port == port && t.asid == asid && t.page ≤ page && page ≤ t.page + t.run

/-- A Walk read (R398): events at P or H; at H only where the table lies in host memory (R375). -/
def MemSys.walk8 (ms : MemSys) (a : Nat) : Nat := bytesToNat (ms.bytesAt (if ms.hostFrame (a / 65536) then .host else .walker) a 8)

/-- The atomic OR at H that sets A or D in a leaf (R380). -/
def MemSys.leafOr (ms : MemSys) (leaf bits : Nat) : MemSys :=
  let old := (ms.byteAt .walker leaf).toNat
  if old &&& bits = bits then ms else ms.append [(leaf, BitVec.ofNat 8 (old ||| bits))] .H .walker none

/-- A frame lies in the partition's granted ranges (R430). -/
def Partition.grants (p : Partition) (frame : Nat) : Bool :=
  p.ranges.any (fun r => r.2.valid && r.2.lo.toNat ≤ frame && frame ≤ r.2.hi.toNat)

/-- The first write of a page's lines toward memory sets D in the leaf of the page that maps its frame writable (R376,
R380). -/
def MemSys.setDirty (ms : MemSys) (frame : Nat) : MemSys :=
  match ms.tlb.find? (fun t => t.w && t.frame ≤ frame && frame ≤ t.frame + t.run) with
  | some t => ms.leafOr (t.leaf + 8 * (frame - t.frame)) 16
  | none => ms

/-- Writes go toward memory: their events, and D of the pages that they write (R30, R376). -/
def MemSys.put (ms : MemSys) (ws : List (Nat × Byte)) (sc : Scope) (o : Party) (l : Option Nat) : MemSys :=
  (ws.map (·.1 / 65536)).eraseDups.foldl MemSys.setDirty (ms.append ws sc o l)

/-- Another mapping that forbids a new one of the same frame (R379): the holder's ASID, and its page of the frame. -/
def MemSys.synonym (ms : MemSys) (asid page run frame : Nat) (w : Bool) : Option (Nat × Nat) :=
  (ms.tlb.find? (fun t =>
    t.frame ≤ frame + run && frame ≤ t.frame + t.run && (w || t.w) &&
    !(t.asid == asid && t.page + frame == page + t.frame))).map (fun t => (t.asid, t.page + (max frame t.frame - t.frame)))

/-- A byte of a berth of the address space (R388). -/
def State.inBerth (s : State) (asid va : Nat) : Bool :=
  s.parts.any (fun p => p.2.netasid == asid &&
    p.2.berths.any (fun b => b.2.base.toNat ≤ va && va < b.2.base.toNat + 2 ^ b.2.log))

/-- An address in the n bytes from a, modulo 2^32. -/
def inBytes (a n va : Nat) : Bool := (va + 2 ^ 32 - a) % 2 ^ 32 < n

/-- A byte of a block's arrays (R338). -/
def FBlock.holds (b : FBlock) (asid va : Nat) : Bool :=
  b.asid == asid && (inBytes b.vaddr.toNat (4 * b.n) va || inBytes b.haddr.toNat (4 * b.n) va)

/-- A byte of a bound ferry block's arrays (R338). -/
def State.inBlock (s : State) (asid va : Nat) : Bool :=
  s.dies.any (fun d => d.2.fer.blocks.any (fun b => b.2.holds asid va))

/-- A tier move is asked for (R382); a run that it takes from the host stands in host memory (R373). -/
def MemSys.ask (ms : MemSys) (m : TierMove) : MemSys :=
  let ms := if m.src = 2 then ms.setHost m.frame m.run true else ms
  { ms with moves := ms.moves ++ [m] }

/-- The whole run of a move: from the first leaf of the level-2 table whose run takes in the move's page, in the same tier and at the
frame that agrees (R378, R397; log 31). -/
def MemSys.whole (ms : MemSys) (m : TierMove) : TierMove :=
  let back (i : Nat) : Bool :=
    let l := ms.walk8 (m.leaf - 8 * i)
    let key := if m.src = 3 then 2 ^ 32 + l / 2 ^ 16 % 2 ^ 32 else l / 2 ^ 16 % 2 ^ 32
    l % 2 == 1 && l / 64 % 4 == m.src && i + m.run ≤ l / 256 % 256 && key + i == m.frame
  match ((List.range (m.page % 256)).map (m.page % 256 - ·)).find? back with
  | some i => { m with page := m.page - i, run := m.run + i, frame := m.frame - i, leaf := m.leaf - 8 * i }
  | none => m

/-- PAGE_DEMOTED starts one promotion of the run to HBM (R377, R383). -/
def MemSys.promote (ms : MemSys) (m : TierMove) : MemSys :=
  let m := ms.whole m
  if ms.moves.any (fun x => x.asid == m.asid && x.page == m.page) then ms else ms.ask m

/-- A translation enters its port's TLB; a full one keeps what it holds (R375, log 70). -/
def MemSys.hold (m : MemSys) (t : TlbEntry) : MemSys :=
  let m := m.setHost t.frame t.run (t.tier == 2)
  if (m.tlb.filter (fun x => x.die == t.die && x.port == t.port)).length < Config.tlbEntries then { m with tlb := m.tlb ++ [t] } else m

/-- A walk of the tables (R375 to R379). -/
def walk (s : State) (die port asid va : Nat) (kind : AccKind) : Tr × State :=
  let ms := s.ms
  let part := tget ms.asidPart 63 asid
  let pt := (tget ms.asidPt 0 asid).toNat
  if pt = 0 then (.bad 0x10 0, s)
  else
    let l1 := ms.walk8 (pt * 65536 + 8 * (va / 2 ^ 24))
    if l1 % 2 = 0 then (.bad 0x10 0, s)
    else if l1 / 2 % 2 ^ 10 ≠ 0 ∨ l1 / 2 ^ 48 ≠ 0 then (.bad 0x05 0, s)
    else
      let leafA := l1 / 2 ^ 11 * 2 ^ 11 + 8 * (va / 65536 % 256)
      let l2 := ms.walk8 leafA
      let frame := l2 / 2 ^ 16 % 2 ^ 32
      let page := va / 65536
      let run := min (l2 / 256 % 256) (255 - page % 256)
      let tier := l2 / 64 % 4
      let w := l2 / 2 % 2 == 1
      let x := l2 / 4 % 2 == 1
      if l2 % 2 = 0 then (.bad 0x10 0, s)
      else
        let s := s.updMs (·.leafOr leafA 8)
        if l2 / 2 ^ 48 ≠ 0 ∨ (tier ≠ 3 ∧ !(s.part part).grants frame) ∨ (kind = .store ∧ !w) ∨ (kind = .fetch ∧ !x) then
          (.bad 0x05 0, s)
        else if tier = 3 ∨ (tier ≠ 0 ∧ l2 / 32 % 2 = 0) then
          (.bad 0x11 0, s.updMs (·.promote
            { asid, page, run, frame := if tier = 3 then 2 ^ 32 + frame else frame, src := tier, dst := 0, part, leaf := leafA }))
        else
          match s.ms.synonym asid page run frame w with
          | some h => (.bad 0x60 (BitVec.ofNat 32 (h.1 * 65536 + h.2)), s)
          | none =>
            (.ok (frame * 65536 + va % 65536) (tier == 2),
              s.updMs (·.hold ⟨die, port, asid, page, run, frame, tier, l2 / 32 % 2 == 1, w, x, leafA⟩))

/-- Translation of one address for a party on a die, the ferry's own accesses or not (R338): the held entry, or a walk (R375,
R377, R378). -/
def translateFor (ferry : Bool) (s : State) (die asid va : Nat) (kind : AccKind) : Tr × State :=
  let port := hallBank asid va % 4
  if s.inBerth asid va || (!ferry && s.inBlock asid va) then (.bad 0x05 0, s)
  else
    match s.ms.tlb.find? (·.covers die port asid (va / 65536)) with
    | some t =>
      if (kind = .store ∧ !t.w) ∨ (kind = .fetch ∧ !t.x) then (.bad 0x05 0, s)
      else (.ok ((t.frame + (va / 65536 - t.page)) * 65536 + va % 65536) (t.tier == 2), s)
    | none => walk s die port asid va kind

/-- Translation for every party but the ferry. -/
def translate (s : State) (die asid va : Nat) (kind : AccKind) : Tr × State := translateFor false s die asid va kind

/-- Translation of a run of bytes by `tr`: every physical byte, or the first cause with its address. -/
def translateEach (tr : State → Nat → Tr × State) (s : State) : List Nat → List Nat → (List Nat ⊕ (Nat × Word × Nat)) × State
  | [], acc => (.inl acc.reverse, s)
  | va :: r, acc =>
    match tr s va with
    | (.ok pa _, s) => translateEach tr s r (pa :: acc)
    | (.bad c d, s) => (.inr (c, d, va), s)

def translateRun (s : State) (die asid : Nat) (kind : AccKind) (vas acc : List Nat) : (List Nat ⊕ (Nat × Word × Nat)) × State :=
  translateEach (fun s va => translate s die asid va kind) s vas acc

/-- Consecutive virtual addresses, modulo 2^32. -/
def vaRange (a n : Nat) : List Nat := (List.range n).map (fun i => (a + i) % 2 ^ 32)

/-! A core's reads and stores (R107, R108, R168). -/

/-- An entry that covers a virtual byte of an address space. -/
def Entry.covers (e : Entry) (asid va : Nat) : Bool :=
  e.asid == asid && e.va ≤ va && va < e.va + e.bytes.length

/-- The youngest buffered or sealed store that covers a byte (R168). -/
def Core.ownStore (c : Core) (va : Nat) : Option Entry :=
  match c.buf.reverse.find? (·.covers c.masid va) with
  | some e => some e
  | none => c.out.reverse.findSome? (fun o => match o with
    | .entry e _ => if e.covers c.masid va then some e else none
    | .mark _ _ => none)

/-- A line in the stash window (R372). -/
def Core.inWindow (c : Core) (va : Nat) : Bool :=
  c.stbase.toNat ≤ va && va < c.stbase.toNat + (Config.sramBytes - (256 + 128 * c.cache) * 1024)

/-- The core touches a line: a window slot fills on the first access (R372). -/
def Core.touch (c : Core) (va pa : Nat) : Core :=
  if c.inWindow va && !c.held.contains (va / 64, pa / 64) then { c with held := (va / 64, pa / 64) :: c.held } else c

/-- Accesses of the core or of its engines to consecutive bytes, each with its physical byte (R372). -/
def Core.touchRun (c : Core) (ps : List (Nat × Nat)) : Core :=
  (ps.map (fun p => (p.1 / 64, p.2 / 64))).eraseDups.foldl (fun c l => c.touch (l.1 * 64) (l.2 * 64)) c

/-- The core's own stores that have not landed, oldest first (R168). -/
def Core.unlanded (c : Core) : List Entry :=
  c.out.filterMap (fun o => match o with
    | .entry e _ => some e
    | .mark _ _ => none) ++ c.buf

/-- The entry touches a virtual line of an address space. -/
def Entry.onLine (e : Entry) (asid line : Nat) : Bool :=
  e.asid == asid && e.va < line * 64 + 64 && line * 64 < e.va + e.bytes.length

/-- A line's bytes with a store's bytes written over them. -/
def Entry.over (e : Entry) (asid line : Nat) (bs : List Byte) : List Byte :=
  bs.mapIdx (fun i b => if e.covers asid (line * 64 + i) then e.bytes.getD (line * 64 + i - e.va) 0 else b)

/-- The snapshot entry that a line read from the history makes (R108): its bytes under the core's own stores that have not
landed, which the core's later reads must find (R168, R170). -/
def Core.newLine (c : Core) (line : Nat) (bs : List Byte) (poison : Bool) : SnapLine :=
  let own := c.unlanded.filter (·.onLine c.masid line)
  { line, bytes := own.foldl (fun b e => e.over c.masid line b) bs, poison := poison || own.any (·.poison) }

/-- The read move of one byte (R108, R168): own store, else snapshot, else the latest visible event, whose line then
enters the snapshot. The second part: the value is poisoned. -/
def readByte (s : State) (k va pa : Nat) : Byte × Bool × State :=
  let c := s.core k
  match c.ownStore va with
  | some e => (e.bytes.getD (va - e.va) 0, e.poison, s)
  | none =>
    match c.snap.find? (fun l => l.line == va / 64) with
    | some l => (l.bytes.getD (va % 64) 0, l.poison, s)
    | none =>
      let base := pa / 64 * 64
      let p := s.linePoison (pa / 64)
      let l := c.newLine (va / 64) (s.ms.bytesAt (.core k) base 64) p
      (l.bytes.getD (va % 64) 0, l.poison, s.setCore k ({ c with snap := l :: c.snap }.touch va pa))

/-- Read moves of consecutive bytes. -/
def readRun (s : State) (k : Nat) : List (Nat × Nat) → List Byte × Bool × State
  | [] => ([], false, s)
  | (va, pa) :: r =>
    let b := readByte s k va pa
    let t := readRun b.2.2 k r
    (b.1 :: t.1, b.2.1 || t.2.1, t.2.2)

/-- Bytes of a store written into the core's own snapshot entry for the line, with their poison (R108, R194). -/
def patchSnap (snap : List SnapLine) (va : Nat) (bs : List Byte) (poison : Bool) : List SnapLine :=
  snap.map (fun l => if l.line = va / 64 then
    { l with
      bytes := (List.range bs.length).foldl (fun x i => x.set (va % 64 + i) (bs.getD i 0)) l.bytes,
      poison := l.poison || poison } else l)

/-- The Buffer move (R108, R124): a store enters the phase buffer. -/
def Core.buffer (c : Core) (va pa : Nat) (host : Bool) (bs : List Byte) (remote poison : Bool) (ck : Nat := 0) : Core :=
  if c.fenced then c
  else { c with
    buf := c.buf ++ [{ va, asid := c.masid, pa, bytes := bs, remote, poison, hostHomed := host, launch := c.launch, issuedAt := ck }],
    snap := patchSnap c.snap va bs poison,
    cnt := if remote then { c.cnt with RM := c.cnt.RM + 1 } else c.cnt }

/-! Publication (R139, R168, R169). -/

/-- The seal of a Publish(s) (R168). -/
def Core.seal (c : Core) (sc : Scope) : Core :=
  { c with
    out := c.out ++ c.buf.map (fun e => OutItem.entry e sc) ++ [.mark sc c.launch],
    cnt := { c.cnt with ST := c.cnt.ST + (c.buf.filter (fun e => !e.remote)).length },
    buf := [] }

/-- A trace record enters the encoder's buffer of 64, preceded by a loss record where records were lost (R214). Its 16 bytes
hold the kind's fields in words 0 and 1, the ck count in words 2 and 3 (DESIGN CHOICE, log 12). -/
def Core.trace (c : Core) (ck : Nat) (code : Nat) (w0 w1 : Word) : Core :=
  if c.dbg.tracectl % 2 = 0 then c
  else
    let ckw := [BitVec.ofNat 32 ck, BitVec.ofNat 32 (ck / 2 ^ 32)]
    let loss : List TraceRec := if c.dbg.loss = 0 then [] else [⟨0x1004, [BitVec.ofNat 32 c.dbg.loss, 0] ++ ckw⟩]
    if c.dbg.trace.length + loss.length < 64 then
      { c with dbg := { c.dbg with trace := c.dbg.trace ++ loss ++ [⟨code, [w0, w1] ++ ckw⟩], loss := 0 } }
    else { c with dbg := { c.dbg with loss := min (c.dbg.loss + 1) 65535 } }

/-- Acquire (R139): the snapshot empties; the scope checker hands over its bounds records (R217), page and count in the
first word, highest and lowest line offset in the second (DESIGN CHOICE, log 12). -/
def Core.acquire (c : Core) (ck : Nat) : Core :=
  let c := if c.dbg.tracectl / 8 % 2 = 1 then c.dbg.bounds.foldl (fun c b =>
      c.trace ck 0x1006 (BitVec.ofNat 32 (b.page * 65536 + b.count)) (BitVec.ofNat 32 (b.hi * 65536 + b.lo))) c else c
  { c with snap := [], dbg := { c.dbg with flagged := [], bounds := [] } }

/-- Bytes of an entry with their addresses. -/
def Entry.writes (e : Entry) : List (Nat × Byte) := (List.range e.bytes.length).map (fun i => (e.pa + i, e.bytes.getD i 0))

/-- A byte in the stash window of a fenced core of its address space (R198 item 5, R372). -/
def State.fencedStash (s : State) (asid va : Nat) : Bool :=
  s.cores.any (fun c => c.2.fenced && c.2.masid == asid && c.2.inWindow va)

/-! Latency accumulators (R215). -/

/-- The place that answers an access: none for the core's own stash; another core's stash where its window holds the line; else one
of those that the spec leaves to the caches and the memory: its own cache part, the hall bank, memory, another die's hall. -/
def State.place (s : State) (k asid va free : Nat) : Option Nat :=
  let die := coreDie k
  let other (d : Nat) : Nat := 38 + (if die < d then d - 1 else d)
  if (s.core k).held.any (fun l => l.1 == va / 64) then none
  else match s.cores.find? (fun c => c.1 != k && c.2.masid == asid && c.2.inWindow va && c.2.held.any (fun l => l.1 == va / 64)) with
  | some c => some (if coreClu c.1 = coreClu k then 45 else if coreDie c.1 = die then 46 else other (coreDie c.1))
  | none =>
    let bank := hallBank asid va
    let tier := ((s.ms.tlb.find? (·.covers die (bank % 4) asid (va / 65536))).map (·.tier)).getD 0
    match free % 10 with
    | 0 => none
    | 1 => some bank
    | 2 => some (if tier = 1 then 36 else if tier = 2 then 37 else 32 + bank % 4)
    | n => some (38 + (n - 3))

/-- An access that issued at a ck and is answered now counts with its destination (R215). -/
def State.latency (s : State) (k asid va issuedAt free : Nat) : State :=
  if !(s.core k).dbg.dlatctl then s
  else match s.place k asid va free with
  | none => s
  | some dest => s.updCore k (fun c =>
    let o := (tget c.dbg.dlat 0 dest).toNat
    let n := min (o / 2 ^ 20 + 1) 4095
    let t := min (o % 2 ^ 20 + (s.ck - issuedAt)) 0xFFFFF
    { c with dbg := { c.dbg with dlat := tset c.dbg.dlat dest (BitVec.ofNat 32 (n * 2 ^ 20 + t)) } })

/-- The same where no event names the place: a free value chooses it. -/
def State.latencyAny (s : State) (k asid va issuedAt : Nat) : State :=
  if !(s.core k).dbg.dlatctl then s
  else { s with fresh := s.fresh + 1 }.latency k asid va issuedAt (Config.freeWord s.fresh).toNat

/-- The core whose window holds a line of an address space (R124, R372). -/
def State.windowHolder (s : State) (e : Entry) : Option Nat :=
  (s.cores.find? (fun c => c.2.masid == e.asid && c.2.inWindow e.va && c.2.held.contains (e.va / 64, e.pa / 64))).map (·.1)

/-- A dirty line of stash or cache. -/
def Core.soil (c : Core) (l : Nat × Nat) : Core := if c.dirty.contains l then c else { c with dirty := l :: c.dirty }

/-- A remote store of core k that has landed is written where its line lives: the stash of the core whose window holds it, or the
hall or memory (R124, R168). Its acknowledgement counts (R215). -/
def State.landed (s : State) (k : Nat) (o : Option OutItem) : State :=
  match o with
  | some (.entry e sc) =>
    if e.remote then
      let s := match s.windowHolder e with
        | some h => s.updCore h (·.soil (e.va / 64, e.pa / 64))
        | none => s
      if sc == .H && e.hostHomed then s else s.latencyAny k e.asid e.va e.issuedAt
    else s
  | _ => s

/-- One landing of an outbound queue (R168), that of core k or of a context saved on it: none when there is no item, its line
is owned (R177), or the package in viral state writes nothing to the host (R412). -/
def landItem (s : State) (k : Nat) (c : Core) : Option (State × Core) :=
  match c.out with
  | [] => none
  | .mark sc _ :: r => some (s.updMs (·.widen (fun e => e.origin == .core k) sc), { c with out := r })
  | .entry e sc :: r =>
    let go := sc == .H && e.hostHomed
    if s.ms.owned (e.pa / 64) || (go && s.viral) then none
    else
      let cnt := if go then c.cnt else if e.remote then { c.cnt with RM := c.cnt.RM - 1 } else { c.cnt with ST := c.cnt.ST - 1 }
      let c : Core := { c with out := r, cnt, goPend := if go then c.goPend ++ [⟨e.remote, e.pa / 64, e.va, e.asid, e.issuedAt⟩] else c.goPend }
      let c := if go || e.remote then c else c.soil (e.va / 64, e.pa / 64)
      some (s.updMs (fun m =>
        let m := m.put e.writes sc (.core k) e.launch
        if e.poison || (e.remote && s.fencedStash e.asid e.va) then m.poisonLine (e.pa / 64) else m), c)

/-- One landing of core k's outbound queue. -/
def landOne (s : State) (k : Nat) : Option State :=
  (landItem s k (s.core k)).map (fun r => (r.1.setCore k r.2).landed k (s.core k).out.head?)

/-- Landing of the whole queue of a context saved on core k. -/
def landContext : Nat → State → Nat → Core → Option (State × Core)
  | 0, s, _, c => if c.out.isEmpty then some (s, c) else none
  | n + 1, s, k, c =>
    if c.out.isEmpty then some (s, c) else (landItem s k c).bind (fun r => landContext n (r.1.landed k c.out.head?) k r.2)

/-- Landing of the whole outbound queue; none when a line is owned. -/
def landAll : Nat → State → Nat → Option State
  | 0, s, k => if (s.core k).out.isEmpty then some s else none
  | n + 1, s, k => if (s.core k).out.isEmpty then some s else (landOne s k).bind (fun s => landAll n s k)

/-- The SyncPoint move (R172): lands, seals, lands, widens, acquires, as one; none while a line is owned. -/
def syncPoint (s : State) (k : Nat) (sc : Scope) : Option State :=
  let s := s.updCore k (·.seal sc)
  (landAll ((s.core k).out.length + 1) s k).map (fun s => s.updCore k (·.acquire s.ck))

/-! Telemetry (R317, R318): a record enters class 0 of its die's gallery, or is withheld (R319). -/

def Die.inject0 (d : Die) (r : TRec) : Option Die :=
  let g := tget d.gal.cls {} 0
  if g.injq.length < 64 then
    let g' : GClass := { g with injq := g.injq ++ [{ cls := 0, src := 0x3FF, kind := 3, f := r }] }
    some { d with gal := { d.gal with cls := tset d.gal.cls 0 g' } }
  else none

/-- Fields f0 to f3 of a record (R317): f1 is the producing core's package number, 0x3FF for a die block; a service core has no
number of the 1,024 and counts as its die's block. -/
def recordHead (kind part code producer ck : Nat) : List Word :=
  [BitVec.ofNat 32 (kind * 2 ^ 28 + part * 2 ^ 16 + code),
    BitVec.ofNat 32 (if producer < Config.cores then producer else 0x3FF), BitVec.ofNat 32 ck, BitVec.ofNat 32 (ck / 2 ^ 32)]

/-- A record that class 0 cannot take is withheld: the loss count of its producer rises (R319). -/
def State.withhold (s : State) (producer : Nat) : State :=
  { s with withheld := tset s.withheld producer (tget s.withheld 0 producer + 1) }

/-- A telemetry record of R317: kind, partition, source code, producer (a core, or 1,024 + die for a die's block), payload f4 to
f15. -/
def telemetry (s : State) (die kind part code producer : Nat) (payload : List Word) : State :=
  match (s.die die).inject0 (recordHead kind part code producer s.ck ++ (payload ++ List.replicate 12 0).take 12) with
  | some d => { s with dies := tset s.dies die d }
  | none => s.withhold producer

/-- The partition that owns the unit of a counter source: a core's or cluster's, the class's or group's owner, else none (0x3F). -/
def unitPart (s : State) (die code unit : Nat) : Nat :=
  if code / 256 = 3 then
    let g := tget (s.die die).gal.cls {} unit
    if g.ownValid then g.ownPart else 63
  else if code / 256 = 4 then
    let g := tget (s.die die).fer.groups {} unit
    if g.ownValid then g.ownPart else 63
  else if code / 256 ≤ 1 then s.corePart unit
  else if code / 256 = 2 ∨ code = 0x504 then s.corePart (unit * 8)
  else 63

/-- Adds to a count of the interval for a partition that used the unit (R318). -/
def State.tallyFor (s : State) (die code part unit n : Nat) : State :=
  let key := code * 65536 + part * 1024 + unit
  s.updDie die (fun d => { d with tele := tset d.tele key (tget d.tele 0 key + n) })

/-- The same for the partition that owns the unit. -/
def State.tally (s : State) (die code unit n : Nat) : State := s.tallyFor die code (unitPart s die code unit) unit n

/-- The same of an amount that may be 0 (log 68). -/
def State.count (s : State) (die code unit n : Nat) : State := if n = 0 then s else s.tally die code unit n

/-- The lane-ck of core k's grant since they were last counted enter their count, with the cluster as unit (R318): before the grant
changes, and at a sample. -/
def State.bankLanes (s : State) (k : Nat) : State :=
  let c := s.core k
  if c.vec.grant = 0 then s
  else (s.count (coreDie k) 0x201 (coreClu k) (c.vec.grant * (s.ck - c.dbg.lanesAt))).updCore k (fun c => { c with
    dbg := { c.dbg with lanesAt := s.ck } })

/-- A core's own counts of the interval become the counts of its partition (R318): at a sample, and when its cluster changes hands. -/
def State.bankCounts (s : State) (k : Nat) : State :=
  let d := (s.core k).dbg
  if d.retired + d.stalled + d.traps + d.upcalls = 0 then s
  else
    let s := s.updCore k (fun c => { c with dbg := { c.dbg with retired := 0, stalled := 0, traps := 0, upcalls := 0 } })
    (((s.count (coreDie k) 1 k d.retired).count (coreDie k) 2 k d.stalled).count (coreDie k) 3 k d.traps).count (coreDie k) 4 k d.upcalls

/-- A black-box entry of a die (R427), which is telemetry of kind black box as well (R318). -/
def blackBox (s : State) (die part code : Nat) (unit detail : Word) : State :=
  let s := telemetry s die 3 part code (Config.cores + die) [unit, detail]
  let e : TRec := recordHead 3 part code (Config.cores + die) s.ck ++ [unit, detail] ++ List.replicate 10 0
  s.updDie die (fun d => { d with bbox := (d.bbox ++ [e]).drop (d.bbox.length + 1 - 4096) })

/-- A unit as BISTRES[31:16] lays it out (R423): die, kind, index. -/
def unitWord (die kind index : Nat) : Word := BitVec.ofNat 32 (die * 2 ^ 13 + kind * 2 ^ 8 + index)

/-- A core as a unit: a core of a die, or its service core (R423). -/
def coreUnit (k : Nat) : Word := if isService k then unitWord (coreDie k) 14 0 else unitWord (coreDie k) 0 (k % 128)

/-- The engine to which a cause of its own belongs (R51). -/
def causeEngine (cause : Nat) : Option Engine :=
  match cause / 16 with
  | 2 => some .VX
  | 3 => some .MX
  | 4 => some .GL
  | 5 => some .PS
  | 6 => some .CP
  | _ => none

/-- The fault record of an engine as its CSR holds it (R223, R268, R315, R342, R370). -/
def Core.fltWord (c : Core) (e : Engine) : Word :=
  let f := fun (r : FaultRec) (a b : Nat) => BitVec.ofNat 32 ((if r.fault then 2 ^ 31 else 0) + r.f1 * 2 ^ a + r.f2 * 2 ^ b + r.cause)
  match e with
  | .VX => f c.vec.flt 16 8
  | .MX => f c.mat.flt 8 8
  | .GL => f c.gal.flt 16 8
  | .PS => f c.fer.flt 8 8
  | .CP => f c.cpy.flt 8 8

/-- f8 of a fault detail (R318): the fault record of the engine that the cause came from, else 0. -/
def Core.faultWord (c : Core) (cause : Nat) (eng : Option Engine) : Word :=
  match eng.or (causeEngine cause) with
  | some e => c.fltWord e
  | none => 0

/-! Exceptions. -/

/-- What a core stood in is left: the publication made stands, nothing else took effect (R138). -/
def Core.leave (c : Core) : Core := { c with standing := none, pubDone := false, hand := none, pops := [], handPoison := false, fbuf := [], waitSince := 0, woken := false, freed := false }

/-- A halt in debug with a REASON (R209, R210), with its entry record (R214, log 33). -/
def Core.haltDebug (c : Core) (ck reason : Nat) : Core :=
  let c := if c.dbg.tracectl / 4 % 2 = 1 then c.trace ck 0x1003 9 c.pc else c
  { c with run := .debug reason, dbg := { c.dbg with reason, stepping := false, haltReq := false } }

/-- Cores of the basin that holds a core (R28): its rectangle, or the core alone. -/
def State.basinOf (s : State) (k : Nat) : Option Nat :=
  ((s.die (coreDie k)).basins.find? (fun b => b.2.valid && b.2.rowlo ≤ coreRow k && coreRow k ≤ b.2.rowhi &&
    b.2.collo ≤ coreCol k && coreCol k ≤ b.2.colhi)).map (·.1)

def Basin.cores (b : Basin) (d : Nat) : List Nat :=
  ((List.range 128).map (· + d * 128)).filter (fun k => b.rowlo ≤ coreRow k && coreRow k ≤ b.rowhi &&
    b.collo ≤ coreCol k && coreCol k ≤ b.colhi)

def State.basinCores (s : State) (k : Nat) : List Nat :=
  match s.basinOf k with
  | some b => (tget (s.die (coreDie k)).basins {} b).cores (coreDie k)
  | none => [k]

/-- Issue is stalled on an empty register, or no longer: the ck in between count (R318). -/
def Core.stallOn (c : Core) (ck : Nat) (empty : Bool) : Core :=
  match c.emptySince, empty with
  | none, true => { c with emptySince := some ck }
  | some t, false => { c with emptySince := none, dbg := { c.dbg with stalled := c.dbg.stalled + (ck - t) } }
  | _, _ => c

/-- Entry of a precise trap (R187), with its trace record and fault detail (R214, R318): the shared operation of every
exception taken to the supervisor. -/
def enterTrap (s : State) (k cause : Nat) (detail addr pc : Word) (eng : Option Engine := none) : State :=
  let c := (s.core k).stallOn s.ck false
  let sup := c.priv != .task
  let c : Core := { c.leave with
    tr := { c.tr with pc := pc, cause, addr, detail, re := false, fromSup := sup },
    priv := (if c.priv == Priv.service then .service else .supervisor),
    pc := c.tr.vec,
    dbg := { c.dbg with traps := c.dbg.traps + 1 } }
  let c := if c.dbg.tracectl / 4 % 2 = 1 then c.trace s.ck 0x1003 (BitVec.ofNat 32 cause) pc else c
  let c : Core := if c.dbg.stepping then c.haltDebug s.ck 5 else c
  telemetry (s.setCore k c) (coreDie k) 2 (s.corePart k) (0x2000 + cause) k
    [BitVec.ofNat 32 cause, detail, addr, pc, c.faultWord cause eng]

/-- A command that a recall takes (R178): every one at a fence, those of the task itself where it is aborted. A command of an
earlier task that has ended completes (R88). -/
def Cmd.gone (all : Bool) (q : Cmd) : Bool := all || !q.dead

/-- The vector sequencer emptied, its lanes of an ended task free (R88, R225). -/
def VecCore.emptied (v : VecCore) : VecCore :=
  { v with
    seq := [], passes := 0, pass := 0, pos := 0, len := 0, lstride := 0, rd := none, wr := none, waiting := none, rearmed := none,
    heldLanes := 0, dead := false }

/-- Commands of an engine's queue that a recall discards: the counter falls by their number (R178). -/
def Core.recallAll (all : Bool) (c : Core) : Core :=
  let keep (l : List Cmd) : List Cmd := l.filter (fun q => !q.gone all)
  let head (l : List Cmd) (r : Option (Nat × Bool)) : Option (Nat × Bool) := if l.head?.any (fun q => !q.gone all) then r else none
  { c with
    cnt := { c.cnt with MX := 0, VX := 0, CP := 0, gl := 0, PS := 0 },
    mat := { c.mat with queue := keep c.mat.queue, waiting := none, rearmed := head c.mat.queue c.mat.rearmed },
    vec := if all || !c.vec.dead then c.vec.emptied else c.vec,
    cpy := (if c.cpy.queue.head?.any (fun q => !q.gone all) then { c.cpy with queue := keep c.cpy.queue, waiting := none }
      else { c.cpy with
        queue := keep c.cpy.queue, row := 0, c1 := 0xFFFFFFFF, c2 := 0xFFFFFFFF, pend := [], waiting := none, rearmed := none }),
    gal := { c.gal with queue := keep c.gal.queue, waiting := none, rearmed := head c.gal.queue c.gal.rearmed },
    fer := { c.fer with queue := keep c.fer.queue, waiting := none, rearmed := head c.fer.queue c.fer.rearmed },
    acc := c.acc.filter (fun a => match a.op with
      | .engine _ => a.dead && !all
      | _ => true) }

def sat32 (n : Nat) : Nat := min n 0xFFFFFFFF

def Die.fgroup (d : Die) (g : Nat) : FGroup := tget d.fer.groups {} g
def State.updGroup (s : State) (die g : Nat) (f : FGroup → FGroup) : State :=
  s.updDie die (fun d => { d with fer := { d.fer with groups := tset d.fer.groups g (f (d.fgroup g)) } })
def State.updFerry (s : State) (die : Nat) (f : Ferry → Ferry) : State := s.updDie die (fun d => { d with fer := f d.fer })

/-- A ferry word (R354). -/
def ferryWord (kind b detail : Nat) : Word := BitVec.ofNat 32 (kind * 2 ^ 28 + b * 2 ^ 16 + detail)

/-- A ferry word is posted to a group's queue of 64, or counted in FGEVLOST (R354). -/
def postWord (s : State) (die g : Nat) (w : Word) : State :=
  s.updGroup die g (fun x =>
    if x.evq.length < 64 then { x with evq := x.evq ++ [w] } else { x with evlost := sat32 (x.evlost + 1) })
def postFerry (s : State) (die g kind b detail : Nat) : State := postWord s die g (ferryWord kind b detail)

/-- The block work of a recalled PSQUI or PSLEAVE goes on, and the PSLEAVE's result goes to FGEVQ (R354, R358): a hand-over that has
resolved posts it now, one under way later, one that has not started is started by the ferry. -/
def recallFerry (s : State) (die : Nat) (q : Cmd) : State :=
  let b := q.a.toNat % 4096
  let upd (f : FBlock → FBlock) : State := s.updFerry die (fun x => { x with
    blocks := match tfind x.blocks b with
      | some y => tset x.blocks b (f y)
      | none => x.blocks })
  match q.instr, q.done with
  | .psqui _ _, none => if q.b.getLsbD 0 then upd (fun x => if x.qui then x else { x with quiWait := true }) else s
  | .psleave _ _, none =>
    if q.started then upd (fun x => { x with leaveRecalled := true })
    else upd (fun x => { x with leaves := x.leaves ++ [q.b.toNat % 64] })
  | .psleave _ _, some w => postWord s die (q.data.headD 0).toNat w
  | _, _ => s

/-- Recall of a core's engine commands (R178): the copy rows already written are appended at P, ownership ends, and a tier move that a
command asked for and that has not reached its Claim is not made (R401). -/
def recallCmds (s : State) (k : Nat) (all : Bool) : State :=
  let c := s.core k
  let gone (l : List Cmd) : List Nat := (l.filter (·.gone all)).map (·.seq)
  let taken (e : Engine) (n : Nat) : Bool := match e with
    | .MX => (gone c.mat.queue).contains n
    | .CP => (gone c.cpy.queue).contains n
    | .GL => (gone c.gal.queue).contains n
    | .PS => (gone c.fer.queue).contains n
    | .VX => all || !c.vec.dead
  let s := s.updMs (fun m =>
    let m : MemSys := match c.cpy.queue.head? with
      | some q => if q.gone all then
          let m := m.put (c.cpy.pend.map (fun w => (w.1, w.2.1))) .P (.cluster (coreClu k)) q.launch
          c.cpy.pend.foldl (fun m w => if w.2.2 then m.poisonLine (w.1 / 64) else m) m
        else m
      | none => m
    { m with
      own := m.own.filter (fun o => !(o.2.2.1 == k && taken o.2.1 o.2.2.2)),
      moves := m.moves.filter (fun x => !(x.stage == 0 && (match x.by' with
        | .cmd j n => j == k && taken .CP n
        | _ => false))) })
  let s := s.updDie (coreDie k) (fun d => { d with
    gal := { d.gal with cls := d.gal.cls.map (fun (x : Nat × GClass) =>
      (x.1, { x.2 with injq := x.2.injq.filter (fun r => !(r.src == k && r.cmd.any (taken .GL))) })) } })
  let s := (c.fer.queue.filter (·.gone all)).foldl (fun s q => recallFerry s (coreDie k) q) s
  s.updCore k (·.recallAll all)

/-- Field of a word. -/
def wf (w : Word) (lo len : Nat) : Nat := w.toNat / 2 ^ lo % 2 ^ len

/-- A core lies in a reduction descriptor's rectangle (R228). -/
def descHas (d : Word) (k : Nat) : Bool :=
  wf d 4 3 ≤ coreRow k && coreRow k ≤ wf d 7 3 && wf d 10 4 ≤ coreCol k && coreCol k ≤ wf d 14 4

/-- Core k's vector for a tag stands in a router of its die. -/
def State.hasPut (s : State) (k tag : Nat) : Bool :=
  let d := s.die (coreDie k)
  (match tfind (s.cluster (coreClu k)).router tag with
    | some r => (tfind r.kids (k % 8)).isSome
    | none => false) ||
  (match tfind d.rowRouter (coreClu k % 16 / 4 * 16 + tag) with
    | some r => (tfind r.kids (coreClu k % 4)).isSome
    | none => false) ||
  (match tfind d.rootRouter tag with
    | some r => (tfind r.kids (coreClu k % 16 / 4)).isSome
    | none => false)

/-- A fenced participant has put nothing yet into the reduction: it is discarded (R237). -/
def fenceReductions (s : State) (k : Nat) : State :=
  let mark (t : Tbl Reduction) : Tbl Reduction := t.map (fun r =>
    if descHas r.2.desc k && !s.hasPut k (r.1 % 16) then (r.1, { r.2 with bad := true }) else r)
  let t := { s with clusters := s.clusters.map (fun (c : Nat × Cluster) =>
    if c.1 / 16 = coreDie k then (c.1, { c.2 with router := mark c.2.router }) else c) }
  t.updDie (coreDie k) (fun d => { d with rowRouter := mark d.rowRouter, rootRouter := mark d.rootRouter })

/-- The fence's part of one core (R198): its commands are recalled, its stores that have not landed go, its dirty lines are
poisoned, and BASIN_FENCED is pending; a core that is not in its handler and has not stopped by HALT takes it at once. -/
def fenceCore (bi : Nat) (s : State) (j : Nat) : State :=
  let s := fenceReductions (recallCmds s j true) j
  let c := s.core j
  let s := s.updMs (fun m => c.dirty.foldl (fun m l => m.poisonLine l.2) m)
  let rec' : ImpRec := { cause := 0x72, pc := 0xFFFFFFFF, addr := 0, src := BitVec.ofNat 32 (j % 1024 + bi * 1024) }
  let imp := c.tr.imp ++ [rec']
  let s := { s with cores := s.cores.map (fun (x : Nat × Core) =>
    if x.2.hand == some (Hand.move j false) then (x.1, { x.2 with hand := some (Hand.move j true) }) else x) }
  let s := s.setCore j { c with
    fenced := true, buf := [], out := [], dirty := [], held := [], hand := none,
    run := (if c.run == Run.idle then Run.running else c.run),
    cnt := { c.cnt with ST := 0, RM := 0 },
    tr := { c.tr with imp } }
  if c.priv == .task && c.run != .halted then
    enterTrap s j 0x72 (BitVec.ofNat 32 (min imp.length 255)) ((imp.headD rec').addr) c.pc
  else s

/-- The fence of a core's basin, in one step (R198). -/
def fenceBasin (s : State) (k : Nat) : State :=
  let d := coreDie k
  let bi := (s.basinOf k).getD 0
  let s' := match s.basinOf k with
    | some b => s.updDie d (fun x => { x with basins := tset x.basins b { (tget x.basins {} b) with fenced := true } })
    | none => s
  let s' := (s.basinCores k).foldl (fenceCore bi) s'
  blackBox s' d (s.corePart k) 0x3002 (coreUnit k) 0

/-- A black-box ring is copied to flash (R427). -/
def Die.flush (d : Die) (ck : Nat) : Die := { d with bboxFlash := d.bbox, lastFlush := ck }
def flushBoxes (s : State) : State := { s with dies := s.dies.map (fun (d : Nat × Die) => (d.1, d.2.flush s.ck)) }

/-- A fatal error copies every black box to flash (R427) and puts the package in viral state when EN is set (R412). -/
def fatal (s : State) : State :=
  let s := flushBoxes s
  if s.viralEn then { s with viral := true } else s

/-- The leader's heartbeat stops with its die: every other dispatcher had it last at this ck (R99). -/
def State.stopHeart (s : State) (d : Nat) : State :=
  if d = s.leader then (List.range Config.dies).foldl (fun s x => s.updDie x (fun y => { y with heartbeat := s.ck })) s else s

/-- The host link stands on the half of die 0 or of die 4; it is lost when both dies are fenced or lost (R16, R404). -/
def State.checkLink (s : State) : State :=
  let down (d : Nat) : Bool := (s.die d).lost || (s.die d).failed
  { s with skovazDead := s.skovazDead || (down 0 && down 4) }

/-- The fence of a whole die: every basin of it; the die does not lead any more, and its half of the host link is gone (R16, R99,
R412). -/
def fenceDie (s : State) (d : Nat) : State :=
  let s := s.stopHeart d
  let s := (List.range 128).foldl (fun s i => if (s.core (d * 128 + i)).fenced then s else fenceBasin s (d * 128 + i)) s
  (s.updDie d (fun x => { x with failed := true })).checkLink

/-- A fatal error in a die (R412): with EN = 0 it fences the die. -/
def fatalIn (s : State) (d : Nat) : State := if s.viralEn then fatal s else fenceDie (fatal s) d

/-- A precise trap (R187), or a double trap at supervisor level with RE clear (R188). -/
def takeTrap (s : State) (k cause : Nat) (detail addr pc : Word) (eng : Option Engine := none) : State :=
  let c := s.core k
  if c.priv != .task && !c.tr.re then
    let s := s.setCore k ({ c.leave with tr := { c.tr with double := true } }.haltDebug s.ck 6)
    let s := blackBox s (coreDie k) (s.corePart k) 0x3006 (coreUnit k) (BitVec.ofNat 32 cause)
    if isService k then fatalIn s (coreDie k) else fenceBasin s k
  else enterTrap s k cause detail addr pc eng

/-- Entry of an upcall (R104). A single-step stop follows it (R189, R213): a halt while ARM = 1, else a BREAK trap at the handler's
first instruction. -/
def enterUpcall (s : State) (k cause : Nat) (addr pc : Word) (eng : Option Engine := none) : State :=
  let c := (s.core k).stallOn s.ck false
  let c : Core := { c.leave with
    up := { c.up with pc := pc, cause, addr, inH := true },
    pc := c.up.vec,
    dbg := { c.dbg with upcalls := c.dbg.upcalls + 1 } }
  let c := if c.dbg.tracectl / 4 % 2 = 1 then c.trace s.ck 0x1003 (BitVec.ofNat 32 cause) pc else c
  let c : Core := if c.dbg.stepping then c.haltDebug s.ck 5 else c
  let s := telemetry (s.setCore k c) (coreDie k) 2 (s.corePart k) (0x2000 + cause) k [BitVec.ofNat 32 cause, 0, addr, pc, c.faultWord cause eng]
  if c.dbg.step && !c.dbg.arm then takeTrap s k 0x09 3 0 c.pc else s

/-- Delivery of a cause: PAGE_MISS and PAGE_DEMOTED as an upcall at task level with EN = 1 and IN = 0 (R84, R104),
every other cause as a trap; `eng` is the engine whose command met it, if one did. -/
def deliver (s : State) (k cause : Nat) (detail addr pc : Word) (eng : Option Engine := none) : State :=
  let c := s.core k
  if (cause = 0x10 ∨ cause = 0x11) ∧ c.priv = .task ∧ c.up.en ∧ !c.up.inH then enterUpcall s k cause addr pc eng
  else takeTrap s k cause detail addr pc eng

/-- An imprecise error becomes pending for a core (R194, R196). -/
def pendImp (s : State) (k cause : Nat) (pc addr : Word) : State :=
  let bi := (s.basinOf k).getD 0
  s.updCore k (fun c => { c with tr := { c.tr with imp := c.tr.imp ++ [⟨cause, pc, addr, BitVec.ofNat 32 (k % 1024 + bi * 1024)⟩] } })

/-- Delivery of the oldest pending imprecise error as a trap at the instruction that the core stands at (R195); the
causes 0x70, 0x71 and 0x73 then fence the basin (R198). -/
def deliverImp (s : State) (k : Nat) : State :=
  let c := s.core k
  match c.tr.imp with
  | [] => s
  | r :: _ =>
    let s := takeTrap s k r.cause (BitVec.ofNat 32 (min c.tr.imp.length 255)) r.addr c.pc
    if (r.cause = 0x70 ∨ r.cause = 0x71 ∨ r.cause = 0x73) ∧ !(s.core k).fenced then fenceBasin s k else s

/-- Return from a trap to the task (R156), taking the next pending imprecise error at once (R195). A fenced core does
not go back to its task: it must end with HALT (R198). A service core has no task to return to: it goes on at the saved address at
service level, with no error taken there (DESIGN CHOICE, log 71). -/
def trapReturn (s : State) (k : Nat) : State :=
  let c := s.core k
  if c.fenced then s.setCore k { c.leave with run := .halted }
  else
    let s := s.setCore k { c.leave with priv := (if c.priv == Priv.service then .service else .task), pc := c.tr.pc }
    if c.tr.imp.isEmpty || c.priv == Priv.service then s else deliverImp s k

end Sys2Proof.Machine
end

