-- ==== Sys2Proof/Machine/Operands.lean ====
section
/-!
DEFINITION. Sys2Proof/Machine/Operands.lean: sources and destinations (R41, R44, R80, R81), the order of checks of R49,
the causes that wait (R109, R193, R234, R281, R333, R356, R386, R432), and completion of an instruction (R36, R132).
-/
namespace Sys2Proof.Machine
open Sys2Proof

/-! Registers and queues. -/

/-- Reads xn; x0 reads 0 (R80). -/
def Regs.get (r : Regs) (n : XReg) : Word := if n.val = 0 then 0 else r.x[n]
/-- Writes xn and marks it full; x0 discards (R80, R81); the poison bit is that of the value (R194). -/
def Regs.put (r : Regs) (n : XReg) (v : Word) (poison : Bool) : Regs :=
  if n.val = 0 then r
  else { r with
    x := r.x.set n v, full := r.full ||| (1 <<< n.val : BitVec 24),
    poison := if poison then r.poison ||| (1 <<< n.val : BitVec 24) else r.poison &&& ~~~(1 <<< n.val : BitVec 24) }
/-- Marks xn empty; x0 never (R41). -/
def Regs.empty (r : Regs) (n : XReg) : Regs :=
  if n.val = 0 then r else { r with full := r.full &&& ~~~(1 <<< n.val : BitVec 24) }
/-- The full bit; x0 is always full (R80). -/
def Regs.isFull (r : Regs) (n : XReg) : Bool := n.val = 0 || r.full.getLsbD n.val
def Regs.isPoison (r : Regs) (n : XReg) : Bool := n.val ≠ 0 && r.poison.getLsbD n.val
def Regs.setQ (r : Regs) (n : Fin 7) (l : List PWord) : Regs := { r with q := r.q.set n l }

/-- Consecutive registers from xn. -/
def regsFrom (n : XReg) (count : Nat) : List XReg :=
  (List.range count).filterMap (fun i => if h : n.val + i < 24 then some ⟨n.val + i, h⟩ else none)

/-- The queue of an engine's results (R20, R21). -/
def engineQ : Engine → Fin 7
  | .MX => 0 | .VX => 1 | .GL => 2 | .CP => 3 | .PS => 4

/-- The engine whose results a queue holds. -/
def queueEngine (n : Fin 7) : Option Engine :=
  match n.val with
  | 0 => some .MX | 1 => some .VX | 2 => some .GL | 3 => some .CP | 4 => some .PS | _ => none

/-- An entry enters a queue, or is held behind it (R22); an entry that enters ends a YIELD (R158). -/
def Core.push (c : Core) (n : Fin 7) (e : PWord) : Core :=
  if c.regs.q[n].length < 16 ∧ !c.regs.held.any (fun h => h.1 == n.val) then
    { c with regs := c.regs.setQ n (c.regs.q[n] ++ [e]), woken := true }
  else { c with regs := { c.regs with held := c.regs.held ++ [(n.val, e)] } }

/-- Writes to a destination: a register, or q7, which makes a trace mark with id 0 (R41, R160). -/
def Core.writeDst (c : Core) (ck : Nat) (d : Dst) (v : Word) (poison : Bool) : Core :=
  match d with
  | .x n => { c with regs := c.regs.put n v poison }
  | .q7 => c.trace ck 0x1001 0 v

/-! What an instruction reads and writes. -/

/-- Operands of an instruction (R38, R41, R44, R49). -/
structure Uses where
  a : Option Src := none
  b : Option Src := none
  /-- a register range that starts at b (SEND, SENDB, PASS) -/
  bs : List Src := []
  /-- d or xs read as a source: no e bit, always blocking -/
  ds : List XReg := []
  dst : Option Dst := none
  /-- how many registers the destination names -/
  nregs : Nat := 1
  /-- lowest level (R154) -/
  floor : Priv := .task
  /-- engines whose waiting causes are delivered at it (R49 item 5), beside those of the queues it pops -/
  engs : List Engine := []
  /-- the level of a LOOP (R131) -/
  loop : Option Bool := none
  /-- it makes moves of R170 item 1, or reads memory: it waits for receives (R148) and for atomics not yet performed -/
  moves : Bool := false
  /-- it is a CSR write, a move of R170 item 1 that does not read memory -/
  csr : Bool := false
  /-- it may issue while an earlier producer still owes its destination, which its own write waits for (R297) -/
  late : Bool := false
  /-- PRIVILEGE at any level, where the state forbids the access (R49 item 4) -/
  denied : Bool := false

/-- Values read, and whether one of them is poisoned (R194). -/
structure Vals where
  a : Word := 0
  b : Word := 0
  bs : List Word := []
  ds : List Word := []
  poison : Bool := false

def Uses.srcs (u : Uses) : List (Src × Bool) :=
  (match u.a with
    | some x => [(x, false)]
    | none => []) ++
  (match u.b with
    | some x => [(x, true)]
    | none => []) ++ u.bs.map (fun x => (x, true)) ++ u.ds.map (fun n => (⟨.x n, false⟩, true))

/-- The queues it pops, a before b. -/
def Uses.pops (u : Uses) : List (Fin 7) :=
  u.srcs.filterMap (fun x => match x.1.reg with
    | .q n => some n
    | .x _ => none)

/-- Registers its destination names, ascending; x0 takes no part. -/
def Uses.dests (u : Uses) : List XReg :=
  match u.dst with
  | some (.x n) => if n.val = 0 then [] else regsFrom n u.nregs
  | _ => []

/-- A source is empty; the second of two pops of one queue needs two entries (R41). -/
def Core.srcEmpty (c : Core) (x : Src) (before : List (Fin 7)) : Bool :=
  match x.reg with
  | .x n => !c.regs.isFull n
  | .q n => c.regs.q[n].length ≤ before.count n

/-- Sources with, for each, whether it is empty. -/
def Core.emptiness (c : Core) : List (Src × Bool) → List (Fin 7) → List (Src × Bool × Bool)
  | [], _ => []
  | (x, isB) :: r, before =>
    (x, isB, c.srcEmpty x before) :: c.emptiness r (match x.reg with
      | .q n => n :: before
      | .x _ => before)

/-- The value of a source and its poison. -/
def Core.peek (c : Core) (x : Src) (before : List (Fin 7)) : PWord :=
  match x.reg with
  | .x n => ⟨c.regs.get n, c.regs.isPoison n⟩
  | .q n => c.regs.q[n].getD (before.count n) {}

def Core.vals (c : Core) (u : Uses) : Vals :=
  let pa := match u.a with
    | some x => c.peek x []
    | none => {}
  let before := match u.a with
    | some ⟨.q n, _⟩ => [n]
    | _ => []
  let pb := match u.b with
    | some x => c.peek x before
    | none => {}
  let bs := u.bs.map (fun x => c.peek x [])
  let ds := u.ds.map (fun n => c.peek ⟨.x n, false⟩ [])
  { a := pa.w, b := pb.w, bs := bs.map (·.w), ds := ds.map (·.w),
    poison := pa.poison || pb.poison || bs.any (·.poison) || ds.any (·.poison) }

/-! Causes that wait. -/

/-- An outstanding producer that owns xn. -/
def Access.owns (a : Access) (n : XReg) : Bool :=
  !a.dead && match a.d with
  | .x m => m.val ≠ 0 && m.val ≤ n.val && n.val < m.val + a.nregs
  | .q7 => false

def Core.owner (c : Core) (n : XReg) : Option Access := c.acc.find? (·.owns n)

/-- A recorded cause of xn: cause, address and detail (R109). -/
def Core.recorded (c : Core) (n : XReg) : Option (Nat × Word × Word) :=
  (c.acc.find? (fun a => a.owns n && match a.st with
    | .recorded _ _ _ => true
    | _ => false)).bind (fun a => match a.st with
    | .recorded cause addr detail => some (cause, addr, detail)
    | _ => none)

/-- The waiting cause of an engine (R49 item 5). -/
def Core.waiting (c : Core) : Engine → Option Waiting
  | .MX => c.mat.waiting
  | .VX => c.vec.waiting
  | .CP => c.cpy.waiting
  | .GL => c.gal.waiting
  | .PS => c.fer.waiting

/-- Address and kind of a run: the leaf's run that a page belongs to, for a promotion that starts at a delivery (R193).
The walk that found PAGE_DEMOTED has started it already (R383), so that delivering it changes no state of the memory
system. -/
def isPage (cause : Nat) : Bool := cause == 0x10 || cause == 0x11

/-- A cause delivered: the engine no longer waits with it; a page cause leaves its command rearmed (R193); another cause
ends the vector sequencer's entries (R234 item 6), the other engines' commands having been discarded when they met it. VSEQ.HELD
clears here for a page cause too (DESIGN CHOICE, log 72). -/
def Core.clearWaiting (c : Core) (e : Engine) (w : Waiting) : Core :=
  let re := if isPage w.cause then some (w.cause, w.cause == 0x11) else none
  let c := { c with discarded := c.discarded.filter (fun d => d.2 != e) }
  match e with
  | .MX => { c with mat := { c.mat with waiting := none, rearmed := re } }
  | .CP => { c with cpy := { c.cpy with waiting := none, rearmed := re } }
  | .GL => { c with gal := { c.gal with waiting := none, rearmed := re } }
  | .PS => { c with fer := { c.fer with waiting := none, rearmed := re } }
  | .VX =>
    if isPage w.cause then { c with vec := { c.vec with waiting := none, rearmed := re } }
    else { c with
      vec := { c.vec.emptied with flt := { c.vec.flt with fault := true } },
      cnt := { c.cnt with VX := 0 } }

/-- Delivery of an engine's waiting cause at an instruction that has not executed. -/
def deliverEngine (s : State) (k : Nat) (e : Engine) (w : Waiting) : State :=
  deliver (s.updCore k (·.clearWaiting e w)) k w.cause w.detail w.addr (s.core k).pc (some e)

/-- Engines whose producers left registers with their old values, or still owe them (R432). -/
def Core.registerEngines (c : Core) (rs : List XReg) : List Engine :=
  (c.discarded.filter (fun d => rs.any (fun n => n.val == d.1))).map (·.2) ++
    (rs.filterMap c.owner).filterMap (fun a => match a.op with
      | .engine e => some e
      | _ => none)

/-- The first waiting cause of some engines, by engine code (R49 item 5). -/
def Core.firstWaiting (c : Core) (es : List Engine) : Option (Engine × Waiting) :=
  [Engine.MX, .VX, .CP, .GL, .PS].findSome? (fun e => if es.contains e then (c.waiting e).map (fun w => (e, w)) else none)

/-- Registers in the order in which recorded causes are taken: a, b, then the destinations (R49 item 8). -/
def Uses.order (u : Uses) : List XReg :=
  u.srcs.filterMap (fun x => match x.1.reg with
    | .x n => some n
    | .q _ => none) ++ u.dests

/-- The engine's cause that is delivered at an instruction (R49 item 5, R432): of those it names, those of the queues it pops, and
those of the registers that it reads or writes and that a producer of the engine left or still owes (DEDUCED, log 23). -/
def Core.engineCause (c : Core) (u : Uses) : Option (Engine × Waiting) :=
  c.firstWaiting (u.engs ++ u.pops.filterMap queueEngine ++ c.registerEngines u.order)

/-- The access of xn with a recorded cause is rearmed: it counts in LD again (R193). A promotion brings a demoted page in
by itself; any other cause waits for a TLBINV over the page (log 20). -/
def Core.rearm (c : Core) (n : XReg) : Core :=
  { c with
    acc := c.acc.map (fun a => if a.owns n then
      (match a.st with
        | .recorded cause addr _ => { a with st := .rearmed cause (cause == 0x11) addr.toNat }
        | _ => a) else a),
    cnt := { c.cnt with LD := c.cnt.LD + 1 } }

/-- The word of an instruction, for TRDETAIL (R190). -/
def instrWord (i : Instr) : Word := encode i

/-- TRDETAIL of a cause raised by the core at an instruction (R190). -/
def detailOf (i : Instr) (cause : Nat) : Word :=
  if cause = 0x04 ∨ cause = 0x05 ∨ cause = 0x10 ∨ cause = 0x11 ∨ cause = 0x62 then instrWord i else 0

/-- The detail a translation gave, or that of R190. -/
def detailOr (i : Instr) (cause : Nat) (detail : Word) : Word := if cause = 0x60 then detail else detailOf i cause

/-- A page cause that strikes at an instruction itself is remembered for the notice of KIND 2 (R193, R384). -/
def Core.pageWait (c : Core) (cause : Nat) (addr : Word) : Core :=
  let e := (c.masid, addr.toNat / 65536, cause)
  if isPage cause && !c.pageWaits.contains e then { c with pageWaits := e :: c.pageWaits } else c

/-- A precise trap or upcall at the instruction itself. -/
def raise (i : Instr) (s : State) (cause : Nat) (addr : Word) : State :=
  deliver s s.cur cause (detailOf i cause) addr (s.core s.cur).pc

/-- A precise trap or upcall with a detail of its own. -/
def raiseD (s : State) (cause : Nat) (detail addr : Word) : State :=
  deliver (s.updCore s.cur (·.pageWait cause addr)) s.cur cause detail addr (s.core s.cur).pc

/-- The core stands at an instruction that waits (R138). A stall on an empty register ends here (R318). -/
def stand (i : Instr) (s : State) : State :=
  s.updCore s.cur (fun c =>
    (if c.standing = some i then c else { c with standing := some i, waitSince := s.ck, woken := false, freed := false }).stallOn s.ck false)

/-! Moves that outstanding loads must precede (R170 item 2). -/

/-- The event that flags a read of the word at va (R216): the newest of one of its bytes, where the reader does not see it and no
store of its own that has not landed covers the byte. -/
def unseen (s : State) (k va pa : Nat) : Option Ev :=
  (List.range 4).findSome? (fun i =>
    if ((s.core k).ownStore (va / 4 * 4 + i)).isSome then none
    else match s.ms.hist.find? (fun e => e.addr == pa / 4 * 4 + i) with
      | some e => if visible (.core k) e then none else some e
      | none => none)

/-- A party as a scope-checker record names it (log 12). -/
def Party.number : Party → Nat
  | .core j => j
  | .cluster j => 2048 + j
  | .die j => 4096 + j
  | .walker => 8192
  | .host => 8193

/-- The scope checker (R216, R217): a read of a word whose history holds a later event that the reader does not see is
flagged, once a line; past 64 lines every flagged read goes to bounds records by page. -/
def scopeCheck (s : State) (k va pa : Nat) : State :=
  let c := s.core k
  let d := c.dbg
  if !d.sckEn || va < d.sckLo.toNat || d.sckHi.toNat ≤ va then s
  else match unseen s k va pa with
  | none => s
  | some e =>
    if d.bounds.isEmpty && d.flagged.contains (va / 64) then s
    else if d.bounds.isEmpty && d.flagged.length < 64 then
      let c := { c with dbg := { d with flagged := (va / 64) :: d.flagged } }
      s.setCore k (if d.tracectl / 8 % 2 = 1 then
        c.trace s.ck 0x1005 (BitVec.ofNat 32 va) (BitVec.ofNat 32 (scopeRank e.scope * 2 ^ 30 + e.origin.number * 2 ^ 11 + k)) else c)
    else
      let page := va / 65536
      let off := va % 65536 / 64
      let bs := if d.bounds.any (fun b => b.page == page) then d.bounds.map (fun b => if b.page = page then
          { b with lo := min b.lo off, hi := max b.hi off, count := min (b.count + 1) 65535 } else b)
        else d.bounds ++ [⟨page, off, off, 1⟩]
      s.setCore k { c with dbg := { d with bounds := bs } }

/-- First bytes of the words that a read touches, each with its physical byte. -/
def wordStarts : List (Nat × Nat) → List (Nat × Nat)
  | [] => []
  | x :: r => x :: (wordStarts r).filter (fun y => y.1 / 4 != x.1 / 4)

/-- A read move of the core over bytes (R108): flagged word by word (R216); a value of a lost line is poisoned and PEER_LOST
becomes pending for the instruction at `pc` (R200). -/
def readMove (s : State) (k : Nat) (pc : Word) (ps : List (Nat × Nat)) : List Byte × Bool × State :=
  let r := readRun ((wordStarts ps).foldl (fun s p => scopeCheck s k p.1 p.2) s) k ps
  match (if r.2.1 then ps.find? (fun p => s.lineLost (p.2 / 64)) else none) with
  | some p => (r.1, r.2.1, pendImp r.2.2 k 0x73 pc (BitVec.ofNat 32 p.1))
  | none => r

/-- A load of the core translates and performs its read; none while its line is owned (R177). Its value is poisoned where what
it read or its address is (R194). -/
def performLoad (s : State) (k : Nat) (a : Access) (size : Nat) (signed : Bool) : Option (AccSt × State) :=
  let va := a.addr.toNat
  let tr := match a.pa with
    | some pa => (Tr.ok pa false, s)
    | none => translate s (coreDie k) a.asid va .load
  match tr with
  | (.bad cause detail, s) => some (.recorded cause a.addr detail, s)
  | (.ok pa _, s) =>
    if s.ms.owned (pa / 64) then none
    else
      let r := readMove s k a.pc ((List.range size).map (fun i => (va + i, pa + i)))
      let n := bytesToNat r.1
      let v : Word := if signed then BitVec.ofInt 32 (if n < 2 ^ (8 * size - 1) then (n : Int) else (n : Int) - 2 ^ (8 * size))
        else BitVec.ofNat 32 n
      some (.got v (r.2.1 || a.bPoison), r.2.2)

/-- Puts the state of one access; a recorded cause lowers LD (R109). -/
def putAcc (s : State) (k n : Nat) (st : AccSt) : State :=
  s.updCore k (fun c => { c with
    acc := c.acc.mapIdx (fun i a => if i = n then { a with st := st } else a),
    cnt := match st with
      | .recorded _ _ _ => { c.cnt with LD := c.cnt.LD - 1 }
      | _ => c.cnt })

/-- Every issued load performs its read before a seal, acquire or SyncPoint (R170 item 2); none while one must wait. -/
def performReadsFrom (s : State) (k : Nat) : Nat → List Access → Option State
  | _, [] => some s
  | n, a :: r =>
    match a.op, a.st, a.dead with
    | .load size signed, .issued, false =>
      (performLoad s k a size signed).bind (fun t => performReadsFrom (putAcc t.2 k n t.1) k (n + 1) r)
    | _, _, _ => performReadsFrom s k (n + 1) r

def performReads (s : State) (k : Nat) : Option State := performReadsFrom s k 0 (s.core k).acc

/-- An atomic, CAS, ARRIVE or receive that is not yet performed: every later move of R170 item 1 waits for it. -/
def Access.holdsBack (a : Access) : Bool :=
  !a.dead && a.st == .issued && match a.op with
  | .atomic _ _ _ | .cas _ _ _ | .arrive _ | .recv _ | .recvb _ => true
  | _ => false

/-- A RECVB that has met a page cause and not yet taken its message (R148). -/
def Access.untaken (a : Access) : Bool :=
  !a.dead && a.st != .issued && match a.op with
  | .recvb _ => true
  | _ => false

/-- What a memory instruction, send, receive or engine issue waits for (R148, R170): the handler that serves the cause of a
receive is not held back by that receive (DEDUCED, log 73). -/
def Core.heldBack (c : Core) : Bool :=
  c.acc.any (·.holdsBack) || (c.priv == .task && !c.up.inH && c.acc.any (·.untaken))

/-! The gate before every effect (R41, R49). -/

/-- LOOP_FAULT (R131). -/
def Core.loopFault (c : Core) : Option Bool → Bool
  | none => false
  | some inner => c.priv != .task || c.up.inH || (if inner then c.loop1.active else c.loop0.active)

/-- What keeps an instruction from its effect: the state that a trap leaves, or the core standing at it. -/
def blocked (i : Instr) (u : Uses) (s : State) : Option State :=
  let k := s.cur
  let c := s.core k
  if (u.floor = .supervisor ∧ c.priv = .task) ∨ (u.floor = .service ∧ c.priv ≠ .service) ∨ u.denied then
    some (raise i s 0x06 0)
  else match c.engineCause u with
  | some (e, w) => some (deliverEngine s k e w)
  | none =>
    match (c.emptiness u.srcs []).find? (fun x => x.1.e && x.2.2) with
    | some (x, isB, _) =>
      let rec' := match x.reg with
        | .x n => (c.recorded n).isSome
        | .q _ => false
      some (deliver s k 0x03 (BitVec.ofNat 32 (x.reg.code + (if isB then 32 else 0) + (if rec' then 64 else 0))) 0 c.pc)
    | none =>
      if c.loopFault u.loop then some (raise i s 0x07 0)
      else match u.order.findSome? (fun n => (c.recorded n).map (fun r => (n, r))) with
      | some (n, cause, addr, detail) =>
        some (deliver (s.updCore k (·.rearm n)) k cause (detailOr i cause detail) addr c.pc)
      | none =>
        if (c.emptiness u.srcs []).any (fun x => x.2.2) ∨ (!u.late ∧ u.dests.any (fun n => (c.owner n).isSome)) ∨
            (u.moves ∧ c.heldBack) ∨ (u.csr ∧ c.acc.any (·.holdsBack)) then
          some ((stand i s).updCore k (·.stallOn s.ck (u.srcs.any (fun x => match x.1.reg with
            | .x n => !c.regs.isFull n
            | .q _ => false))))
        else none

/-- An instruction passes the gate with its values, or ends there. Where it pops q6 it will acquire (R102), so loads perform
their reads first (R170). -/
def gate (i : Instr) (u : Uses) (s : State) (go : Vals → State → Out) : Out :=
  match blocked i u s with
  | some t => .next t
  | none =>
    let v := (s.core s.cur).vals u
    if u.pops.contains 6 then
      match performReads s s.cur with
      | some s => go v s
      | none => .next (stand i s)
    else go v s

/-! Completion. -/

def popQueues (r : Regs) (qs : List (Fin 7)) : Regs := qs.foldl (fun r n => r.setQ n (r.q[n].drop 1)) r

/-- Loop-back after the word before `n` (R132): LC1 first, LC0 only if LC1 left the PC at `n`. -/
def Loop.step (l : Loop) : Loop :=
  if l.lc.toNat > 1 then { l with lc := l.lc - 1 } else { l with lc := 0, active := false }

def Core.loopEnd (c : Core) (n : Word) : Core :=
  if c.loop1.active ∧ c.loop1.le = n then
    if c.loop1.lc.toNat > 1 then { c with loop1 := c.loop1.step, pc := c.loop1.ls }
    else
      let c := { c with loop1 := c.loop1.step }
      if c.loop0.active ∧ c.loop0.le = n then
        { c with pc := if c.loop0.lc.toNat > 1 then c.loop0.ls else n, loop0 := c.loop0.step }
      else { c with pc := n }
  else if c.loop0.active ∧ c.loop0.le = n then
    { c with pc := if c.loop0.lc.toNat > 1 then c.loop0.ls else n, loop0 := c.loop0.step }
  else { c with pc := n }

/-- Levels step and end at task level with UPSTAT.IN = 0 only (R132, R133). -/
def Core.loopsRun (c : Core) : Bool := c.priv == .task && !c.up.inH

/-- The PC goes to the next word (R36), with the loop-back of R132. -/
def Core.advance (c : Core) : Core :=
  if c.loopsRun then c.loopEnd (c.pc + 4) else { c with pc := c.pc + 4 }

/-- A target inside [LS, LE), counted modulo 2^32. -/
def Loop.inside (l : Loop) (t : Word) : Bool := (t - l.ls).toNat < (l.le - l.ls).toNat

/-- A taken transfer ends the levels whose body it leaves (R133). -/
def Core.leaveLoops (c : Core) (t : Word) : Core :=
  if c.loopsRun then
    { c with
      loop0 := if c.loop0.inside t then c.loop0 else { c.loop0 with active := false },
      loop1 := if c.loop1.inside t then c.loop1 else { c.loop1 with active := false } }
  else c

/-- A taken control transfer, with its trace record (R214). -/
def Core.jump (c : Core) (ck : Nat) (t : Word) : Core :=
  let c := if c.dbg.tracectl / 2 % 2 = 1 then c.trace ck 0x1002 c.pc t else c
  { c.leaveLoops t with pc := t }

/-- The stop that follows a stepped instruction (R189, R210, R213). While ARM = 0 only instructions at task level are stepped: a
BREAK trap in a handler would be a double trap (DESIGN CHOICE, log 74). -/
def stepStop (s : State) (k : Nat) : State :=
  let c := s.core k
  if c.dbg.stepping && c.dbg.arm then
    s.setCore k (c.haltDebug s.ck 5)
  else if c.dbg.step && !c.dbg.arm && c.priv == .task then takeTrap s k 0x09 3 0 c.pc
  else s

/-- Child-launch slots whose notices leave q6 are free for reuse, each in the table of the die that issued its LAUNCH (R102,
R150). -/
def freeSlots (s : State) (ns : List (Nat × Nat)) : State :=
  ns.foldl (fun s n => s.updDie n.1 (fun d => { d with children := d.children.map (fun c =>
    if n.2 = c.2.seq * 256 + c.1 then (c.1, { c.2 with noticed := false }) else c) })) s

/-- What completion does before any single-step stop: queue pops, a pop of q6 acquiring (R102), poison consumed (R194), then the
PC. -/
def completeQ (pops : List (Fin 7)) (s : State) (poison : Bool) (pcf : Core → Core) : State :=
  let k := s.cur
  let s := if poison then pendImp s k 0x71 (s.core k).pc 0 else s
  let s := freeSlots s ((s.core k).notices.take (pops.count 6))
  s.updCore k (fun c =>
    let c := { c with
      regs := popQueues c.regs pops, notices := c.notices.drop (pops.count 6), standing := none, pubDone := false, hand := none,
      pops := [], handPoison := false, emptySince := none,
      dbg := { c.dbg with
        retired := c.dbg.retired + 1, stalled := c.dbg.stalled + (c.emptySince.map (s.ck - ·)).getD 0 } }
    pcf (if pops.contains 6 then c.acquire s.ck else c))

/-- Completion of an instruction, with the single-step stop that follows it. -/
def retireQ (pops : List (Fin 7)) (s : State) (poison : Bool) (pcf : Core → Core) : State :=
  stepStop (completeQ pops s poison pcf) s.cur

def retire (u : Uses) (s : State) (poison : Bool) (pcf : Core → Core) : State := retireQ u.pops s poison pcf

/-- Completion that goes on at the next word. -/
def retireNext (u : Uses) (s : State) (poison : Bool) : State := retire u s poison Core.advance

/-- Completion of an instruction with which the task leaves the core by `leave`: a core that is stepped halts after it (R213). -/
def retireLeaving (u : Uses) (s : State) (poison : Bool) (leave : State → State) : State :=
  let d := (s.core s.cur).dbg
  (leave (completeQ u.pops s poison Core.advance)).updCore s.cur (fun c => if d.stepping && d.arm then c.haltDebug s.ck 5 else c)

/-- An instruction that computes one value from its operands and writes it (R110 and the like). -/
def compute (i : Instr) (u : Uses) (s : State) (f : Vals → Word) : Out :=
  gate i u s fun v s =>
    .next (retireNext u (s.updCore s.cur (fun c => match u.dst with
      | some d => c.writeDst s.ck d (f v) v.poison
      | none => c)) v.poison)

/-- An instruction without a destination that acts on the state and goes on. -/
def act (i : Instr) (u : Uses) (s : State) (f : Vals → State → State) : Out :=
  gate i u s fun v s => .next (retireNext u (f v s) v.poison)

/-- Publish(s) in its place in program order (R139, R168): loads first, then the seal; the core stands until both can
be done. `pubDone` remembers a publication made by an instruction that still waits (R138). -/
def publish (i : Instr) (s : State) (sc : Scope) (go : State → Out) : Out :=
  if (s.core s.cur).pubDone then go s
  else match performReads s s.cur with
  | none => .next (stand i s)
  | some s => go (s.updCore s.cur (fun c => { c.seal sc with pubDone := true }))

/-- The drain that stands before an act (R169): the core waits until its outbound queue is empty. -/
def drain (i : Instr) (s : State) (go : State → Out) : Out :=
  if (s.core s.cur).out.isEmpty then go s else .next (stand i s)

/-- Acquire() in its place in program order. -/
def acquireAt (i : Instr) (s : State) (go : State → Out) : Out :=
  match performReads s s.cur with
  | none => .next (stand i s)
  | some s => go (s.updCore s.cur (fun c => c.acquire s.ck))

/-! Hand-overs: an instruction that offers a command, a message or an item, and stands until an event takes it. -/

/-- The core stands at the instruction with what it offers (R138, R169, R180). -/
def offer (i : Instr) (u : Uses) (poison : Bool) (h : Hand) (s : State) : Out :=
  .next ((stand i s).updCore s.cur (fun c => { c with hand := some h, pops := u.pops, handPoison := poison }))

/-- An instruction that has made its offer keeps it while it stands, until a cause of an engine waits for delivery at it (R49 item 5):
it then takes the cause, and issues afresh later. -/
def offered (i : Instr) (u : Uses) (s : State) (go : Out) : Out :=
  if (s.core s.cur).hand.isSome ∧ (s.core s.cur).standing = some i then
    match (s.core s.cur).engineCause u with
    | some (e, w) => .next (deliverEngine s s.cur e w)
    | none => .next s
  else go

/-- Completion of the instruction in which core k stands with an offer. -/
def finishOffer (s : State) (k : Nat) (f : Core → Core) : State :=
  let c := s.core k
  { retireQ c.pops { s with cur := k } c.handPoison (fun c => (f c).advance) with cur := s.cur }

/-- A cause taken by the instruction in which core k stands. -/
def raiseOffer (s : State) (k cause : Nat) (detail addr : Word) : State := deliver s k cause detail addr (s.core k).pc

/-! Debug stops (R189, R210, R211). -/

/-- A debug cause at an instruction: a halt with its reason while ARM = 1, else a BREAK trap. -/
def debugStop (s : State) (k reason : Nat) (detail addr : Word) : State :=
  let c := s.core k
  if c.dbg.arm then s.setCore k (c.leave.haltDebug s.ck reason)
  else takeTrap s k 0x09 detail addr c.pc

/-- The watchpoint that an access matches (R209, R211): a load, a store, or both for an atomic. -/
def Core.watch (c : Core) (load store : Bool) (addr : Word) : Option Nat :=
  (List.range 2).find? (fun n =>
    let w := (c.dbg.wa.getD n 0).toNat
    w / 4 == addr.toNat / 4 && ((store && w % 2 == 1) || (load && w / 2 % 2 == 1)))

/-- A watchpoint stops the instruction before its access; TRADDR is the watchpoint's address (R190). -/
def watched (s : State) (load store : Bool) (addr : Word) (go : State → Out) : Out :=
  match (s.core s.cur).watch load store addr with
  | some n => .next (debugStop s s.cur 4 (BitVec.ofNat 32 (2 + 4 * n)) ((s.core s.cur).dbg.wa.getD n 0 &&& 0xFFFFFFFC))
  | none => go s

/-- Translation of an access that takes its causes at itself, with its watchpoint (R109, R189): ACCESS, then the watchpoint, then
every other cause. -/
def accessAt (i : Instr) (s : State) (kind : AccKind) (load store : Bool) (addr : Word) (go : Nat → Bool → State → Out) : Out :=
  match translate s (coreDie s.cur) (s.core s.cur).masid addr.toNat kind with
  | (.bad cause detail, t) =>
    if cause = 0x05 then .next (raiseD t cause (detailOr i cause detail) addr)
    else watched s load store addr fun _ => .next (raiseD t cause (detailOr i cause detail) addr)
  | (.ok pa host, t) => watched s load store addr fun _ => go pa host t

/-! Long-latency producers (R41). -/

/-- A producer issues: its destinations are marked empty and it is outstanding. -/
def Core.produce (c : Core) (a : Access) : Core :=
  let ns := match a.d with
    | .x n => if n.val = 0 then [] else regsFrom n a.nregs
    | .q7 => []
  { c with
    regs := ns.foldl Regs.empty c.regs,
    acc := c.acc ++ [{ a with old := ns.map (fun n => ⟨c.regs.get n, c.regs.isPoison n⟩), asid := c.masid, launch := c.launch }] }

/-- An earlier producer owes a register that the n-th writes (R41). -/
def Core.owed (c : Core) (n : Nat) : Bool :=
  (c.acc[n]?).any (fun a => match a.d with
    | .x m => (regsFrom m a.nregs).any (fun r => (c.acc.take n).any (·.owns r))
    | .q7 => false)

/-- A producer of xn or more writes its values in ascending order and is no longer outstanding. -/
def Core.finish (c : Core) (ck n : Nat) (vs : List Word) (poison : Bool) : Core :=
  match c.acc[n]? with
  | none => c
  | some a =>
    let c := { c with acc := c.acc.eraseIdx n }
    if a.dead then c
    else match a.d with
    | .q7 => c.writeDst ck .q7 (vs.getD 0 0) poison
    | .x m =>
      if m.val = 0 then c
      else { c with regs := ((regsFrom m vs.length).zip vs).foldl (fun r p => r.put p.1 p.2 poison) c.regs }

end Sys2Proof.Machine
end

