-- ==== Sys2Proof/Machine/Flags.lean ====
section
/-!
DEFINITION. Sys2Proof/Machine/Flags.lean: the machine has no flags register; this file holds the comparisons (R112, R128),
integer results (R110 to R120), the counters (R21, R23) and the status flags of engines that BES and BEC test (R23, R135).
-/
namespace Sys2Proof.Machine
open Sys2Proof

/-! Comparisons. -/

def b32 (b : Bool) : Word := if b then 1 else 0
def ltS (a b : Word) : Bool := BitVec.slt a b
def ltU (a b : Word) : Bool := BitVec.ult a b

/-! Integer results. -/

/-- The amount of a shift by register: B[4:0] (R111). -/
def shAmt (b : Word) : Nat := b.toNat % 32
def mulhS (a b : Word) : Word := BitVec.ofInt 32 (a.toInt * b.toInt / 2 ^ 32)
def mulhU (a b : Word) : Word := BitVec.ofNat 32 (a.toNat * b.toNat / 2 ^ 32)
/-- R114: quotient and remainder truncated toward zero, with the values for B = 0. -/
def divS (a b : Word) : Word := if b = 0 then 0xFFFFFFFF else BitVec.ofInt 32 (a.toInt.tdiv b.toInt)
def divU (a b : Word) : Word := if b = 0 then 0xFFFFFFFF else BitVec.ofNat 32 (a.toNat / b.toNat)
def remS (a b : Word) : Word := if b = 0 then a else BitVec.ofInt 32 (a.toInt.tmod b.toInt)
def remU (a b : Word) : Word := if b = 0 then a else BitVec.ofNat 32 (a.toNat % b.toNat)
/-- Zero bits above the highest set bit, 32 for 0 (R115). -/
def clz (a : Word) : Word := BitVec.ofNat 32 (if a = 0 then 32 else 31 - Nat.log2 a.toNat)
/-- Number of set bits (R115). -/
def popCount (a : Word) : Word := BitVec.ofNat 32 ((List.range 32).countP (fun i => a.getLsbD i))
/-- Position, width and mask of a field (R116). -/
def fieldPos (b : Word) : Nat := b.toNat % 32
def fieldMask (b : Word) : Word := BitVec.ofNat 32 ((2 ^ (b.toNat / 32 % 32 + 1) - 1) * 2 ^ fieldPos b)
def bitExtract (a b : Word) : Word := (a &&& fieldMask b) >>> fieldPos b
def bitInsert (d a b : Word) : Word := (d &&& ~~~fieldMask b) ||| ((a <<< fieldPos b) &&& fieldMask b)

/-- Read-modify-write values (R125). -/
def atomicNew (op : AtomicOp) (old b : Word) : Word :=
  match op with
  | .swp => b
  | .add => old + b
  | .and => old &&& b
  | .or => old ||| b
  | .xor => old ^^^ b
  | .min => if ltS b old then b else old
  | .max => if ltS old b then b else old
  | .minn => if ltU b old then b else old
  | .maxn => if ltU old b then b else old

/-- Sign extension of an immediate field. -/
def sext {n : Nat} (v : BitVec n) : Word := v.signExtend 32
def zext {n : Nat} (v : BitVec n) : Word := v.zeroExtend 32

/-! Counters and engine status. -/

def Counters.get (c : Counters) : Counter → Nat
  | .LD => c.LD
  | .ST => c.ST
  | .MX => c.MX
  | .VX => c.VX
  | .CP => c.CP
  | .GL => c.gl
  | .PS => c.PS
  | .RM => c.RM

def engineCounter : Engine → Counter
  | .MX => .MX | .VX => .VX | .CP => .CP | .GL => .GL | .PS => .PS

/-- The engine of a counter, if it is one (R140). -/
def counterEngine : Counter → Option Engine
  | .MX => some .MX | .VX => some .VX | .CP => some .CP | .GL => some .GL | .PS => some .PS | _ => none

def Counters.set (c : Counters) (x : Counter) (n : Nat) : Counters :=
  match x with
  | .LD => { c with LD := n }
  | .ST => { c with ST := n }
  | .MX => { c with MX := n }
  | .VX => { c with VX := n }
  | .CP => { c with CP := n }
  | .GL => { c with gl := n }
  | .PS => { c with PS := n }
  | .RM => { c with RM := n }

/-- An engine's counter rises or falls by a number (R23). -/
def Core.bump (c : Core) (e : Engine) (n : Nat) : Core :=
  { c with cnt := c.cnt.set (engineCounter e) (c.cnt.get (engineCounter e) + n) }
def Core.drop (c : Core) (e : Engine) (n : Nat) : Core :=
  { c with cnt := c.cnt.set (engineCounter e) (c.cnt.get (engineCounter e) - n) }

/-- Every counter is 0 (R143). -/
def Core.idle (c : Core) : Bool :=
  c.cnt.LD == 0 && c.cnt.ST == 0 && c.cnt.MX == 0 && c.cnt.VX == 0 && c.cnt.CP == 0 && c.cnt.gl == 0 && c.cnt.PS == 0 &&
    c.cnt.RM == 0

/-- Matrix commands that push a token (R277). -/
def pushesToken : Instr → Bool
  | .mmul _ _ | .mscac | .mdrn _ _ | .mchk _ _ => true
  | _ => false

/-- Gallery commands that push a q2 result. -/
def isGinj : Instr → Bool
  | .ginj _ _ => true
  | _ => false

/-- Ferry commands that push a q4 result. -/
def pushesQ4 : Instr → Bool
  | .psread _ _ | .psqui _ _ | .psleave _ _ => true
  | _ => false

/-- BUSY (R23): a command issued to the engine and not yet complete. -/
def Core.busy (c : Core) (e : Engine) : Bool := c.cnt.get (engineCounter e) != 0

/-- FAULT (R23). -/
def Core.faulted (c : Core) : Engine → Bool
  | .MX => c.mat.flt.fault
  | .VX => c.vec.flt.fault
  | .CP => c.cpy.flt.fault
  | .GL => c.gal.flt.fault
  | .PS => c.fer.flt.fault

/-- FULL of each engine (R224, R275, R323, R354, R392). -/
def Core.fullQ (c : Core) : Engine → Bool
  | .MX => 8 ≤ c.mat.queue.length ||
      16 ≤ c.regs.q[(0 : Fin 7)].length + c.mat.queue.countP (fun q => pushesToken q.instr && !q.dead)
  | .VX => 16 ≤ c.vec.seq.length
  | .CP => 8 ≤ c.cpy.queue.length || 16 ≤ c.regs.q[(3 : Fin 7)].length + c.cpy.queue.length
  | .GL => 16 ≤ c.gal.queue.length ||
      16 ≤ c.regs.q[(2 : Fin 7)].length + c.gal.slots.length + c.gal.queue.countP (fun q => isGinj q.instr)
  | .PS => 16 ≤ c.fer.queue.length ||
      16 ≤ c.regs.q[(4 : Fin 7)].length + c.fer.queue.countP (fun q => pushesQ4 q.instr && !q.dead)

/-- The flag that BES and BEC sample (R135). -/
def Core.flag (c : Core) (e : Engine) : Flag → Bool
  | .busy => c.busy e
  | .fault => c.faulted e
  | .full => c.fullQ e

end Sys2Proof.Machine
end

