-- ==== Sys2Proof/Machine/Control.lean ====
section
/-!
DEFINITION. Sys2Proof/Machine/Control.lean: branches and jumps (R128 to R130), hardware loops (R131 to R134), branches on
engine status (R135) and ALIGN (R103, R136).
-/
namespace Sys2Proof.Machine
open Sys2Proof

/-- A word offset from the PC (R36). -/
def wordTarget (pc : Word) {n : Nat} (off : BitVec n) : Word := pc + (sext off <<< 2)

/-- A conditional branch (R128). -/
def branch (i : Instr) (a b : Src) (off : BitVec 14) (s : State) (taken : Word → Word → Bool) : Out :=
  let u : Uses := { a, b }
  gate i u s fun v s => .next (retire u s v.poison (fun c =>
    if taken v.a v.b then c.jump s.ck (wordTarget c.pc off) else c.advance))

/-- `BEQ` (R128). -/
def execBeq (a b : Src) (off : BitVec 14) (s : State) : Out := branch (.beq a b off) a b off s (· == ·)
/-- `BNE` (R128). -/
def execBne (a b : Src) (off : BitVec 14) (s : State) : Out := branch (.bne a b off) a b off s (· != ·)
/-- `BLT` (R128). -/
def execBlt (a b : Src) (off : BitVec 14) (s : State) : Out := branch (.blt a b off) a b off s ltS
/-- `BGE` (R128). -/
def execBge (a b : Src) (off : BitVec 14) (s : State) : Out := branch (.bge a b off) a b off s (fun x y => !ltS x y)
/-- `BLTN` (R128). -/
def execBltn (a b : Src) (off : BitVec 14) (s : State) : Out := branch (.bltn a b off) a b off s ltU
/-- `BGEN` (R128). -/
def execBgen (a b : Src) (off : BitVec 14) (s : State) : Out := branch (.bgen a b off) a b off s (fun x y => !ltU x y)

/-- `JAL` (R129). -/
def execJal (d : Dst) (imm : BitVec 21) (s : State) : Out :=
  let u : Uses := { dst := some d }
  gate (.jal d imm) u s fun _ s =>
    .next (retire u (s.updCore s.cur (fun c => c.writeDst s.ck d (c.pc + 4) false)) false (fun c => c.jump s.ck (wordTarget c.pc imm)))

/-- `JALR` (R130): A is read before d is written; a target that is not word-aligned traps. -/
def execJalr (d : Dst) (a : Src) (off : BitVec 15) (s : State) : Out :=
  let u : Uses := { a, dst := d }
  gate (.jalr d a off) u s fun v s =>
    let t := v.a + sext off
    if t.toNat % 4 ≠ 0 then .next (raise (.jalr d a off) s 0x04 t)
    else .next (retire u (s.updCore s.cur (fun c => c.writeDst s.ck d (c.pc + 4) v.poison)) v.poison (fun c => c.jump s.ck t))

/-- A LOOP that skips (count 0) goes to LE: it completes a level that ends there, and ends one whose body it leaves
(R132, R133). -/
def Core.skipLoop (c : Core) (inner : Bool) (le : Word) : Core :=
  let c : Core := if inner then
      (if c.loop0.active && c.loop0.le != le && !c.loop0.inside le then { c with loop0 := { c.loop0 with active := false } } else c)
    else
      (if c.loop1.active && c.loop1.le != le && !c.loop1.inside le then { c with loop1 := { c.loop1 with active := false } } else c)
  c.loopEnd le

/-- `LOOP` (R131). -/
def execLoop (count : Src) (level : Bool) (len : BitVec 18) (s : State) : Out :=
  let u : Uses := { a := count, loop := some level }
  gate (.loop count level len) u s fun v s => .next (retire u s v.poison (fun c =>
    let le := c.pc + 4 + (zext len <<< 2)
    let l : Loop := { lc := v.a, ls := c.pc + 4, le, active := v.a != 0 }
    let c := if level then { c with loop1 := l } else { c with loop0 := l }
    if v.a = 0 then c.skipLoop level le else c.advance))

/-- A branch on an engine's flag, sampled once at issue (R135, R179). -/
def engineBranch (i : Instr) (e : Engine) (f : Flag) (off : BitVec 14) (onSet : Bool) (s : State) : Out :=
  let u : Uses := { engs := [e] }
  gate i u s fun _ s => .next (retire u s false (fun c =>
    if c.flag e f == onSet then c.jump s.ck (wordTarget c.pc off) else c.advance))

/-- `BES` (R135). -/
def execBes (e : Engine) (f : Flag) (off : BitVec 14) (s : State) : Out := engineBranch (.bes e f off) e f off true s
/-- `BEC` (R135). -/
def execBec (e : Engine) (f : Flag) (off : BitVec 14) (s : State) : Out := engineBranch (.bec e f off) e f off false s

/-! ALIGN. -/

/-- Acts as core k, then gives the turn's core back. -/
def atCore (s : State) (k : Nat) (f : State → State) : State :=
  { f { s with cur := k } with cur := s.cur }

/-- Other cores of the cluster that run the same flight of the same launch (R103). -/
def State.flightMates (s : State) (k : Nat) : List Nat :=
  match (s.core k).task with
  | none => []
  | some t => (List.range 8).filterMap (fun i =>
    let j := coreClu k * 8 + i
    if isService k || j == k then none
    else match (s.core j).task with
    | some x => if x.launch == t.launch && x.flight == t.flight then some j else none
    | none => none)

def State.stalled (s : State) (j : Nat) (pc : Word) : Bool :=
  (s.core j).standing == some .align && (s.core j).pc == pc

/-- Why an ALIGN ends (R103): freed with its mates, all mates stalled at the same address or gone, or ALIGNLIM passed. -/
def alignFree (s : State) (k : Nat) : Bool :=
  (s.flightMates k).all (fun j => s.stalled j (s.core k).pc)

def alignDone (s : State) (k : Nat) : Bool :=
  (s.core k).freed || alignFree s k || (s.core k).waitSince + (s.core k).alignlim ≤ s.ck

/-- ALIGN of the current core ends; when all are stalled together, all are freed. -/
def endAlign (s : State) : State :=
  let s := if alignFree s s.cur then
      (s.flightMates s.cur).foldl (fun s j => s.updCore j (fun c => { c with freed := true })) s else s
  retireNext {} s false

/-- `ALIGN` (R103, R136): it changes no value a program sees. -/
def execAlign (s : State) : Out :=
  gate .align {} s fun _ s =>
    let s := stand .align s
    if alignDone s s.cur then .next (endAlign s) else .next s

/-- ALIGN_RELEASE (R103): core k, stalled in ALIGN, goes on when the condition of R103 holds. -/
def execAlignRelease (k : Nat) (s : State) : Out :=
  if (s.core k).standing = some .align ∧ alignDone s k then .next (atCore s k endAlign) else .next s

end Sys2Proof.Machine
end

