-- ==== Sys2Proof/Machine/Memory.lean ====
section
/-!
DEFINITION. Sys2Proof/Machine/Memory.lean: loads, prefetch, stores, atomics and compare-and-swap (R107 to R109, R121 to
R127), with the events that perform them, fail them, or complete them after a page-in (R193).
-/
namespace Sys2Proof.Machine
open Sys2Proof

/-- A access that retires only once its translation is known: destination x0 or q7 (R109). -/
def Dst.waits (d : Dst) : Bool :=
  match d with
  | .q7 => true
  | .x n => n.val == 0

/-- Issues a load, atomic or CAS after the publication that it makes (R126): LD rises, the destination is marked empty, and the
instruction retires (R108, R109). With destination x0 or q7 the translation comes first and its cause is taken at the instruction. -/
def issueAccess (i : Instr) (u : Uses) (v : Vals) (s : State) (kind : AccKind) (pub : Option Scope) (a : Access) : Out :=
  let go (s : State) (pa : Option Nat) : Out :=
    let issue (s : State) : Out := .next (retireNext u (s.updCore s.cur (fun c =>
      let c := c.produce { a with bPoison := v.poison, pc := c.pc, instr := instrWord i, issuedAt := s.ck, pa }
      { c with cnt := { c.cnt with LD := c.cnt.LD + 1 } })) v.poison)
    match pub with
    | some sc => publish i s sc issue
    | none => issue s
  if Dst.waits a.d then accessAt i s kind true (kind == .store) a.addr fun pa _ s => go s (some pa)
  else watched s true (kind == .store) a.addr fun s => go s none

/-- A load (R107, R121). -/
def load (i : Instr) (size : Nat) (signed : Bool) (d : Dst) (a : Src) (off : BitVec 15) (s : State) : Out :=
  let u : Uses := { a, dst := d, moves := true }
  gate i u s fun v s =>
    let addr := v.a + sext off
    if addr.toNat % size ≠ 0 then .next (raise i s 0x04 addr)
    else issueAccess i u v s .load none { op := .load size signed, d, addr }

/-- `LDB` (R121). -/
def execLdb (d : Dst) (a : Src) (off : BitVec 15) (s : State) : Out := load (.ldb d a off) 1 true d a off s
/-- `LDBN` (R121). -/
def execLdbn (d : Dst) (a : Src) (off : BitVec 15) (s : State) : Out := load (.ldbn d a off) 1 false d a off s
/-- `LDH` (R121). -/
def execLdh (d : Dst) (a : Src) (off : BitVec 15) (s : State) : Out := load (.ldh d a off) 2 true d a off s
/-- `LDHN` (R121). -/
def execLdhn (d : Dst) (a : Src) (off : BitVec 15) (s : State) : Out := load (.ldhn d a off) 2 false d a off s
/-- `LDW` (R121). -/
def execLdw (d : Dst) (a : Src) (off : BitVec 15) (s : State) : Out := load (.ldw d a off) 4 false d a off s

/-- `PREF` (R122): the line comes into the core's stash or cache where its address translates, for writing with write intent; it
writes no register, adds no snapshot entry, publishes nothing, counts nowhere, never traps on its address and starts no move. -/
def execPref (w : Bool) (a : Src) (off : BitVec 15) (s : State) : Out :=
  act (.pref w a off) { a } s fun v s =>
    let va := (v.a + sext off).toNat
    match translate s (coreDie s.cur) (s.core s.cur).masid va (if w then .store else .load) with
    | (.ok pa _, t) => if s.ms.owned (pa / 64) then s else t.updCore s.cur (·.touch va pa)
    | (.bad _ _, _) => s

/-- A store (R107, R109, R123, R124): its causes are taken at itself, before the phase buffer changes. -/
def store (i : Instr) (size : Nat) (remote : Bool) (a b : Src) (off : BitVec 14) (s : State) : Out :=
  let u : Uses := { a, b, moves := true }
  gate i u s fun v s =>
    let addr := v.a + sext off
    if addr.toNat % size ≠ 0 then .next (raise i s 0x04 addr)
    else accessAt i s .store false true addr fun pa host s =>
      if s.ms.owned (pa / 64) then .next (stand i s)
      else .next (retireNext u (s.updCore s.cur (fun c =>
        let c := c.buffer addr.toNat pa host ((wordBytes v.b).take size) remote v.poison s.ck
        if remote then c else c.touch addr.toNat pa)) v.poison)

/-- `STB` (R123). -/
def execStb (a b : Src) (off : BitVec 14) (s : State) : Out := store (.stb a b off) 1 false a b off s
/-- `STH` (R123). -/
def execSth (a b : Src) (off : BitVec 14) (s : State) : Out := store (.sth a b off) 2 false a b off s
/-- `STW` (R123). -/
def execStw (a b : Src) (off : BitVec 14) (s : State) : Out := store (.stw a b off) 4 false a b off s
/-- `RSTW` (R124). -/
def execRstw (a b : Src) (off : BitVec 14) (s : State) : Out := store (.rstw a b off) 4 true a b off s

/-! Atomics. -/

def Order.releases : Order → Bool
  | .rel | .ar => true
  | _ => false
def Order.acquires : Order → Bool
  | .acq | .ar => true
  | _ => false

/-- The phase buffer holds an entry that covers a byte of the word (R126). -/
def Core.buffered (c : Core) (va : Nat) : Bool :=
  c.buf.any (fun e => (List.range 4).any (fun i => e.covers c.masid (va + i)))

/-- Issues an atomic or CAS: alignment, then the publication of R126 at its place, then the access. -/
def issueAtomic (i : Instr) (u : Uses) (rel : Bool) (sc : Scope) (s : State) (mk : Vals → Access) : Out :=
  gate i u s fun v s =>
    let a := mk v
    if a.addr.toNat % 4 ≠ 0 then .next (raise i s 0x04 a.addr)
    else issueAccess i u v s .store (if rel || (s.core s.cur).buffered a.addr.toNat then some sc else none) a

def atomic (i : Instr) (op : AtomicOp) (d : Dst) (a b : Src) (o : Order) (sc : Scope) (s : State) : Out :=
  issueAtomic i { a, b, dst := d, moves := true } (Order.releases o) sc s
    fun v => { op := .atomic op o sc, d, addr := v.a, b := v.b }

/-- `SWP` (R125, R126). -/
def execSwp (d : Dst) (a b : Src) (o : Order) (sc : Scope) (s : State) : Out := atomic (.swp d a b o sc) .swp d a b o sc s
/-- `AADD` (R125, R126). -/
def execAadd (d : Dst) (a b : Src) (o : Order) (sc : Scope) (s : State) : Out := atomic (.aadd d a b o sc) .add d a b o sc s
/-- `AAND` (R125, R126). -/
def execAand (d : Dst) (a b : Src) (o : Order) (sc : Scope) (s : State) : Out := atomic (.aand d a b o sc) .and d a b o sc s
/-- `AOR` (R125, R126). -/
def execAor (d : Dst) (a b : Src) (o : Order) (sc : Scope) (s : State) : Out := atomic (.aor d a b o sc) .or d a b o sc s
/-- `AXOR` (R125, R126). -/
def execAxor (d : Dst) (a b : Src) (o : Order) (sc : Scope) (s : State) : Out := atomic (.axor d a b o sc) .xor d a b o sc s
/-- `AMIN` (R125, R126). -/
def execAmin (d : Dst) (a b : Src) (o : Order) (sc : Scope) (s : State) : Out := atomic (.amin d a b o sc) .min d a b o sc s
/-- `AMAX` (R125, R126). -/
def execAmax (d : Dst) (a b : Src) (o : Order) (sc : Scope) (s : State) : Out := atomic (.amax d a b o sc) .max d a b o sc s
/-- `AMINN` (R125, R126). -/
def execAminn (d : Dst) (a b : Src) (o : Order) (sc : Scope) (s : State) : Out :=
  atomic (.aminn d a b o sc) .minn d a b o sc s
/-- `AMAXN` (R125, R126). -/
def execAmaxn (d : Dst) (a b : Src) (o : Order) (sc : Scope) (s : State) : Out :=
  atomic (.amaxn d a b o sc) .maxn d a b o sc s

/-- `CAS` (R127): d is read as the expected value. -/
def execCas (d : XReg) (a b : Src) (so : Order) (fo : AcqOrder) (sc : Scope) (s : State) : Out :=
  issueAtomic (.cas d a b so fo sc) { a, b, ds := [d], dst := some (.x d), moves := true } (Order.releases so) sc s
    fun v => { op := .cas so fo sc, d := .x d, addr := v.a, b := v.b, expected := v.ds.getD 0 0 }

/-- What an atomic, CAS or ARRIVE appends for an old value, and whether it acquires (R126, R127, R141). -/
def atomicEffect (op : AccOp) (old b expected : Word) : Option Word × Scope × Bool :=
  match op with
  | .atomic op o sc => (some (atomicNew op old b), sc, Order.acquires o)
  | .cas so fo sc =>
    if old = expected then (some b, sc, Order.acquires so) else (none, sc, fo == .acq)
  | .arrive sc => (some (old + 1), sc, false)
  | _ => (none, .K, false)

/-- The atomic move (R126, R127, R172): drained, its line not owned; read and append are one. The old value, whether it is
poisoned or read by a poisoned operand (R194), and the state; none while it must wait. -/
def performAtomic (s : State) (k : Nat) (a : Access) (pa : Nat) : Option (Word × Bool × State) :=
  if !(s.core k).out.isEmpty || s.ms.owned (pa / 64) then none
  else
    let old := wordOf (s.ms.bytesAt (.core k) pa 4)
    let poison := s.linePoison (pa / 64) || a.bPoison
    let lost := s.lineLost (pa / 64)
    let e := atomicEffect a.op old a.b a.expected
    let s := match e.1 with
      | some v => s.updMs (fun m =>
          let m := m.put ((List.range 4).map (fun i => (pa + i, (wordBytes v).getD i 0))) e.2.1 (.core k) a.launch
          if poison then m.poisonLine (pa / 64) else m)
      | none => s
    let s := s.updCore k (fun c =>
      ({ c with snap := c.snap.filter (fun l => l.line != a.addr.toNat / 64) } : Core).touch a.addr.toNat pa)
    let s := if lost then pendImp s k 0x73 a.pc a.addr else s
    if e.2.2 && !a.dead then (performReads s k).map (fun s => (old, poison, s.updCore k (fun c => c.acquire s.ck)))
    else some (old, poison, s)

/-! Completion events. -/

/-- A load, atomic or CAS writes its destination and LD falls; for ARRIVE, ST falls (R141). -/
def completeAccess (s : State) (k n : Nat) (v : Word) (poison : Bool) : State :=
  s.updCore k (fun c =>
    let arrives := match c.acc[n]? with
      | some a => (match a.op with
        | .arrive _ => true
        | _ => false)
      | none => false
    let c := c.finish s.ck n [v] poison
    { c with cnt := if arrives then { c.cnt with ST := c.cnt.ST - 1 } else { c.cnt with LD := c.cnt.LD - 1 } })

/-- The move of the n-th producer, if it can be made: translation, then read or atomic. Left: the cause; right: value and
poison. -/
def performAccess (s : State) (k : Nat) (a : Access) : Option ((Nat × Word) ⊕ (Word × Bool)) × State :=
  match a.op with
  | .load size signed =>
    if a.dead then (some (.inr (0, false)), s) else
    match performLoad s k a size signed with
    | none => (none, s)
    | some (.recorded cause _ detail, t) => (some (.inl (cause, detail)), t)
    | some (.got v p, t) => (some (.inr (v, p)), t)
    | some (_, t) => (none, t)
  | .atomic _ _ _ | .cas _ _ _ | .arrive _ =>
    let tr := match a.pa with
      | some pa => (Tr.ok pa false, s)
      | none => translate s (coreDie k) a.asid a.addr.toNat .store
    match tr with
    | (.bad cause detail, t) => (some (.inl (cause, detail)), t)
    | (.ok pa _, t) =>
      match performAtomic t k a pa with
      | none => (none, s)
      | some (v, p, t) => (some (.inr (v, p)), t)
  | _ => (none, s)

/-- LOAD_COMPLETE (R108, R121, R126, R127): the n-th producer of core k makes its move and writes its destination; `dest`
chooses among the places that can answer (R215). A result of an engine that an earlier producer of its register kept back is written once
that one has ended (R297). -/
def execLoadComplete (k n dest : Nat) (s : State) : Out :=
  match (s.core k).acc[n]? with
  | none => .next s
  | some a =>
    let done (s : State) (v : Word) (p : Bool) : State :=
      (completeAccess s k n v p).latency k a.asid a.addr.toNat a.issuedAt dest
    match a.st with
    | .got v p =>
      match a.op with
      | .engine _ => .next (if (s.core k).owed n then s else s.updCore k (·.finish s.ck n [v] p))
      | _ => .next (done s v p)
    | .issued =>
      match performAccess s k a with
      | (some (.inr (v, p)), t) => .next (done t v p)
      | _ => .next s
    | _ => .next s

/-- LOAD_TRANSLATION_FAULT (R109): the n-th producer's translation fails; the cause is recorded with its register and LD
falls. A dead access ends. -/
def execLoadTranslationFault (k n : Nat) (s : State) : Out :=
  match (s.core k).acc[n]? with
  | none => .next s
  | some a =>
    match a.st with
    | .issued =>
      match performAccess s k a with
      | (some (.inl (cause, detail)), t) =>
        if a.dead then .next (completeAccess t k n 0 false) else .next (putAcc t k n (.recorded cause a.addr detail))
      | _ => .next s
    | _ => .next s

/-- A page-in notice (R384). -/
def notice (kind status reg detail : Nat) : PWord :=
  ⟨BitVec.ofNat 32 (kind * 2 ^ 28 + status * 2 ^ 24 + reg * 2 ^ 16 + detail), false⟩

def dstNum : Dst → Nat
  | .x n => n.val
  | .q7 => 0

/-- A promotion or demotion of the page is under way (R383). -/
def MemSys.moving (m : MemSys) (asid page : Nat) : Bool :=
  m.moves.any (fun x => x.asid == asid && x.page ≤ page && page ≤ x.page + x.run)

/-- The page at which a rearmed access waits. -/
def Access.heldPage (a : Access) : Option Nat :=
  match a.st with
  | .rearmed _ _ va => some (va / 65536)
  | _ => none

/-- A rearmed access that walks again meets a cause (R193, R384). A page that is still absent leaves it waiting; a receive that finds
another page of its destination absent records the cause of that page. -/
def rearmedCause (s : State) (k n : Nat) (a : Access) (va cause : Nat) (detail : Word) : State :=
  if cause = 0x10 then
    putAcc s k n (if a.heldPage = some (va / 65536) then .rearmed 0x10 false va else .recorded 0x10 (BitVec.ofNat 32 va) detail)
  else if cause = 0x11 then putAcc s k n (.rearmed 0x11 true va)
  else
    (putAcc s k n (.recorded cause (BitVec.ofNat 32 va) detail)).updCore k
      (·.push 5 (notice 1 (if cause = 0x62 then 2 else 1) (dstNum a.d) (va / 65536)))

/-- REARMED_ACCESS_COMPLETE for a load, atomic or CAS (R193): it walks again, makes its move without publishing again,
writes its register, then posts the notice in q5. -/
def rearmedLoad (k n : Nat) (a : Access) (cause : Nat) (ready : Bool) (s : State) : State :=
  if !ready || (cause == 0x11 && s.ms.moving a.asid (a.addr.toNat / 65536)) then s
  else match performAccess s k a with
  | (none, _) => s
  | (some (.inl (c', detail)), t) => rearmedCause t k n a a.addr.toNat c' detail
  | (some (.inr (v, p)), t) =>
    ((completeAccess t k n v p).latencyAny k a.asid a.addr.toNat a.issuedAt).updCore k
      (·.push 5 (notice 1 (if p then 3 else 0) (dstNum a.d) (a.addr.toNat / 65536)))

end Sys2Proof.Machine
end

