-- ==== Sys2Proof/Machine/Sync.lean ====
section
/-!
DEFINITION. Sys2Proof/Machine/Sync.lean: phases, counters, barriers, steps, the error fence and instruction-cache
synchronisation (R139 to R144, R173), with their events, and the landing of outbound queues (R168).
-/
namespace Sys2Proof.Machine
open Sys2Proof

def allEngines : List Engine := [.MX, .VX, .CP, .GL, .PS]

/-- `PHASE` (R139). -/
def execPhase (o : PhaseOrder) (sc : Scope) (s : State) : Out :=
  let i : Instr := .phase o sc
  let u : Uses := { moves := true }
  gate i u s fun _ s =>
    match o with
    | .rel => publish i s sc fun s => .next (retireNext u s false)
    | .acq => acquireAt i s fun s => .next (retireNext u s false)
    | .ar => publish i s sc fun s => acquireAt i s fun s => .next (retireNext u s false)
    | .sc =>
      match (performReads s s.cur).bind (fun s => syncPoint s s.cur sc) with
      | some s => .next (retireNext u s false)
      | none => .next (stand i s)

/-- `WAITC` (R140): on an engine's counter it ends with Acquire(). -/
def execWaitc (c : Counter) (a : Src) (s : State) : Out :=
  let i : Instr := .waitc c a
  let u : Uses := { a, engs := (counterEngine c).toList, moves := (counterEngine c).isSome }
  gate i u s fun v s =>
    if (s.core s.cur).cnt.get c ≤ v.a.toNat then
      if (counterEngine c).isSome then acquireAt i s fun s => .next (retireNext u s v.poison)
      else .next (retireNext u s v.poison)
    else .next (stand i s)

/-- `ARRIVE` (R141): it retires once its address is translated; its append follows in program order and drained. -/
def execArrive (o : RelOrder) (sc : Scope) (a : Src) (s : State) : Out :=
  let i : Instr := .arrive o sc a
  let u : Uses := { a, moves := true }
  gate i u s fun v s =>
    if v.a.toNat % 4 ≠ 0 then .next (raise i s 0x04 v.a)
    else accessAt i s .store true true v.a fun pa _ s =>
      let go (s : State) : Out := .next (retireNext u (s.updCore s.cur (fun c =>
        let c := c.produce {
          op := .arrive sc, d := .x 0, addr := v.a, bPoison := v.poison, pc := c.pc, instr := instrWord i,
          issuedAt := s.ck, pa := some pa }
        { c with cnt := { c.cnt with ST := c.cnt.ST + 1 } })) v.poison)
      if o = .rel then publish i s sc go else go s

/-- `AWAIT` (R141): one test; the core stands at it until a test succeeds. -/
def execAwait (o : AcqOrder) (sc : Scope) (a b : Src) (s : State) : Out :=
  let i : Instr := .await o sc a b
  let u : Uses := { a, b, moves := true }
  gate i u s fun v s =>
    if v.a.toNat % 4 ≠ 0 then .next (raise i s 0x04 v.a)
    else accessAt i s .load true false v.a fun pa _ s =>
      if s.ms.owned (pa / 64) then .next (stand i s)
      else
        let x := wordOf (s.ms.bytesAt (.core s.cur) pa 4)
        if (x - v.b).toNat < 2 ^ 31 then
          let lost := s.lineLost (pa / 64)
          let done (s : State) : Out :=
            let s := s.updCore s.cur (fun c => { c with snap := c.snap.filter (fun l => l.line != v.a.toNat / 64) })
            let s := if lost then pendImp s s.cur 0x73 (s.core s.cur).pc v.a else s
            .next (retireNext u s v.poison)
          if o = .acq then acquireAt i s done else done s
        else .next (stand i s)

/-- Gives an outcome at core k, and the turn's core back. -/
def atCoreOut (s : State) (k : Nat) (f : State → Out) : Out :=
  match f { s with cur := k } with
  | .next t => .next { t with cur := s.cur }
  | .fault x => .fault x
  | .refused r => .refused r

/-- AWAIT_TEST (R141, R172): one more test of the AWAIT in which core k stands. -/
def execAwaitTest (k : Nat) (s : State) : Out :=
  match (s.core k).standing with
  | some (.await o sc a b) => atCoreOut s k (execAwait o sc a b)
  | _ => .next s

/-! Package steps. -/

/-- Generations not yet opened by their predecessors' last arrival take the arrival in turn (R142): the first that is not full, or a
new one, whose count n fixes. -/
def arriveIn (n : Nat) : List (Nat × Nat) → List (Nat × Nat) × Nat
  | [] => ([(n, 1)], 0)
  | (m, a) :: r => if a < m then ((m, a + 1) :: r, 0) else let t := arriveIn n r; ((m, a) :: t.1, t.2 + 1)

/-- An arrival with count n: the launch after it, and the generation it counts in (R142). The arrival that completes a generation
opens the next. -/
def Launch.arrive (l : Launch) (n : Nat) : Launch × Nat :=
  if l.arrivals < l.genN.getD n then ({ l with genN := some (l.genN.getD n), arrivals := l.arrivals + 1 }, l.gen)
  else let t := arriveIn n l.later; ({ l with later := t.1 }, l.gen + 1 + t.2)

/-- `SSTEP` (R142): it counts its arrival once, then waits until its generation completes. A core without a task takes a
SyncPoint(P) of its own (log 21). -/
def execSstep (a : Src) (s : State) : Out :=
  let i : Instr := .sstep a
  let u : Uses := { a, moves := true }
  gate i u s fun v s =>
    let k := s.cur
    let c := s.core k
    match c.launch.bind (tfind s.launches) with
    | none =>
      match (performReads s k).bind (fun s => syncPoint s k .P) with
      | some s => .next (retireNext u s v.poison)
      | none => .next (stand i s)
    | some l =>
      match c.arrived with
      | none =>
        let r := l.arrive (if v.a = 0 then 1 else min v.a.toNat 1024)
        let s := s.updLaunch (c.launch.getD 0) (fun _ => r.1)
        .next (stand i (s.updCore k (fun c => { c with arrived := some r.2 })))
      | some g =>
        if g < l.gen then .next (retireNext u (s.updCore k (fun c => { c with arrived := none })) v.poison)
        else .next (stand i s)

/-- Cores that take part in a launch's current generation (R142). -/
def State.participants (s : State) (l : Nat) (gen : Nat) : List Nat :=
  (s.cores.filter (fun c => c.2.launch == some l && c.2.arrived == some gen)).map (·.1)

/-- Cores in turn; none as soon as one cannot go on. -/
def eachCore (f : State → Nat → Option State) : State → List Nat → Option State
  | s, [] => some s
  | s, k :: r => (f s k).bind (fun s => eachCore f s r)

/-- A saved task's phase buffer and outbound queue take part in a SyncPoint(P) (R202). -/
def landSaved (s : State) (image : Nat) (x : Saved) : Option State :=
  let c := x.ctx.seal .P
  (landContext (c.out.length + 1) s x.core c).map (fun r =>
    { r.1 with saved := tset r.1.saved image { x with ctx := { r.2 with snap := [] } } })

/-- STEP_GENERATION_COMPLETE (R142, R173): the participants, saved ones too, take one shared SyncPoint(P). -/
def execStepGenerationComplete (l : Nat) (s : State) : Out :=
  match tfind s.launches l with
  | none => .next s
  | some x =>
    if x.genN.getD 0 = 0 ∨ x.arrivals < x.genN.getD 0 then .next s
    else
      let ks := s.participants l x.gen
      let sv := s.saved.filter (fun p => p.2.ctx.launch == some l && p.2.ctx.arrived == some x.gen)
      let r := (eachCore performReads s ks).bind fun s =>
        (eachCore (fun s k =>
          landAll (((s.core k).seal .P).out.length + 1) (s.updCore k (·.seal .P)) k) s ks).bind fun s =>
        sv.foldl (fun (s : Option State) p => s.bind (fun s => landSaved s p.1 p.2)) (some s)
      match r with
      | none => .next s
      | some s =>
        let s := ks.foldl (fun s k => s.updCore k (fun c => c.acquire s.ck)) s
        .next (s.updLaunch l (fun x => { x with
          gen := x.gen + 1, genN := x.later.head?.map (·.1), arrivals := (x.later.head?.map (·.2)).getD 0, later := x.later.drop 1 }))

/-! Fences. -/

/-- `EFENCE` (R143): every counter 0, then a pending imprecise error is taken at it, at any level: none that an earlier instruction
caused is delivered after it. -/
def execEfence (s : State) : Out :=
  let i : Instr := .efence
  let u : Uses := { engs := allEngines }
  gate i u s fun _ s =>
    let c := s.core s.cur
    if !c.idle then .next (stand i s)
    else if !c.tr.imp.isEmpty then .next (deliverImp s s.cur)
    else .next (retireNext u s false)

/-- A 64-byte line overlaps [A, A + B), modulo 2^32; B = 0 names every line (R144). -/
def overlaps (line : Nat) (a b : Word) : Bool :=
  b == 0 || (BitVec.ofNat 32 (line * 64) - a).toNat < b.toNat || (a - BitVec.ofNat 32 (line * 64)).toNat < 64

/-- `ICSYNC` (R144): Publish(P), ST and RM at 0, then the cluster's lines and the core's fetch buffer go. -/
def execIcsync (a b : Src) (s : State) : Out :=
  let i : Instr := .icsync a b
  let u : Uses := { a, b, moves := true }
  gate i u s fun v s => publish i s .P fun s => drain i s fun s =>
    let c := s.core s.cur
    if c.cnt.ST ≠ 0 ∨ c.cnt.RM ≠ 0 then .next (stand i s)
    else
      let s := s.updCluster (coreClu s.cur) (fun x =>
        { x with icache := x.icache.filter (fun l => !overlaps l.2.1 v.a v.b) })
      .next (retireNext u (s.updCore s.cur (fun c => { c with fbuf := [] })) v.poison)

/-- LAND (R168, R172, R202): one landing of core k's outbound queue, those of the contexts saved on it first. -/
def execLand (k : Nat) (s : State) : Out :=
  match s.saved.find? (fun x => x.2.core == k && !x.2.ctx.out.isEmpty) with
  | some (i, x) =>
    match landItem s k x.ctx with
    | some (s, c) => .next (({ s with saved := tset s.saved i { x with ctx := c } } : State).landed k x.ctx.out.head?)
    | none => .next s
  | none =>
    match landOne s k with
    | some s => .next s
    | none => .next s

end Sys2Proof.Machine
end

