-- ==== Sys2Proof/Machine/Message.lean ====
section
/-!
DEFINITION. Sys2Proof/Machine/Message.lean: messages between ranks (R145 to R148, R180, R181, R388, R389), sends to other
packages over the quay fabric (R407, R408), with their events.
-/
namespace Sys2Proof.Machine
open Sys2Proof

/-! Ranks. -/

/-- The entry of a rank in a partition's table, read at P (R389): none when it is invalid, beyond the table or unreadable. -/
def rankEntry (s : State) (die p rank : Nat) : Option Word × State :=
  let part := s.part p
  if 2 ^ part.ranklog ≤ rank then (none, s)
  else match translate s die part.netasid ((part.rankbase.toNat + 4 * rank) % 2 ^ 32) .load with
  | (.ok pa _, s) =>
    let w := wordOf (s.ms.bytesAt .walker pa 4)
    (if w.toNat / 2 ^ 31 = 1 then some w else none, s)
  | (.bad _ _, s) => (none, s)

/-- A rank resolved by a core's network interface, which caches 4,096 entries (R389; a full one keeps what it holds, log 70): the
entry's word. -/
def resolve (s : State) (k rank : Nat) : Option Word × State :=
  match tfind (s.core k).rankCache rank with
  | some w => (if w.toNat / 2 ^ 31 = 1 then some w else none, s)
  | none =>
    match rankEntry s (coreDie k) (s.corePart k) rank with
    | (some w, s) => (some w, s.updCore k (fun c => if c.rankCache.length < 4096 then { c with rankCache := tset c.rankCache rank w } else c))
    | (none, s) => (none, s)

def entryPkg (w : Word) : Nat := w.toNat / 2 ^ 10 % 2 ^ 16
def entryCore (w : Word) : Nat := w.toNat % 2 ^ 10

/-- A package reached over the quay fabric is lost (R411). -/
def State.peerLost (s : State) (p : Nat) : Bool := (tget s.peers {} p).lost

/-! Berths (R181). -/

/-- Slots of a message's payload: none for a register message. -/
def Msg.payloadSlots (m : Msg) : Nat := (m.bulk.length + 63) / 64

def Msg.channel (m : Msg) : Nat := (m.words.getD 8 0).toNat / 2 ^ 24 % 16
def Msg.count (m : Msg) : Nat := (m.words.getD 8 0).toNat / 2 ^ 28

/-- Payload slots of the messages that stand in a core's receive queues. -/
def Core.queuedSlots (c : Core) : Nat := (c.recvq.map (fun q => (q.2.map Msg.payloadSlots).sum)).sum

/-- Free slots of a rank's berth; `c` is the core that carries the rank, if one does. -/
def Berth.free (b : Berth) (c : Option Core) : Nat :=
  2 ^ b.log / 64 - (b.msgs.map (fun m => 1 + m.payloadSlots)).sum - (match c with
    | some c => c.queuedSlots
    | none => 0)

/-- The core that carries a rank of a partition. -/
def State.rankCore (s : State) (p rank : Nat) : Option Nat :=
  (s.cores.find? (fun c => c.2.rank == some rank && s.corePart c.1 == p)).map (·.1)

/-- The receiver's interface takes or refuses a message (R180, R205): queue, else berth, else none. -/
def acceptMsg (s : State) (p rank : Nat) (m : Msg) : Option State :=
  let b := tget (s.part p).berths {} rank
  let ch := m.channel
  let toBerth (free : Nat) : Option State :=
    if 1 + m.payloadSlots ≤ free then
      some (s.updPart p (fun x => { x with berths := tset x.berths rank { b with msgs := b.msgs ++ [m] } }))
    else none
  match s.rankCore p rank with
  | none => toBerth (b.free none)
  | some r =>
    let c := s.core r
    let free := b.free (some c)
    if (tget c.recvq [] ch).length < 32 ∧ !b.msgs.any (fun x => x.channel == ch) ∧ m.payloadSlots ≤ free then
      some (s.setCore r { c with recvq := tset c.recvq ch (tget c.recvq [] ch ++ [m]), woken := true })
    else toBerth free

/-! Sends. -/

/-- The message of R145. -/
def mkMsg (words : List Word) (count ch rank : Nat) (bulk : List Byte) (poison : Bool) : Msg :=
  { words := (words ++ List.replicate 8 0).take 8 ++
      [BitVec.ofNat 32 (count * 2 ^ 28 + ch * 2 ^ 24 + rank), BitVec.ofNat 32 bulk.length] ++ List.replicate 6 0,
    bulk, poison }

/-- What the first check of a send settles (R147): the channel, the rank and its entry, or none for CHANNEL. -/
def sendTarget (s : State) (k : Nat) (a : Word) : Option (Nat × Nat × Word) × State :=
  if a.toNat / 2 ^ 28 ≠ 0 ∨ (s.core k).rank = none then (none, s)
  else
    match resolve s k (a.toNat % 2 ^ 24) with
    | (none, s) => (none, s)
    | (some w, s) =>
      if entryPkg w = s.pkg then
        (if (s.core (entryCore w)).fenced then none else some (a.toNat / 2 ^ 24 % 16, a.toNat % 2 ^ 24, w), s)
      else (if s.peerLost (entryPkg w) then none else some (a.toNat / 2 ^ 24 % 16, a.toNat % 2 ^ 24, w), s)

/-- Smallest scope that covers sender and receiver, P for another package (R147). -/
def sendScope (s : State) (k : Nat) (w : Word) : Scope :=
  if entryPkg w = s.pkg then narrowest (.core k) (.core (entryCore w)) else .P

/-- A send goes on after its checks: one of a fenced core's handler is discarded (R198). -/
def sendFrom (u : Uses) (s : State) (poison : Bool) (go : Out) : Out :=
  if (s.core s.cur).fenced then .next (retireNext u s poison) else go

/-- `SEND` (R147): checks, Publish at the smallest scope, then the message is offered. -/
def execSend (a : Src) (b : XReg) (eb : Bool) (n : BitVec 5) (s : State) : Out :=
  let i : Instr := .send a b eb n
  let u : Uses := { a, bs := (regsFrom b n.toNat).map (fun r => ⟨.x r, eb⟩), moves := true }
  offered i u s <| gate i u s fun v s =>
    match sendTarget s s.cur v.a with
    | (none, s) => .next (raiseD s 0x0A v.a 0)
    | (some (ch, rank, w), s) => sendFrom u s v.poison <| publish i s (sendScope s s.cur w) fun s =>
      offer i u v.poison (.msg rank ch (mkMsg v.bs n.toNat ch ((s.core s.cur).rank.getD 0) [] v.poison)) s

/-- Reads bytes by the core's read move at translated addresses, for the instruction at `pc`; none while a line is owned. -/
def readBytes (s : State) (k : Nat) (pc : Word) (va : Nat) (pas : List Nat) : Option (List Byte × Bool × State) :=
  if pas.any (fun p => s.ms.owned (p / 64)) then none
  else some (readMove s k pc ((vaRange va pas.length).zip pas))

/-- `SENDB` (R147): the source's causes come before any effect (R192); the payload is read by the read move. -/
def execSendb (a : Src) (b : XReg) (eb : Bool) (s : State) : Out :=
  let i : Instr := .sendb a b eb
  let u : Uses := { a, b := some ⟨.x b, eb⟩, ds := (regsFrom b 2).drop 1, moves := true }
  offered i u s <| gate i u s fun v s =>
    let k := s.cur
    let n := min (v.ds.getD 0 0).toNat 65536 / 4 * 4
    match sendTarget s k v.a with
    | (none, s) => .next (raiseD s 0x0A v.a 0)
    | (some (ch, rank, w), s) =>
      if v.b.toNat % 4 ≠ 0 then .next (raise i s 0x04 v.b)
      else match translateRun s (coreDie k) (s.core k).masid .load (vaRange v.b.toNat n) [] with
      | (.inr (cause, detail, va), s) => .next (raiseD s cause (detailOr i cause detail) (BitVec.ofNat 32 va))
      | (.inl pas, s) => sendFrom u s v.poison <| publish i s (sendScope s k w) fun s =>
        match readBytes s k (s.core k).pc v.b.toNat pas with
        | none => .next (stand i s)
        | some (bs, p, s) =>
          offer i u v.poison
            (.msg rank ch (mkMsg (wordsOf 8 (bs.take 32 ++ List.replicate 32 0)) 0 ch ((s.core k).rank.getD 0) bs (v.poison || p))) s

/-- The channel operand of the send in which a core stands. -/
def handOperand (rank ch : Nat) : Word := BitVec.ofNat 32 (ch * 2 ^ 24 + rank)

/-- A packet for another package: the next sequence number (R407, R408); none while 4,096 are unacknowledged, or in viral
state (R412). -/
def sendPacket (s : State) (dest : Nat) (body : PacketBody) : Option (Nat × State) :=
  let p := tget s.peers {} dest
  if s.viral ∨ 4096 ≤ p.unacked.length then none
  else
    let pk : Packet := ⟨s.pkg, p.nextSeq, body⟩
    let p' : Peer := { p with
      nextSeq := (p.nextSeq + 1) % 2 ^ 32, unacked := p.unacked ++ [(pk, s.ck)],
      lastAck := if p.unacked.isEmpty then s.ck else p.lastAck }
    some (p.nextSeq, { s with peers := tset s.peers dest p' })

/-- MESSAGE_ARRIVAL (R180): the message that core k offers, after its drain, reaches the receiver's interface, which takes
it or refuses it with BERTH_FULL. To another package it leaves as a packet, and the end-to-end answer completes it. -/
def execMessageArrival (k : Nat) (s : State) : Out :=
  let c := s.core k
  match c.hand with
  | some (.msg rank ch m) =>
    if !c.out.isEmpty then .next s
    else match resolve s k rank with
    | (none, s) => .next (raiseOffer s k 0x0A (handOperand rank ch) 0)
    | (some w, s) =>
      if entryPkg w = s.pkg then
        if (s.core (entryCore w)).fenced then .next (raiseOffer s k 0x0A (handOperand rank ch) 0)
        else match acceptMsg s (s.corePart k) rank m with
        | some s => .next (finishOffer s k id)
        | none => .next (raiseOffer s k 0x0B (handOperand rank ch) 0)
      else if s.peerLost (entryPkg w) then .next (raiseOffer s k 0x0A (handOperand rank ch) 0)
      else match sendPacket s (entryPkg w) (.message (entryCore w) rank m.words m.bulk) with
      | none => .next s
      | some (seq, s) => .next (s.updCore k (fun c => { c with hand := some (.sent (entryPkg w) seq rank ch) }))
  | _ => .next s

/-! Receives. -/

/-- An earlier receive of the channel is outstanding (R148: messages are taken in issue order). -/
def Core.receiving (c : Core) (ch : Nat) : Bool :=
  c.acc.any (fun a => !a.dead && match a.op with
    | .recv x | .recvb x => x == ch
    | _ => false)

/-- `RECV` (R148): d to Min(d + 7, 23) are marked empty. -/
def execRecv (d : XReg) (a : Src) (s : State) : Out :=
  let i : Instr := .recv d a
  let u : Uses := { a, dst := some (.x d), nregs := 8, moves := true }
  gate i u s fun v s =>
    let ch := v.a.toNat / 2 ^ 24 % 16
    if v.a.toNat / 2 ^ 28 ≠ 0 then .next (raiseD s 0x0A v.a 0)
    else if (s.core s.cur).receiving ch then .next (stand i s)
    else .next (retireNext u (s.updCore s.cur (fun c => c.produce {
      op := .recv ch, d := .x d, nregs := 8, addr := v.a, bPoison := v.poison, pc := c.pc, instr := instrWord i,
      issuedAt := s.ck })) v.poison)

/-- Payload bytes of a message for RECVB (R148). -/
def Msg.payload (m : Msg) : List Byte :=
  if m.count = 0 then m.bulk else ((m.words.take m.count).map wordBytes).flatten

/-- The head of a channel's queue leaves it. -/
def Core.dropMsg (c : Core) (ch : Nat) : Core := { c with recvq := tset c.recvq ch ((tget c.recvq [] ch).drop 1) }

/-- The stores of a payload enter the phase buffer, word by word (R148). -/
def Core.storeWords (c : Core) (ck va : Nat) (poison : Bool) : List (Nat × Bool) → List Byte → Core
  | (pa, host) :: r, bs =>
    ((c.buffer va pa host (bs.take 4) false poison ck).touch va pa).storeWords ck ((va + 4) % 2 ^ 32) poison r (bs.drop 4)
  | [], _ => c

/-- Translation of each word of a range for a store: addresses with their host flag, or the first cause. -/
def translateWords (s : State) (die asid : Nat) : List Nat → List (Nat × Bool) → (List (Nat × Bool) ⊕ (Nat × Word × Nat)) × State
  | [], acc => (.inl acc.reverse, s)
  | va :: r, acc =>
    match translate s die asid va .store with
    | (.ok pa h, s) => translateWords s die asid r ((pa, h) :: acc)
    | (.bad c d, s) => (.inr (c, d, va), s)

/-- What a RECVB's taking of its message gives: nothing yet, a cause with its address, or the byte count. -/
inductive Taken where
  | wait | cause (cause : Nat) (detail : Word) (va : Nat) (s : State) | took (n : Word) (poison : Bool) (s : State)

/-- A RECVB takes the message at the head of its channel (R148): pages first, then acquire and stores as one move. -/
def takeBulk (s : State) (k ch : Nat) (b : Word) : Taken :=
  let c := s.core k
  match (tget c.recvq [] ch).head? with
  | none => .wait
  | some m =>
    let bs := m.payload
    match translateWords s (coreDie k) c.masid ((List.range (bs.length / 4)).map (fun i => (b.toNat + 4 * i) % 2 ^ 32)) [] with
    | (.inr (cause, detail, va), s) => .cause cause detail va s
    | (.inl pas, s) =>
      if pas.any (fun p => s.ms.owned (p.1 / 64)) then .wait
      else match performReads s k with
      | none => .wait
      | some s =>
        .took (BitVec.ofNat 32 bs.length) m.poison
          (s.updCore k (fun c => ((c.acquire s.ck).dropMsg ch).storeWords s.ck b.toNat m.poison pas bs))

/-- `RECVB` (R148): with d = x0 it stands until it has taken its message, and takes a cause at itself. -/
def execRecvb (d : XReg) (a b : Src) (s : State) : Out :=
  let i : Instr := .recvb d a b
  let u : Uses := { a, b, dst := some (.x d), moves := true }
  gate i u s fun v s =>
    let ch := v.a.toNat / 2 ^ 24 % 16
    if v.b.toNat % 4 ≠ 0 then .next (raise i s 0x04 v.b)
    else if v.a.toNat / 2 ^ 28 ≠ 0 then .next (raiseD s 0x0A v.a 0)
    else if (s.core s.cur).receiving ch then .next (stand i s)
    else if d.val = 0 then
      match takeBulk s s.cur ch v.b with
      | .wait => .next (stand i s)
      | .cause cause detail va s => .next (raiseD s cause (detailOr i cause detail) (BitVec.ofNat 32 va))
      | .took _ _ s => .next (retireNext u s v.poison)
    else .next (retireNext u (s.updCore s.cur (fun c => c.produce {
      op := .recvb ch, d := .x d, addr := v.a, b := v.b, bPoison := v.poison, pc := c.pc, instr := instrWord i,
      issuedAt := s.ck })) v.poison)

/-- The message of the n-th producer, a receive, is taken; `re` says that the receive was rearmed and counts in LD. -/
def receiveMsg (s : State) (k n : Nat) (a : Access) (re : Bool) : State :=
  let c := s.core k
  let lower (c : Core) : Core := if re then { c with cnt := { c.cnt with LD := c.cnt.LD - 1 } } else c
  let note (p : Bool) (va : Nat) (c : Core) : Core :=
    if re then c.push 5 (notice 1 (if p then 3 else 0) (dstNum a.d) (va / 65536)) else c
  match a.op with
  | .recv ch =>
    match (tget c.recvq [] ch).head?, performReads s k with
    | some m, some s =>
      s.updCore k (fun c =>
        let c := (c.acquire s.ck).dropMsg ch
        let w := match a.d with
          | .x d => if d.val = 0 then 0 else min 8 (24 - d.val)
          | .q7 => 0
        c.finish s.ck n (m.words.take w) m.poison)
    | _, _ => s
  | .recvb ch =>
    match takeBulk s k ch a.b with
    | .wait => s
    | .took v p s => s.updCore k (fun c => note p a.b.toNat (lower (c.finish s.ck n [v] p)))
    | .cause cause detail va s =>
      if re then rearmedCause s k n a va cause detail
      else s.updCore k (fun c => { c with
        acc := c.acc.mapIdx (fun i x => if i = n then { x with st := .recorded cause (BitVec.ofNat 32 va) detail } else x) })
  | _ => s

/-- The n-th producer is the oldest receive of its channel. -/
def Core.firstReceive (c : Core) (n ch : Nat) : Bool :=
  !(c.acc.take n).any (fun a => !a.dead && match a.op with
    | .recv x | .recvb x => x == ch
    | _ => false)

/-- RECEIVE (R148): the n-th producer of core k, a receive, takes its message. -/
def execReceive (k n : Nat) (s : State) : Out :=
  match (s.core k).acc[n]? with
  | none => .next s
  | some a =>
    match a.op, a.st with
    | .recv ch, .issued | .recvb ch, .issued =>
      if !a.dead && (s.core k).firstReceive n ch then .next (receiveMsg s k n a false) else .next s
    | _, _ => .next s

/-- REARMED_ACCESS_COMPLETE (R193): a rearmed access or receive of core k walks again and completes. -/
def execRearmedAccessComplete (k n : Nat) (s : State) : Out :=
  match (s.core k).acc[n]? with
  | none => .next s
  | some a =>
    match a.st, a.op with
    | .rearmed cause ready va, .recvb _ =>
      if !ready || (cause == 0x11 && s.ms.moving a.asid (va / 65536)) then .next s
      else .next (receiveMsg s k n a true)
    | .rearmed cause ready _, _ => .next (rearmedLoad k n a cause ready s)
    | _, _ => .next s

/-- BERTH_MOVE (R181): the oldest berth message of a channel enters its receive queue. -/
def execBerthMove (k ch : Nat) (s : State) : Out :=
  let c := s.core k
  let p := s.corePart k
  match c.rank with
  | none => .next s
  | some r =>
    let b := tget (s.part p).berths {} r
    match b.msgs.find? (fun m => m.channel == ch) with
    | none => .next s
    | some m =>
      if 32 ≤ (tget c.recvq [] ch).length then .next s
      else
        let s := s.updPart p (fun x => { x with berths := tset x.berths r { b with msgs := b.msgs.erase m } })
        .next (s.updCore k (fun c => { c with recvq := tset c.recvq ch (tget c.recvq [] ch ++ [m]), woken := true }))

end Sys2Proof.Machine
end

