-- ==== Sys2Proof/Machine/Task.lean ====
section
/-!
DEFINITION. Sys2Proof/Machine/Task.lean: the end of a task, marks, items, child launches and migration (R87, R88, R93, R94,
R101, R102, R149 to R153, R208), and launch records (R89 to R91).
-/
namespace Sys2Proof.Machine
open Sys2Proof

/-! The end of a task. -/

/-- Loop state at TDONE (R133). -/
def Loop.stop (l : Loop) : Loop := { l with active := false }

/-- Writes of the vector entries that a task leaves behind go on; its lanes stay held until the sequencer is empty, through later
tasks (R88). -/
def VecCore.endTask (v : VecCore) : VecCore :=
  { v with
    heldLanes := (if v.seq.isEmpty then 0 else if v.dead then v.heldLanes else v.grant), grant := 0, dead := !v.seq.isEmpty,
    v := if v.seq.isEmpty then Vector.replicate 16 [] else v.v, reneg := none }

def Cmd.die (c : Cmd) : Cmd := { c with dead := true }

/-- Where a core without its task stands: idle, but one that a debug stop or HALT holds, or whose basin is fenced, stays as it is
(R159, R198, R210). -/
def Core.vacant (c : Core) : Run :=
  match c.run with
  | .running => if c.fenced then .running else .idle
  | r => r

/-- The core's part of the end of a task (R88): recorded causes go (R109), producers and commands in flight are dead,
receives, queues, snapshot and grant are released. -/
def Core.endTask (c : Core) : Core :=
  { c with
    task := none, run := c.vacant, priv := (if c.fenced then c.priv else .task), notices := [], emptySince := none, standing := none, hand := none, pops := [], pubDone := false, fbuf := [],
    loop0 := c.loop0.stop, loop1 := c.loop1.stop, snap := [], discarded := [], arrived := none, pageWaits := [],
    acc := (c.acc.filter (fun a => match a.st with
      | .recorded _ _ _ => false
      | _ => true)).filter (fun a => match a.op with
      | .recv _ | .recvb _ | .engine _ | .divide _ => false
      | _ => true) |>.map (fun a => { a with dead := true, st := .issued }),
    regs := { c.regs with q := Vector.replicate 7 [], held := [] },
    vec := c.vec.endTask,
    mat := { c.mat with queue := c.mat.queue.map Cmd.die, waiting := none },
    cpy := { c.cpy with queue := c.cpy.queue.map Cmd.die, waiting := none },
    gal := { c.gal with queue := c.gal.queue.map Cmd.die, slots := [], waiting := none },
    fer := { c.fer with queue := c.fer.queue.map Cmd.die, waiting := none } }

/-- RETURN records that a task leaves in its slots are dropped and counted (R330). -/
def dropSlots (s : State) (k : Nat) : State :=
  (s.core k).gal.slots.foldl (fun s r => s.updDie (coreDie k) (fun d =>
    let c := r.2.cls
    { d with gal := { d.gal with cls := tset d.gal.cls c { (tget d.gal.cls {} c) with drop := sat32 ((tget d.gal.cls {} c).drop + 1) } } })
    |>.tally (coreDie k) (0x310 + r.2.cls) r.2.cls 1) s

/-- The end of the task of a core: its launch has one task less running; notices left in q6 are dropped. -/
def endTask (s : State) (k : Nat) : State :=
  let c := s.core k
  let s := freeSlots s c.notices
  let s := dropSlots s k
  let s := match c.task with
    | some t => s.updLaunch t.launch (fun l => { l with
        running := l.running - 1,
        parts := l.parts.map (fun (p : Nat × DiePart) => if p.1 = coreDie k then (p.1, { p.2 with waitSince := s.ck }) else p) })
    | none => s
  (s.bankLanes k).updCore k (fun c => (c.acquire s.ck).endTask)

/-- Vector memory entries of the core whose translation is still unknown (R234 item 4). -/
def isVecMem : Instr → Bool
  | .vld _ _ _ | .vst _ _ _ | .vgth _ _ _ _ | .vsct _ _ _ _ => true
  | _ => false

def VecCore.unknown (v : VecCore) : Bool :=
  if v.passes > 1 then v.seq.any (fun e => isVecMem e.instr)
  else (v.seq.drop (if v.rd.isSome || v.wr.isSome then v.pos + 1 else v.pos)).any (fun e => isVecMem e.instr)

/-- `TDONE` (R88, R152): Publish(P), then the task ends; it waits for no counter, but for the passes of a VLOOP (R262) and for the
translation of vector entries (R234). -/
def execTdone (s : State) : Out :=
  let i : Instr := .tdone
  gate i { engs := allEngines, moves := true } s fun _ s =>
    if (s.core s.cur).vec.unknown ∨ (!(s.core s.cur).vec.dead ∧ (s.core s.cur).vec.passes ≠ 0) then .next (stand i s)
    else publish i s .P fun s => .next (retireLeaving {} s false (endTask · s.cur))

/-! Tile blocks (R90). -/

def levelRows (ls : List Level) : Nat := ls.foldl (fun a l => a * l.rows) 1
def levelCols (ls : List Level) : Nat := ls.foldl (fun a l => a * l.cols) 1

/-- Rows and columns of a tile block of a level: extents of the levels below it (R90). -/
def Launch.below (l : Launch) (lvl : Nat) : Nat × Nat :=
  (levelRows (l.levels.drop (lvl + 1)), levelCols (l.levels.drop (lvl + 1)))

/-- The block of a level that a tile lies in. -/
def Launch.blockAt (l : Launch) (lvl row col : Nat) : Nat :=
  let b := l.below lvl
  row / b.1 * 2 ^ 17 + col / b.2

/-- Level-0 blocks stand on the dies of the mask where R368 fixes them. -/
def Launch.preset (l : Launch) : Launch :=
  match l.levels with
  | [] => l
  | v :: _ =>
    let dies := (List.range 8).filter (fun d => l.mask / 2 ^ d % 2 == 1)
    if v.place = 1 ∧ dies.length = v.rows * v.cols then
      { l with bound := (List.range (v.rows * v.cols)).map (fun b => (0, b / v.cols * 2 ^ 17 + b % v.cols, dies.getD b 0)) }
    else l

/-- Die of a unit that a block is bound to: a die, a cluster or a core, as the level's placement says (R434). -/
def unitDie (place unit : Nat) : Nat := if place = 1 then unit else if place = 2 then unit / 16 else unit / 128

/-- The lowest-numbered die of a mask (R101). -/
def lowestDie (mask default : Nat) : Nat := (firstFree (fun d => mask / 2 ^ d % 2 = 1) 8).getD default

/-- A new die mask takes effect (R101): a block bound to a die that leaves is unbound (R368, log 32), and a tile that was to be
placed again there goes to the lowest die that remains. -/
def Launch.setMask (l : Launch) (m : Nat) : Launch :=
  { l with
    mask := m, pendMask := none,
    again := l.again.map (fun a => if a.flight = 0 && m / 2 ^ a.die % 2 = 0 then { a with die := lowestDie m a.die } else a),
    bound := l.bound.filter (fun b => m / 2 ^ unitDie ((l.levels[b.1]?.map (·.place)).getD 0) b.2.2 % 2 == 1) }

/-- The tile or item of a task of core k is to be placed again, on a die, from a mark (R101, R199); the core counts as not having run
its tile (R218). -/
def Launch.replace (l : Launch) (k : Nat) (t : Task) (die : Nat) (mark : Word) : Launch :=
  { l with
    again := l.again ++ [⟨die, t.flight, t.row, t.col, t.item, mark⟩],
    used := if t.flight = 0 then l.used.filter (fun u => u != (l.blockAt 0 t.row t.col, k)) else l.used }

/-- `MARK` (R101, R153): Publish(P) and drain; a pending die-set change takes effect; on a withdrawn die the task ends once
every counter is 0 and is placed again. -/
def execMark (a : Src) (s : State) : Out :=
  let i : Instr := .mark a
  let u : Uses := { a, engs := allEngines, moves := true }
  gate i u s fun v s => publish i s .P fun s => drain i s fun s =>
    let k := s.cur
    match (s.core k).task with
    | none => .next (retireNext u s v.poison)
    | some t =>
      let s := s.updCore k (fun c => { c with marked := v.a })
      let s := s.updLaunch t.launch (fun l => match l.pendMask with
        | some m => l.setMask m
        | none => l)
      match tfind s.launches t.launch with
      | none => .next (retireNext u s v.poison)
      | some l =>
        if l.mask / 2 ^ coreDie k % 2 = 1 then .next (retireNext u s v.poison)
        else if !(s.core k).idle then .next (stand i s)
        else
          .next (retireLeaving u s v.poison (fun s =>
            (endTask s k).updLaunch t.launch (·.replace k t (lowestDie l.mask (coreDie k)) v.a)))

/-! Items. -/

/-- `TAKE` (R151). -/
def execTake (d : Dst) (s : State) : Out :=
  let i : Instr := .take d
  let u : Uses := { dst := some d }
  gate i u s fun _ s => .next (retireNext u (s.updCore s.cur (fun c =>
    match c.task with
    | none => c.writeDst s.ck d 0 false
    | some t =>
      let w := if t.flight = 0 then 0 else t.item.getD (t.takes % 3) 0
      { c.writeDst s.ck d w false with task := some { t with takes := t.takes + 1 } })) false)

/-- The last flight pushes into no landing (R96, R151). -/
def State.lastFlight (s : State) (c : Core) : Bool :=
  match c.task with
  | none => true
  | some t => match tfind s.launches t.launch with
    | none => true
    | some l => l.flights.length ≤ t.flight + 1

/-- `PASS` (R94, R151): Publish(D), then the item is offered to the landing. -/
def execPass (a : Src) (b : XReg) (eb : Bool) (s : State) : Out :=
  let i : Instr := .pass a b eb
  let u : Uses := { a, bs := (regsFrom b 3).map (fun r => ⟨.x r, eb⟩), moves := true }
  offered i u s <| gate i u s fun v s => publish i s .D fun s =>
    if s.lastFlight (s.core s.cur) then .next (retireNext u s v.poison)
    else offer i u v.poison (.item (v.a :: v.bs)) s

/-- An item enters a landing instance of a launch on a die, when it has room. A cancelled launch has nobody left to take it: it is
dropped (DESIGN CHOICE, log 81). -/
def pushItem (s : State) (l die f : Nat) (item : List Word) : Option State :=
  match tfind s.launches l with
  | none => none
  | some x =>
    match tfind x.parts die with
    | none => none
    | some p =>
      let q := p.landings.getD f []
      if x.status = 4 then some s
      else if p.left ∨ (match x.flights[f]? with
        | some y => y.depth
        | none => 0) ≤ q.length then none
      else
        let p : DiePart := { p with landings := p.landings.mapIdx (fun i y => if i = f then y ++ [item] else y) }
        some { s with launches := tset s.launches l { x with parts := tset x.parts die p } }

/-- ITEM_PUSH (R93, R172): the item that core k offers enters its landing, after the drain. -/
def execItemPush (k : Nat) (s : State) : Out :=
  let c := s.core k
  match c.hand, c.task with
  | some (.item ws), some t =>
    if !c.out.isEmpty then .next s
    else match pushItem s t.launch (coreDie k) t.flight ws with
    | some s => .next (finishOffer s k id)
    | none => .next s
  | _, _ => .next s

/-! Launch records. -/

/-- A record's parts (R89), read from its 64 words. -/
structure Record where
  flights : List Flight
  levels : List Level
  ident : Word
  prio : Nat
  mask : Nat
  clustersReq : Nat
  cache : Nat
  doneAddr : Word

def parseRecord (w : List Word) : Record :=
  let g (i : Nat) : Word := w.getD i 0
  let f := wf (g 0) 16 8
  let l := wf (g 0) 8 8
  { flights := (List.range (min f 8)).map (fun i => ⟨g (24 + 4 * i), g (25 + 4 * i), wf (g (26 + 4 * i)) 0 13⟩),
    levels := (List.range (min l 8)).map (fun i => ⟨wf (g (8 + 2 * i)) 16 16, wf (g (8 + 2 * i)) 0 16, wf (g (9 + 2 * i)) 0 2⟩),
    ident := g 1, prio := wf (g 0) 5 3, mask := wf (g 2) 0 8, clustersReq := wf (g 2) 16 5, cache := wf (g 2) 24 4,
    doneAddr := g 3 }

/-- FORMAT of R91. -/
def formatOk (w : List Word) : Bool :=
  let g (i : Nat) : Nat := (w.getD i 0).toNat
  let f := g 0 / 2 ^ 16 % 256
  let l := g 0 / 256 % 256
  g 0 / 2 ^ 24 == 1 && 1 ≤ f && f ≤ 8 && 1 ≤ l && l ≤ 8 && g 0 % 32 == 0 &&
  g 2 / 256 % 256 == 0 && g 2 / 2 ^ 21 % 8 == 0 && g 2 / 2 ^ 28 == 0 && g 2 / 2 ^ 16 % 32 ≤ 16 &&
  (g 2 / 2 ^ 24 % 16 ≤ 8 || g 2 / 2 ^ 24 % 16 == 15) &&
  (List.range 4).all (fun i => g (4 + i) == 0) &&
  (List.range 8).all (fun i => if i < l then g (8 + 2 * i) % 65536 != 0 && g (8 + 2 * i) / 65536 != 0 && g (9 + 2 * i) < 4
    else g (8 + 2 * i) == 0 && g (9 + 2 * i) == 0) &&
  (List.range 8).all (fun i => if i < f then
      g (24 + 4 * i) % 4 == 0 && g (26 + 4 * i) / 2 ^ 13 == 0 && g (27 + 4 * i) == 0 &&
      (i + 1 == f || (1 ≤ g (26 + 4 * i) % 2 ^ 13 && g (26 + 4 * i) % 2 ^ 13 ≤ 4096))
    else (List.range 4).all (fun j => g (24 + 4 * i + j) == 0)) &&
  (List.range 8).all (fun i => g (56 + i) == 0)

/-- Clusters of a die that a partition owns, ascending; a lost die has none. -/
def State.ownedClusters (s : State) (p die : Nat) : List Nat :=
  if (s.die die).lost then [] else ((List.range 16).map (· + 16 * die)).filter (fun c => (s.cluster c).part == some p)

/-- Clusters that PLACE takes on a die (R89): the lowest-numbered (log 22). -/
def State.placeClusters (s : State) (p die req : Nat) : List Nat :=
  if req = 0 then s.ownedClusters p die else (s.ownedClusters p die).take req

/-- The status of R91 for a record: 0 when nothing is broken. Of several broken conditions the one of the lowest status is reported:
FORMAT, then SHAPE, then PLACE (DESIGN CHOICE, log 75). -/
def recordStatus (s : State) (p : Nat) (w : List Word) (mask : Nat) : Nat :=
  let r := parseRecord w
  if !formatOk w then 1
  else if 65536 < levelRows r.levels ∨ 65536 < levelCols r.levels then 2
  else if mask = 0 ∨ !(List.range 8).all (fun d => mask / 2 ^ d % 2 == 0 ||
      (!(s.ownedClusters p d).isEmpty && r.flights.length ≤ 8 * (s.placeClusters p d r.clustersReq).length)) then 3
  else 0

/-- A launch made from a record, refused or not. -/
def mkLaunch (w : List Word) (src : LaunchSrc) (part asid prio mask status : Nat) : Launch :=
  let r := parseRecord w
  { src, part, asid, ident := r.ident, prio := min r.prio prio, cache := r.cache, clustersReq := r.clustersReq,
    doneAddr := r.doneAddr, levels := r.levels, flights := r.flights, mask, status, refused := status != 0 }

/-- A child-launch slot that is free for a new handle (R150). -/
def Die.freeChild (d : Die) : Option Nat :=
  firstFree (fun i => match tfind d.children i with
    | none => true
    | some c => c.launch.isNone && !c.noticed) 256

/-- `LAUNCH` (R102, R150): Publish(P) and drain, the record read by the read move, then the handle; a full table gives
0xFFFF. -/
def execLaunch (d : Dst) (a : Src) (s : State) : Out :=
  let i : Instr := .launch d a
  let u : Uses := { a, dst := d, moves := true }
  gate i u s fun v s =>
    let k := s.cur
    let c := s.core k
    if v.a.toNat % 256 ≠ 0 then .next (raise i s 0x04 v.a)
    else match translateRun s (coreDie k) c.masid .load (vaRange v.a.toNat 256) [] with
    | (.inr (cause, detail, va), s) => .next (raiseD s cause (detailOr i cause detail) (BitVec.ofNat 32 va))
    | (.inl pas, s) => publish i s .P fun s => drain i s fun s =>
      match readBytes s k c.pc v.a.toNat pas with
      | none => .next (stand i s)
      | some (bs, p, s) =>
        let finish (s : State) (h : Nat) : Out := .next (retireNext u (s.updCore k (fun c =>
          c.writeDst s.ck d (BitVec.ofNat 32 h) (v.poison || p))) v.poison)
        match (s.die (coreDie k)).freeChild with
        | none => finish s 0xFFFF
        | some slot =>
          let w := wordsOf 64 bs
          let part := s.corePart k
          let old := tget (s.die (coreDie k)).children {} slot
          let seq := if (tfind (s.die (coreDie k)).children slot).isSome then (old.seq + 1) % 255 else 0
          let h := seq * 256 + slot
          let mask := if (parseRecord w).mask = 0 then 2 ^ coreDie k else (parseRecord w).mask
          let parent := (c.launch.bind (tfind s.launches))
          let l := (mkLaunch w (.child (coreDie k) h ((c.task.map (·.uid)).getD 0) (c.launch.getD 0)) part c.masid
            ((parent.map (·.prio)).getD 7) mask (recordStatus s part w mask)).preset
          let s := { s with launches := tset s.launches s.nextLaunch l, nextLaunch := s.nextLaunch + 1 }
          let s := s.updDie (coreDie k) (fun x =>
            { x with children := tset x.children slot { seq, launch := some (s.nextLaunch - 1), noticed := true } })
          finish s h

/-! Migration. -/

/-- A rank's binding is rewritten: entry published at P, caches replaced, RANKID moved (R389). -/
def bindRank (s : State) (k p rank : Nat) (w : Word) : State :=
  let part := s.part p
  let r := translate s (coreDie k) part.netasid ((part.rankbase.toNat + 4 * rank) % 2 ^ 32) .store
  let s := match r with
    | (.ok pa _, s) => s.updMs (fun m =>
        m.put ((List.range 4).map (fun i => (pa + i, (wordBytes w).getD i 0))) .P (.core k) none)
    | (.bad _ _, s) => s
  let here := w.toNat / 2 ^ 31 = 1 ∧ entryPkg w = s.pkg
  { s with cores := (if here then tset s.cores (entryCore w) (s.core (entryCore w)) else s.cores).map (fun c =>
      let x := c.2
      let x := if (tfind x.rankCache rank).isSome ∧ s.corePart c.1 = p then { x with rankCache := tset x.rankCache rank w } else x
      let x := if x.rank = some rank ∧ here ∧ s.corePart c.1 = p then { x with rank := none } else x
      (c.1, if here ∧ c.1 = entryCore w then { x with rank := some rank } else x)) }

/-- The unit's state at task entry (R265): its flags, fault record and injection stay. -/
def MatCore.fresh (m : MatCore) : MatCore := { flt := m.flt, ovf0 := m.ovf0, ovf1 := m.ovf1, inj := m.inj }

/-- Cleared at task entry, or to be cleared once an ended task's commands have left. -/
def MatCore.enter (m : MatCore) : MatCore := if m.queue.isEmpty then m.fresh else { m with clear := true }

/-- What moves to the target (R149, R208), which keeps its identity, SRAMCFG, GROUP, trap and debug registers. -/
def Core.migrate (c t : Core) : Core :=
  { t with
    regs := c.regs, pc := c.pc, priv := .task, run := .running, notices := c.notices, loop0 := c.loop0, loop1 := c.loop1, up := c.up,
    alignlim := c.alignlim, markin := c.markin, marked := c.marked, masid := c.masid, task := c.task, acc := c.acc, stbase := c.stbase,
    recvq := c.recvq, snap := [], buf := [], mat := t.mat.enter, gal := { t.gal with slots := c.gal.slots }, arrived := none, standing := none,
    discarded := c.discarded, pageWaits := c.pageWaits, fbuf := [] }

/-- A core without a task and free for the dispatcher: idle, not fenced, and not asked to halt (R208, R210). -/
def Core.isFree (c : Core) : Bool := c.task.isNone && c.run == .idle && !c.fenced && !c.dbg.haltReq

/-! The cores that a launch keeps (R96). -/

/-- The launch's cores on a die: those that the dispatcher has assigned to it and not taken back, idle ones included. -/
def State.launchCores (s : State) (l : Nat) (p : DiePart) : List Nat :=
  p.assigned.filter (fun k => (s.core k).isFree || (s.core k).launch == some l)

/-- The core runs a task of the launch whose flight satisfies a test. -/
def State.runsFlight (s : State) (l : Nat) (test : Nat → Bool) (k : Nat) : Bool :=
  match (s.core k).task with
  | some t => t.launch == l && test t.flight
  | none => false

/-- Of the cores, `extra` of which are about to run flight f, as many do not run flights 0 to f as there are flights above f. -/
def State.keepsReserve (s : State) (l : Nat) (x : Launch) (ks : List Nat) (f extra : Nat) : Bool :=
  x.flights.length - 1 - f + (ks.filter (s.runsFlight l (· ≤ f))).length + extra ≤ ks.length

/-- A free core may go to launch l: no other launch on the die needs it in reserve for the flights that it runs. -/
def State.canTake (s : State) (k l : Nat) : Bool :=
  s.launches.all (fun m => m.1 == l || m.2.done || match tfind m.2.parts (coreDie k) with
    | none => true
    | some p =>
      let ks := s.launchCores m.1 p
      !ks.contains k || (List.range m.2.flights.length).all (fun f =>
        !(ks.any (s.runsFlight m.1 (· == f))) || s.keepsReserve m.1 m.2 (ks.erase k) f 0))

/-- The core becomes one of launch l's on its die, and of no other launch. -/
def State.assign (s : State) (k l : Nat) : State :=
  { s with launches := s.launches.map (fun (m : Nat × Launch) =>
      (m.1, { m.2 with parts := m.2.parts.map (fun (p : Nat × DiePart) =>
        if p.1 = coreDie k then
          (p.1, { p.2 with assigned := if m.1 = l then (if p.2.assigned.contains k then p.2.assigned else k :: p.2.assigned) else p.2.assigned.erase k })
        else p) })) }

/-- The task of core k is aborted: its commands are recalled, its stores that were not published go (R178, R199). -/
def abortTask (s : State) (k : Nat) : State :=
  let s := recallCmds s k false
  endTask (s.updCore k (fun c => { c with
    buf := [], cnt := { c.cnt with RM := c.cnt.RM - (c.buf.filter (·.remote)).length } })) k

/-- The task of a core is aborted and placed again from the mark it last reached, unless its launch is cancelled: on its die, or for a
tile whose die has been withdrawn on the lowest that remains (R101, R199). -/
def replaceTask (s : State) (k : Nat) : State :=
  match (s.core k).task with
  | none => s
  | some t =>
    let m := (s.core k).marked
    (abortTask s k).updLaunch t.launch (fun l =>
      if l.done || l.status != 0 then l
      else l.replace k t (if t.flight = 0 && l.mask / 2 ^ coreDie k % 2 = 0 then lowestDie l.mask (coreDie k) else coreDie k) m)

/-- The task moves to core t (R149, R208): the dispatcher gives t to the launch, the source's part ends, the rank's binding follows. -/
def moveTask (s : State) (k t : Nat) : State :=
  let c := s.core k
  let s := s.setCore t (c.migrate (s.core t))
  let s := s.setCore k { c.endTask with acc := [], recvq := [], dirty := [], held := [], rank := none }
  let s := match c.task with
    | some x => (s.assign t x.launch).updLaunch x.launch (fun l => { l with cores := if l.cores.contains t then l.cores else t :: l.cores })
    | none => s
  match c.rank with
  | some r => bindRank s k (s.corePart k) r (BitVec.ofNat 32 (2 ^ 31 + s.pkg * 2 ^ 10 + t))
  | none => s

/-- `MIGR` (R149, R208): every counter 0 and every divide written, Publish(P) and its drain, the grant released, then the wait for a
free target, on which the task continues at PC + 4. Pending receives move with it (R204). -/
def execMigr (a : Src) (s : State) : Out :=
  let i : Instr := .migr a
  let u : Uses := { a, engs := allEngines }
  gate i u s fun v s =>
    let k := s.cur
    let t := v.a.toNat % 1024
    if s.corePart t ≠ s.corePart k then .next (raiseD s 0x06 0 0)
    else if t = k then publish i s .P fun s => drain i s fun s => .next (retireNext u s v.poison)
    else
      let divides := (s.core k).vec.reneg.isSome || (s.core k).acc.any (fun a => match a.op with
        | .divide _ | .engine _ => true
        | _ => false)
      if !(s.core k).pubDone ∧ (!(s.core k).idle ∨ divides) then .next (stand i s)
      else publish i s .P fun s => drain i s fun s =>
        let s := (s.bankLanes k).updCore k (fun c => { c with vec := { c.vec with grant := 0 } })
        if (s.core k).hand = some (.move t true) then .next (replaceTask s k)
        else if !(s.core t).isFree ∨ !s.canTake t (((s.core k).launch).getD 0) then
          .next ((stand i s).updCore k (fun c => { c with hand := some (.move t false) }))
        else .next (retireLeaving u s v.poison (moveTask · k t))

end Sys2Proof.Machine
end

