-- ==== Sys2Proof/Machine/Engine.lean ====
section
/-!
DEFINITION. Sys2Proof/Machine/Engine.lean: what the engines share: engine reads, ownership, causes that wait, results and
completion (R22, R32, R175 to R178, R432).
-/
namespace Sys2Proof.Machine
open Sys2Proof

/-- The party that an engine is for a core (R18, R20). -/
def engineParty (e : Engine) (k : Nat) : Party :=
  match e with
  | .MX | .VX | .CP => .cluster (coreClu k)
  | .GL | .PS => .die (coreDie k)

/-- What an engine's access gives: a wait for ownership, a cause at an address, or its bytes. -/
inductive EAccess (α : Type) where
  | wait | cause (cause : Nat) (detail : Word) (va : Nat) (s : State) | ok (x : α) (s : State)

/-- The ferry alone reads and writes the arrays of bound blocks (R338). -/
def engineRun (s : State) (e : Engine) (k asid : Nat) (kind : AccKind) (vas : List Nat) : (List Nat ⊕ (Nat × Word × Nat)) × State :=
  translateEach (fun s va => translateFor (e == .PS) s (coreDie k) asid va kind) s vas []

/-- The engines that reach memory through the core's stash window fill its slots (R372). -/
def State.touchFor (s : State) (e : Engine) (k asid : Nat) (ps : List (Nat × Nat)) : State :=
  match e with
  | .MX | .VX | .CP => s.updCore k (fun c => if c.masid = asid then c.touchRun ps else c)
  | .GL | .PS => s

/-- A byte of a bound block's arrays, which stand in the block (R338, log 30). -/
def FBlock.byteAt (b : FBlock) (pa : Nat) : Option Byte :=
  let at' (as : List Nat) (vs : List Word) : Option Byte :=
    (as.findIdx? (· == pa / 4 * 4)).map (fun i => (wordBytes (vs.getD i 0)).getD (pa % 4) 0)
  (at' b.vpas b.values).or (at' b.hpas b.heldVals)

def State.blockByte (s : State) (pa : Nat) : Option Byte :=
  s.dies.findSome? (fun d => d.2.fer.blocks.findSome? (fun b => b.2.byteAt pa))

/-- A byte written into a bound block's arrays (log 30). -/
def FBlock.setByte (b : FBlock) (pa : Nat) (x : Byte) : FBlock :=
  let put (n : Nat) (as : List Nat) (vs : List Word) : List Word :=
    match as.findIdx? (· == pa / 4 * 4) with
    | some i => ((vs ++ List.replicate (n - vs.length) 0).set i (wordOf ((wordBytes (vs.getD i 0)).set (pa % 4) x)))
    | none => vs
  { b with values := put b.n b.vpas b.values, heldVals := put b.n b.hpas b.heldVals }

def State.setBlockByte (s : State) (pa : Nat) (x : Byte) : State :=
  { s with dies := s.dies.map (fun (d : Nat × Die) =>
      (d.1, { d.2 with fer := { d.2.fer with blocks := d.2.fer.blocks.map (fun (b : Nat × FBlock) => (b.1, b.2.setByte pa x)) } })) }

/-- An engine read (R175, R177): latest events visible to the engine, each byte with its poison (R194). A lost line makes
PEER_LOST pending (R200). -/
def engineRead (s : State) (e : Engine) (k q asid : Nat) (pc : Word) (vas : List Nat) : EAccess (List (Byte × Bool)) :=
  match engineRun s e k asid .load vas with
  | (.inr (cause, detail, va), s) => .cause cause detail va s
  | (.inl pas, s) =>
    if pas.any (fun p => s.ms.ownedByOther e k q (p / 64)) then .wait
    else
      let byte (p : Nat) : Byte × Bool := (s.ms.byteAt (engineParty e k) p, s.linePoison (p / 64))
      let bs := pas.map (fun p => match (if e == .PS then s.blockByte p else none) with
        | some x => (x, false)
        | none => byte p)
      let s := s.touchFor e k asid (vas.zip pas)
      let s := match (pas.zip vas).find? (fun p => s.lineLost (p.1 / 64)) with
        | some p => pendImp s k 0x73 pc (BitVec.ofNat 32 p.2)
        | none => s
      .ok bs s

/-- A command's written lines enter the ownership map (R32, R177): the physical bytes in order. -/
def engineTake (s : State) (e : Engine) (k q asid : Nat) (vas : List Nat) : EAccess (List Nat) :=
  match engineRun s e k asid .store vas with
  | (.inr (cause, detail, va), s) => .cause cause detail va s
  | (.inl pas, s) =>
    if pas.any (fun p => s.ms.owned (p / 64)) then .wait
    else .ok pas ((s.touchFor e k asid (vas.zip pas)).updMs (·.take e k q (linesOf pas)))

/-- A line that a stash window holds is written there, and is dirty in it (R372). -/
def Core.soilWindow (c : Core) (lines : List Nat) : Core :=
  (c.held.filter (fun h => lines.contains h.2 && c.inWindow (h.1 * 64))).foldl Core.soil c

/-- The writes of a completion (R176): events at P with the engine as origin; a poisoned value poisons its line. The ferry's writes
into a bound block's arrays go to the block (R338). -/
def engineWrite (s : State) (e : Engine) (k : Nat) (launch : Option Nat) (ws : List (Nat × Byte × Bool)) : State :=
  let inner := if e == .PS then ws.filter (fun w => (s.blockByte w.1).isSome) else []
  let s := inner.foldl (fun s w => s.setBlockByte w.1 w.2.1) s
  let ws := if e == .PS then ws.filter (fun w => (s.blockByte w.1).isNone) else ws
  let lines := linesOf (ws.map (·.1))
  let s := s.updMs (fun m =>
    let m := m.put (ws.map (fun w => (w.1, w.2.1))) .P (engineParty e k) launch
    ws.foldl (fun m w => if w.2.2 then m.poisonLine (w.1 / 64) else m) m)
  { s with cores := s.cores.map (fun (c : Nat × Core) => (c.1, c.2.soilWindow lines)) }

/-- Poison consumed by an engine's command (R194). -/
def consume (s : State) (k : Nat) (pc : Word) (p : Bool) : State := if p then pendImp s k 0x71 pc 0 else s

/-- Queue of an engine for a core. -/
def Core.engineQueue (c : Core) : Engine → List Cmd
  | .MX => c.mat.queue
  | .CP => c.cpy.queue
  | .GL => c.gal.queue
  | .PS => c.fer.queue
  | .VX => []

def Core.setQueue (c : Core) (e : Engine) (q : List Cmd) : Core :=
  match e with
  | .MX => { c with mat := { c.mat with queue := q } }
  | .CP => { c with cpy := { c.cpy with queue := q } }
  | .GL => { c with gal := { c.gal with queue := q } }
  | .PS => { c with fer := { c.fer with queue := q } }
  | .VX => c

def Core.rearmedOf (c : Core) : Engine → Option (Nat × Bool)
  | .MX => c.mat.rearmed
  | .VX => c.vec.rearmed
  | .CP => c.cpy.rearmed
  | .GL => c.gal.rearmed
  | .PS => c.fer.rearmed

def Core.setRearmed (c : Core) (e : Engine) (r : Option (Nat × Bool)) : Core :=
  match e with
  | .MX => { c with mat := { c.mat with rearmed := r } }
  | .VX => { c with vec := { c.vec with rearmed := r } }
  | .CP => { c with cpy := { c.cpy with rearmed := r } }
  | .GL => { c with gal := { c.gal with rearmed := r } }
  | .PS => { c with fer := { c.fer with rearmed := r } }

def Core.setWaiting (c : Core) (e : Engine) (w : Option Waiting) : Core :=
  match e with
  | .MX => { c with mat := { c.mat with waiting := w } }
  | .VX => { c with vec := { c.vec with waiting := w } }
  | .CP => { c with cpy := { c.cpy with waiting := w } }
  | .GL => { c with gal := { c.gal with waiting := w } }
  | .PS => { c with fer := { c.fer with waiting := w } }

def Core.fltOf (c : Core) : Engine → FaultRec
  | .MX => c.mat.flt
  | .VX => c.vec.flt
  | .CP => c.cpy.flt
  | .GL => c.gal.flt
  | .PS => c.fer.flt

def Core.setFlt (c : Core) (e : Engine) (f : FaultRec) : Core :=
  match e with
  | .MX => { c with mat := { c.mat with flt := f } }
  | .VX => { c with vec := { c.vec with flt := f } }
  | .CP => { c with cpy := { c.cpy with flt := f } }
  | .GL => { c with gal := { c.gal with flt := f } }
  | .PS => { c with fer := { c.fer with flt := f } }

/-- The engine may accept what the core offers, as far as the core goes: its drain is done, its queue has room, and no cause of the
engine waits for delivery at the instruction (R32, R49, R169). -/
def Core.acceptable (c : Core) (e : Engine) : Bool := c.out.isEmpty && (c.waiting e).isNone && !c.fullQ e

/-- The engine's command of a core may run: no cause waits, and a page it was held on is in (R193). -/
def engineReady (s : State) (k : Nat) (e : Engine) (asid : Nat) : Bool :=
  let c := s.core k
  (c.waiting e).isNone && match c.rearmedOf e with
    | none => true
    | some (cause, ready) => ready && !(cause == 0x11 && s.ms.moving asid ((c.fltOf e).addr.toNat / 65536))

/-- A producer of the engine that has no result yet. -/
def Access.awaits (a : Access) (e : Engine) : Bool := a.op == .engine e && a.st == .issued

/-- Registers that the engine's producer writes at its result, the oldest outstanding one of the engine; the write waits while an
earlier producer owes the register (R41, R297). -/
def engineResult (c : Core) (ck : Nat) (e : Engine) (vs : List Word) : Core :=
  match c.acc.findIdx? (·.awaits e) with
  | some n =>
    if c.owed n then { c with acc := c.acc.mapIdx (fun i a => if i = n then { a with st := .got (vs.getD 0 0) false } else a) }
    else c.finish ck n vs false
  | none => c

/-- A producer discarded behind a faulting command leaves its registers full with their old values, marked (R432). -/
def discardProducers (c : Core) (e : Engine) : Core :=
  let as := c.acc.filter (·.awaits e)
  as.foldl (fun c a =>
    match a.d with
    | .x d =>
      if d.val = 0 then c
      else { c with
        regs := ((regsFrom d a.nregs).zip a.old).foldl (fun r p => r.put p.1 p.2.w p.2.poison) c.regs,
        discarded := c.discarded ++ (regsFrom d a.nregs).map (fun n => (n.val, e)) }
    | .q7 => c) { c with acc := c.acc.filter (fun a => !a.awaits e) }

/-- The head command of a queue leaves it: the counter falls by one (R176). -/
def popCmd (c : Core) (e : Engine) : Core := (c.setQueue e ((c.engineQueue e).drop 1)).drop e 1

/-- A faulting command that completes (R176, R281, R333, R356, R386): FAULT set with its record, its cause waits, and the commands
behind it are discarded, ownership of all of them ended. A command of an ended task leaves no cause that waits (R88). -/
def faultCmd (s : State) (k : Nat) (e : Engine) (cmd : Cmd) (flt : FaultRec) (w : Waiting) : State :=
  let c := s.core k
  let behind := if cmd.dead then [] else (c.engineQueue e).drop 1
  let s := behind.foldl (fun s q => s.updMs (·.release e k q.seq)) (s.updMs (·.release e k cmd.seq))
  s.updCore k (fun c =>
    if cmd.dead then (popCmd c e).setFlt e { flt with fault := true }
    else
      let c := discardProducers ((popCmd c e).drop e behind.length) e
      ((c.setQueue e []).setFlt e { flt with fault := true }).setWaiting e (some w))

/-- A page cause at the engine's turn (R193): recorded, no FAULT; the command is accepted afresh once the page is in. A command of
an ended task waits for the page by itself, and so does one that walks again and finds the same page still absent. -/
def Core.holdPage (c : Core) (e : Engine) (dead : Bool) (flt : FaultRec) (w : Waiting) : Core :=
  let still := w.cause == 0x10 && (c.rearmedOf e).any (fun r => r.1 == 0x10) && (c.fltOf e).addr.toNat / 65536 == w.addr.toNat / 65536
  let c := c.setFlt e { flt with fault := c.fltOf e |>.fault }
  if dead || still then c.setRearmed e (some (w.cause, w.cause == 0x11)) else c.setWaiting e (some w)

def holdCmd (s : State) (k : Nat) (e : Engine) (cmd : Cmd) (flt : FaultRec) (w : Waiting) : State :=
  s.updCore k (·.holdPage e cmd.dead flt w)

/-- A cause met by the head command's accesses. -/
def engineCauseAt (s : State) (k : Nat) (e : Engine) (cmd : Cmd) (flt : FaultRec) (w : Waiting) : State :=
  if isPage w.cause then holdCmd s k e cmd flt w else faultCmd s k e cmd flt w

/-- A command issued to an engine: its checks are done; it publishes at the engine's scope and is offered (R32, R169). -/
def engineScope : Engine → Scope
  | .MX | .VX | .CP => .K
  | .GL | .PS => .D

/-- Operands of an engine's instruction. -/
def engineIssue (i : Instr) (u : Uses) (e : Engine) (v : Vals) (s : State) (data : List Word) : Out :=
  publish i s (engineScope e) fun s =>
    let c := s.core s.cur
    offer i u v.poison (.cmd e { instr := i, a := v.a, b := v.b, pc := c.pc, word := instrWord i, asid := c.masid, launch := c.launch, data }) s

/-- What a CSR access with a further effect gives: the state after it, a trap at the instruction, or a wait. -/
inductive CsrOut where
  | ok (s : State) | trap (cause : Nat) (detail addr : Word) | wait

/-- TRDETAIL of a cause taken at a CSR access (R190): the CSR number for PRIVILEGE, the instruction word where R190 asks for
it and the core stands at the access. -/
def csrDetail (i : Option Instr) (csr cause : Nat) (detail : Word) : Word :=
  if cause = 0x06 then BitVec.ofNat 32 csr
  else match i with
  | some i => if detailOf i cause = 0 then detail else detailOr i cause detail
  | none => detail

/-- Such an access as a move of its own, for core k and a CSR. -/
def CsrOut.out (k csr : Nat) (s : State) : CsrOut → Out
  | .ok t => .next t
  | .trap cause detail addr => .next (takeTrap s k cause (csrDetail (s.core k).standing csr cause detail) addr (s.core k).pc)
  | .wait => .next s

end Sys2Proof.Machine
end

