-- ==== Sys2Proof/Machine/GalleryOps.lean ====
section
/-!
DEFINITION. Sys2Proof/Machine/GalleryOps.lean: gallery tables, their formats and writes (R302 to R305, R324 to R326), the run
of one stage on one record (R303 to R306, R314), and the end of a record (R307, R309, R323, R330).
-/
namespace Sys2Proof.Machine
open Sys2Proof

/-! Classes. -/

def Die.gclass (d : Die) (c : Nat) : GClass := tget d.gal.cls {} c
def Die.setClass (d : Die) (c : Nat) (g : GClass) : Die := { d with gal := { d.gal with cls := tset d.gal.cls c g } }
def State.updClass (s : State) (die c : Nat) (f : GClass → GClass) : State :=
  s.updDie die (fun d => d.setClass c (f (d.gclass c)))

/-- A dropped record is counted (R309, R318). -/
def countDrop (s : State) (die c : Nat) : State :=
  (s.updClass die c (fun g => { g with drop := sat32 (g.drop + 1) })).tally die (0x310 + c) c 1

def GClass.bound (g : GClass) (stage : Nat) : Bool := g.stages / 2 ^ stage % 2 == 1
/-- Counter window (R316): base and size. -/
def GClass.base (g : GClass) : Nat := wf g.cwin 24 8 * 256
def GClass.size (g : GClass) : Nat := (wf g.cwin 8 8 + 1) * 256

/-- The issuing core owns a class (R322). -/
def ownsClass (s : State) (k c : Nat) : Bool :=
  let g := (s.die (coreDie k)).gclass c
  (s.core k).priv == Priv.service || (g.ownValid && g.ownPart == s.corePart k)

/-! Formats. -/

/-- A malformed stage configuration (R302). -/
def confBad (w : Word) : Bool :=
  let kind := wf w 30 2
  let kn := wf w 16 2
  w.getLsbD 18 || (match kind with
    | 0 => w.getLsbD 29 || kn != 0
    | 1 => 1 < kn
    | 2 => false
    | _ => kn != 0)

/-- A malformed slot of an action word for a class (R304, R305, R309, R317). -/
def slotBad (cls : Nat) (w : Word) : Bool :=
  if wf w 30 2 = 0 then w != 0
  else match wf w 26 4 with
  | 1 | 2 | 4 | 7 => false
  | 3 => wf w 0 18 != 0
  | 5 => wf w 0 19 != 0 || (if cls = 0 then !(wf w 23 3 == 3 || wf w 23 3 == 4) else 3 < wf w 23 3)
  | 6 => wf w 0 26 != 0 || cls == 0
  | _ => true

/-- A CNT whose index lies outside the class's window (R314). -/
def slotOutside (g : GClass) (w : Word) : Bool := wf w 30 2 != 0 && wf w 26 4 == 4 && g.size ≤ wf w 10 16

/-- A malformed entry word VE (R325). -/
def veBad (w : Word) : Bool := wf w 10 21 != 0

/-! Descriptors (R324). -/

def dTbl (a : Word) : Nat := wf a 29 3
def dCls (a : Word) : Nat := wf a 26 3
def dStage (a : Word) : Nat := wf a 22 4
def dIndex (a : Word) : Nat := wf a 0 14
def tblSize (t : Nat) : Nat := [1, 16384, 1024, 512, 1024].getD t 0

def descriptorBad (g : GClass) (a : Word) : Bool :=
  4 < dTbl a || wf a 14 8 != 0 || tblSize (dTbl a) ≤ dIndex a || !g.bound (dStage a)

/-- Bytes of data that a GTW reads (R325). -/
def gtwBytes (a : Word) : Nat := if dTbl a = 2 then 48 else 16

/-- The cause of malformed data (R325): ACTION_FORMAT, or TABLE_INDEX for a counter index. -/
def gtwFault (g : GClass) (a : Word) (w : List Word) : Option Nat :=
  let x (i : Nat) : Word := w.getD i 0
  match dTbl a with
  | 0 => if confBad (x 0) || x 1 != 0 || x 2 != 0 || x 3 != 0 then some 0x42 else none
  | 1 => if veBad (x 2) || x 3 != 0 then some 0x42 else none
  | 2 => if veBad (x 8) || x 9 != 0 || x 10 != 0 || x 11 != 0 then some 0x42 else none
  | 3 => if veBad (x 2) || x 3 != 0 then some 0x42 else none
  | _ => if w.any (slotBad (dCls a)) then some 0x42 else if w.any (slotOutside g) then some 0x41 else none

/-- Words, low first, as a number. -/
def natOf (w : List Word) : Nat := w.foldr (fun x n => n * 2 ^ 32 + x.toNat) 0

/-- An entry that is present or absent. -/
def tput {α : Type} (t : Tbl α) (i : Nat) (valid : Bool) (x : α) : Tbl α := if valid then tset t i x else terase t i

/-- The write of one entry (R325). -/
def GTab.write (t : GTab) (tbl i : Nat) (w : List Word) : GTab :=
  let x (i : Nat) : Word := w.getD i 0
  match tbl with
  | 0 => { t with conf := x 0 }
  | 1 => { t with exact := tput t.exact i ((x 2).getLsbD 31) (natOf (w.take 2), wf (x 2) 0 10) }
  | 2 => { t with tern := tput t.tern i ((x 8).getLsbD 31) (natOf (w.take 4), natOf ((w.drop 4).take 4), wf (x 8) 0 10) }
  | 3 => { t with range := tput t.range i ((x 2).getLsbD 31) ((x 0).toNat, (x 1).toNat, wf (x 2) 0 10) }
  | _ => { t with act := tput t.act i (w.any (· != 0)) w }

/-- Entries lo to hi - 1 of a table cleared (R326). -/
def tclear {α : Type} (t : Tbl α) (lo hi : Nat) : Tbl α := t.filter (fun e => e.1 < lo || hi ≤ e.1)

def GTab.clear (t : GTab) (tbl lo hi : Nat) : GTab :=
  match tbl with
  | 0 => { t with conf := 0 }
  | 1 => { t with exact := tclear t.exact lo hi }
  | 2 => { t with tern := tclear t.tern lo hi }
  | 3 => { t with range := tclear t.range lo hi }
  | _ => { t with act := tclear t.act lo hi }

/-! One stage on one record. -/

def GRec.get (r : GRec) (n : Nat) : Word := r.f.getD n 0
def GRec.put (r : GRec) (n : Nat) (v : Word) : GRec :=
  { r with f := r.f.set n v, poison := r.poison &&& ~~~(1 <<< n : BitVec 16) }

/-- A slot's effect (R305, R306, R314); none where it reads a poisoned field. -/
def runSlot (base : Nat) (x : GRec × Tbl Nat) (w : Word) : Option (GRec × Tbl Nat) :=
  let r := x.1
  let runs := match wf w 30 2 with
    | 0 => false
    | 1 => true
    | 2 => !r.c
    | _ => r.c
  let d := wf w 22 4
  let imm : Word := ((BitVec.ofNat 22 w.toNat).signExtend 32)
  let reads (n : Nat) (y : GRec) : Option (GRec × Tbl Nat) := if r.poison.getLsbD n then none else some (y, x.2)
  if !runs then some x
  else match wf w 26 4 with
  | 1 => some (r.put d (BitVec.ofNat 32 (wf w 0 22)), x.2)
  | 2 => reads d (r.put d (r.get d + imm))
  | 3 => reads (wf w 18 4) (r.put d (r.get (wf w 18 4)))
  | 4 =>
    let i := base + wf w 10 16
    let v := tget x.2 0 i
    let l := wf w 0 10
    if l ≠ 0 ∧ l ≤ v then some ({ r with c := true }, x.2)
    else some ({ r with c := false }, tset x.2 i ((v + 1) % 2 ^ 64))
  | 5 => some ({ r with kind := wf w 23 3, k := wf w 19 4 }, x.2)
  | 6 => some ({ r with rq := true }, x.2)
  | 7 => reads d (r.put d (r.get d &&& imm))
  | _ => some x

/-- Fields of the key, low part first (R302). -/
def keyFields (conf : Word) : List Nat := (List.range (wf conf 16 2 + 1)).map (fun i => wf conf (4 * i) 4)

/-- The action index that a lookup selects (R303): the lowest-numbered matching entry, or the miss action. -/
def GTab.select (t : GTab) (r : GRec) : Option Nat :=
  let key := natOf ((keyFields t.conf).map r.get)
  let hit : Option Nat := match wf t.conf 30 2 with
    | 1 => (t.exact.find? (fun e => e.2.1 == key)).map (·.2.2)
    | 2 => (t.tern.find? (fun e => (key ^^^ e.2.1) &&& e.2.2.1 == 0)).map (·.2.2.2)
    | _ => (t.range.find? (fun e => e.2.1 ≤ key && key ≤ e.2.2.1)).map (·.2.2.2)
  if hit.isSome then hit else if t.conf.getLsbD 29 then some (wf t.conf 19 10) else none

/-- The slots of an action word run in order until one reads a poisoned field: what they made, and whether the record is dropped. -/
def runSlots (base : Nat) : List Word → GRec × Tbl Nat → (GRec × Tbl Nat) × Bool
  | [], x => (x, false)
  | w :: ws, x =>
    match runSlot base x w with
    | some y => runSlots base ws y
    | none => (x, true)

/-- A stage's run on a record (R303, R306), and whether it is dropped for a poisoned field that the stage reads. -/
def GTab.run (t : GTab) (base : Nat) (r : GRec) (ctr : Tbl Nat) : (GRec × Tbl Nat) × Bool :=
  let r := { r with c := false }
  if wf t.conf 30 2 = 0 then ((r, ctr), false)
  else if (keyFields t.conf).any (fun n => r.poison.getLsbD n) then ((r, ctr), true)
  else match t.select r with
  | none => ((r, ctr), false)
  | some a => runSlots base (tget t.act [] a) (r, ctr)

/-! The end of a record. -/

/-- A record's command of its source core, if it still stands in the queue. -/
def GRec.owner (s : State) (r : GRec) : Option Cmd :=
  match r.cmd with
  | none => none
  | some n => (s.core r.src).gal.queue.find? (fun q => q.seq == n)

/-- A command of core k's gallery queue is replaced by its number. -/
def GalCore.setCmd (g : GalCore) (n : Nat) (f : Cmd → Cmd) : GalCore :=
  { g with queue := g.queue.map (fun q => if q.seq = n then f q else q) }

/-- The result word of R329, its handle 0xFFFF. -/
def GRec.result (r : GRec) (status : Nat) : Word :=
  BitVec.ofNat 32 (status * 2 ^ 28 + (if r.lim then 2 ^ 27 else 0) + r.pass * 2 ^ 25 + r.gen * 2 ^ 16 + 0xFFFF)

/-- A record ends with a status: its command is done, and a returned record waits for its handle. A record whose task or
command is gone is dropped where it would return (R323, R329, R336). -/
def endRecord (s : State) (die : Nat) (r : GRec) (status : Nat) : State :=
  let returns := status = 0 ∨ 4 ≤ status
  match r.cmd with
  | none => s
  | some n =>
    match r.owner s with
    | none => if returns then countDrop s die r.cls else s
    | some q =>
      let s := s.updCore r.src (fun c => { c with gal := c.gal.setCmd n (fun q =>
        { q with done := some (r.result status), ret := if returns && !q.dead then some r else none }) })
      if returns && q.dead then countDrop s die r.cls else s

/-- A record of a command that is exported returns nothing. The result word's STATUS is a free value from 0 to 7: R329 names none for
it (log 77). -/
def endExport (s : State) (r : GRec) : State :=
  match r.owner s with
  | none => s
  | some _ =>
    { s with fresh := s.fresh + 1 }.updCore r.src (fun c => { c with gal := c.gal.setCmd (r.cmd.getD 0) (fun q =>
      { q with done := some (r.result ((Config.freeWord s.fresh).toNat % 8)), ret := none }) })

/-- The launch that a die knows by a handle, where it has not completed (R309, R431). -/
def State.byHandle (s : State) (die h : Nat) : Option (Nat × Launch) :=
  s.launches.find? (fun l => !l.2.done && (match tfind l.2.parts die with
    | some p => p.handle == h && !p.left
    | none => false))

end Sys2Proof.Machine
end

