-- ==== Sys2Proof/Machine/Gallery.lean ====
section
/-!
DEFINITION. Sys2Proof/Machine/Gallery.lean: the gallery instructions (R321 to R331) and the gallery's moves (R300, R306 to
R313, R328, R333, R334).
-/
namespace Sys2Proof.Machine
open Sys2Proof

/-! At the core (R322). -/

/-- A gallery instruction: its checks in the order of R322, then an engine issue at D. The check gives a cause and address. -/
def galIssue (i : Instr) (u : Uses) (s : State) (cls : Vals → Nat) (check : Vals → GClass → Option (Nat × Word)) : Out :=
  offered i u s <| gate i u s fun v s =>
    if !ownsClass s s.cur (cls v) then .next (raiseD s 0x40 v.a 0)
    else match check v ((s.die (coreDie s.cur)).gclass (cls v)) with
    | some (cause, addr) => .next (raiseD s cause (if cause = 0x04 then instrWord i else v.a) addr)
    | none => engineIssue i u .GL v s []

def idxIf (b : Bool) : Option (Nat × Word) := if b then some (0x41, 0) else none

/-- `GTW` (R325). -/
def execGtw (a b : Src) (s : State) : Out :=
  galIssue (.gtw a b) { a, b, engs := [.GL], moves := true } s (fun v => dCls v.a) fun v g =>
    if descriptorBad g v.a then some (0x41, 0) else if v.b.toNat % 16 ≠ 0 then some (0x04, v.b) else none
/-- `GTD` (R326). -/
def execGtd (a b : Src) (s : State) : Out :=
  galIssue (.gtd a b) { a, b, engs := [.GL], moves := true } s (fun v => dCls v.a) fun v g =>
    idxIf (descriptorBad g v.a || tblSize (dTbl v.a) < dIndex v.a + v.b.toNat)
/-- `GCMT` (R327). -/
def execGcmt (d : Dst) (a : Src) (s : State) : Out :=
  galIssue (.gcmt d a) { a, dst := d, engs := [.GL], moves := true } s (fun v => v.a.toNat % 8) fun v _ => idxIf (8 ≤ v.a.toNat)
/-- `GINJ` (R329). -/
def execGinj (a b : Src) (s : State) : Out :=
  galIssue (.ginj a b) { a, b, engs := [.GL], moves := true } s (fun v => v.a.toNat % 8) fun v _ =>
    if 8 ≤ v.a.toNat then some (0x41, 0) else if v.b.toNat % 64 ≠ 0 then some (0x04, v.b) else none
/-- `GCTR` (R331). -/
def execGctr (d : Dst) (a b : Src) (s : State) : Out :=
  galIssue (.gctr d a b) { a, b, dst := d, engs := [.GL], moves := true } s (fun v => wf v.a 16 3) fun v g =>
    idxIf (v.a.toNat / 2 ^ 19 != 0 || v.b.toNat / 4 != 0 || g.size ≤ wf v.a 0 16)
/-- `GBIND` (R328): a stage outside STGMASK is CLASS_NOT_OWNED, which comes before TABLE_INDEX (R322). -/
def execGbind (a b : Src) (s : State) : Out :=
  galIssue (.gbind a b) { a, b, engs := [.GL], moves := true } s (fun v => v.a.toNat % 8) fun v g =>
    if wf v.b 0 16 &&& g.stgmask ≠ wf v.b 0 16 then some (0x40, 0)
    else idxIf (8 ≤ v.a.toNat || v.b.toNat / 2 ^ 18 != 0)

/-- `GTAKE` (R330): no engine issue; the record's fields enter the phase buffer as stores. -/
def execGtake (a b : Src) (s : State) : Out :=
  let i : Instr := .gtake a b
  let u : Uses := { a, b, engs := [.GL], moves := true }
  gate i u s fun v s =>
    let k := s.cur
    let h := v.a.toNat % 16
    let free (s : State) : State := s.updCore k (fun c => { c with gal := { c.gal with slots := terase c.gal.slots h } })
    match tfind (s.core k).gal.slots h with
    | none => .next (raiseD s 0x41 v.a 0)
    | some r =>
      if v.a.toNat / 2 ^ 17 ≠ 0 ∨ wf v.a 4 12 ≠ 0 then .next (raiseD s 0x41 v.a 0)
      else if v.a.getLsbD 16 then
        if b ≠ ⟨.x 0, false⟩ then .next (raiseD s 0x02 0 0) else .next (retireNext u (free s) v.poison)
      else if v.b.toNat % 4 ≠ 0 then .next (raise i s 0x04 v.b)
      else match translateWords s (coreDie k) (s.core k).masid ((List.range 16).map (fun i => (v.b.toNat + 4 * i) % 2 ^ 32)) [] with
      | (.inr (cause, detail, va), s) => .next (raiseD s cause (detailOr i cause detail) (BitVec.ofNat 32 va))
      | (.inl pas, s) =>
        if pas.any (fun p => s.ms.owned (p.1 / 64)) then .next (stand i s)
        else .next (retireNext u (free (s.updCore k (fun c =>
          c.storeWords s.ck v.b.toNat (v.poison || r.poison != 0) pas ((r.f.map wordBytes).flatten)))) v.poison)

/-! Accept, and effects in order. -/

def isGbind : Instr → Bool
  | .gbind _ _ => true
  | _ => false

/-- The gallery accepts the command that core k offers (R322, R323): commands take die-wide numbers in accept order. A GBIND is not
accepted before its class's injection queue is empty (R313, log 26). -/
def galAccept (s : State) (k : Nat) (q : Cmd) : State :=
  let c := s.core k
  if !c.acceptable .GL || (isGbind q.instr && !((s.die (coreDie k)).gclass (q.a.toNat % 8)).injq.isEmpty) then s
  else
    let n := (s.die (coreDie k)).gal.next
    let s := s.updDie (coreDie k) (fun d => { d with gal := { d.gal with next := n + 1 } })
    finishOffer s k (fun c =>
      let c := ({ c with gal := { c.gal with queue := c.gal.queue ++ [{ q with seq := n }] } } : Core).bump .GL 1
      let p (d : Dst) : Core := c.produce { op := .engine .GL, d, b := q.a, pc := q.pc, instr := q.word, issuedAt := s.ck }
      match q.instr with
      | .gcmt d _ => p d
      | .gctr d _ _ => p d
      | _ => c)

/-- The command of a core that takes effect next: the oldest that has not, unless one before it faulted (R323, R333). -/
def GalCore.turn (g : GalCore) : Option Cmd :=
  if g.queue.any (·.cause.isSome) then none else g.queue.find? (fun q => !q.started)

/-- A command of core k has taken effect, with its result or its cause. -/
def galDone (s : State) (k : Nat) (q : Cmd) (r : Option Word) (cause : Option Waiting) : State :=
  s.updCore k (fun c => { c with gal := { c.gal.setCmd q.seq (fun x => { x with started := true, done := r, cause }) with rearmed := none } })

/-- CLASS and STAGE of GFAULT for a command (R315, R333). -/
def galFlt (q : Cmd) (cause : Nat) (addr : Word) : FaultRec :=
  match q.instr with
  | .gtw _ _ | .gtd _ _ => { cause, f1 := dCls q.a, f2 := dStage q.a, addr }
  | _ => { cause, f1 := q.a.toNat % 8, f2 := 0xFF, addr }

/-- A cause met by a command at its turn (R333): a page cause is held, another is kept for its completion. -/
def galCause (s : State) (k : Nat) (q : Cmd) (cause : Nat) (detail addr : Word) : State :=
  let w : Waiting := ⟨cause, if cause = 0x60 then detail else q.a, addr⟩
  if isPage cause then holdCmd s k .GL q (galFlt q cause addr) w else galDone s k q (some 0) (some w)

/-- Class of a command. -/
def galClass (q : Cmd) : Nat :=
  match q.instr with
  | .gtw _ _ | .gtd _ _ => dCls q.a
  | .gctr _ _ _ => wf q.a 16 3
  | _ => q.a.toNat % 8

/-- Engine reads at the command's turn (R325, R329), and the counter read (R331). A GINJ's record, once read, enters its class's
injection queue when there is room. -/
def galRead (s : State) (k : Nat) : State :=
  let c := s.core k
  let die := coreDie k
  match c.gal.turn with
  | none => s
  | some q =>
    let g := (s.die die).gclass (galClass q)
    if !engineReady s k .GL q.asid then s
    else match q.instr with
    | .gtw _ _ =>
      if g.old || q.rd.isSome then s
      else match engineRead s .GL k q.seq q.asid q.pc (vaRange q.b.toNat (gtwBytes q.a)) with
      | .wait => s
      | .cause cause detail va s => galCause s k q cause detail (BitVec.ofNat 32 va)
      | .ok bs s => s.updCore k (fun c => { c with gal := { c.gal.setCmd q.seq (fun x => { x with rd := some bs }) with rearmed := none } })
    | .ginj _ _ =>
      match q.rd with
      | none =>
        match engineRead s .GL k q.seq q.asid q.pc (vaRange q.b.toNat 64) with
        | .wait => s
        | .cause cause detail va s => galCause s k q cause detail (BitVec.ofNat 32 va)
        | .ok bs s => s.updCore k (fun c => { c with gal := { c.gal.setCmd q.seq (fun x => { x with rd := some bs }) with rearmed := none } })
      | some bs =>
        if 64 ≤ g.injq.length then s else
        let p (n : Nat) : Bool := ((bs.drop (4 * n)).take 4).any (·.2)
        let r : GRec := {
          cls := galClass q, src := k, kind := (if galClass q = 0 then 3 else 0), f := wordsOf 16 (bs.map (·.1)),
          poison := (List.range 16).foldl (fun m n => if p n then m ||| (1 <<< n : BitVec 16) else m) 0, cmd := some q.seq }
        galDone (s.updClass die (galClass q) (fun g => { g with injq := g.injq ++ [r] })) k q none none
    | .gctr _ _ _ =>
      let i := g.base + wf q.a 0 16
      let v := tget (s.die die).gal.ctr 0 i
      let s := if q.b.getLsbD 1 then s.updDie die (fun d => { d with gal := { d.gal with ctr := tset d.gal.ctr i 0 } }) else s
      galDone s k q (some (BitVec.ofNat 32 (if q.b.getLsbD 0 then v / 2 ^ 32 else v))) none
    | _ => s

/-! Shadow writes, commit and binding (R311 to R313, R325 to R328). -/

/-- GALLERY_SHADOW_WRITE (R325, R326, R334): the GTW or GTD at core k's turn takes effect while OLD = 0. -/
def execGalleryShadowWrite (k : Nat) (s : State) : Out :=
  let die := coreDie k
  match (s.core k).gal.turn with
  | none => .next s
  | some q =>
    let g := (s.die die).gclass (dCls q.a)
    let st := dStage q.a
    let tab := tget (s.die die).gal.shadow {} st
    let put (t : GTab) (poison : Bool) : State :=
      let s := consume s k q.pc poison
      galDone (s.updDie die (fun d => { d with gal := { d.gal with shadow := tset d.gal.shadow st t } })) k q (some 0) none
    if g.old || !engineReady s k .GL q.asid then .next s
    else match q.instr, q.rd with
    | .gtw _ _, some bs =>
      let w := wordsOf (gtwBytes q.a / 4) (bs.map (·.1))
      if !g.bound st then .next (galCause s k q 0x40 0 0)
      else match gtwFault g q.a w with
      | some cause => .next (galCause s k q cause 0 (if cause = 0x42 then q.b else 0))
      | none => .next (put (tab.write (dTbl q.a) (dIndex q.a) w) (bs.any (·.2)))
    | .gtd _ _, _ =>
      if !g.bound st then .next (galCause s k q 0x40 0 0)
      else
        let hi := if q.b = 0 then tblSize (dTbl q.a) else dIndex q.a + q.b.toNat
        .next (put (tab.clear (dTbl q.a) (dIndex q.a) hi) false)
    | _, _ => .next s

/-- Cores of a die that run tasks, and its service core. -/
def dieCores (die : Nat) : List Nat := (List.range 128).map (· + 128 * die) ++ [Config.cores + die]

/-- The command at the turn of some core of the die that satisfies a test, oldest accept first. -/
def galTurn (s : State) (die : Nat) (p : Cmd → Bool) : Option (Nat × Cmd) :=
  ((dieCores die).filterMap (fun k => ((s.core k).gal.turn.filter p).map (fun q => (k, q)))).foldl
    (fun b x => match b with
      | none => some x
      | some y => if x.2.seq < y.2.seq then some x else b) none

def isGcmt : Instr → Bool
  | .gcmt _ _ => true
  | _ => false
def isShadow : Instr → Bool
  | .gtw _ _ | .gtd _ _ => true
  | _ => false

/-- A GTW or GTD of the class accepted before a number has not yet taken effect (R327). -/
def shadowPending (s : State) (die c n : Nat) : Bool :=
  (dieCores die).any (fun k => (s.core k).gal.queue.any (fun q =>
    isShadow q.instr && dCls q.a == c && q.seq < n && !q.started))

/-- Stages of a class. -/
def GClass.stageList (g : GClass) : List Nat := (List.range 16).filter g.bound

/-- Copies the tables of stages from one copy to another. -/
def copyTabs (src dst : Tbl GTab) (stages : List Nat) : Tbl GTab :=
  stages.foldl (fun t st => match tfind src st with
    | some x => tset t st x
    | none => terase t st) dst

/-- The shadow set of a class becomes its active set, and the active set its old one, under the next generation (R312). -/
def Die.commit (d : Die) (c : Nat) : Die :=
  let g := d.gclass c
  let d := { d with gal := { d.gal with
    oldTab := copyTabs d.gal.active d.gal.oldTab g.stageList,
    active := copyTabs d.gal.shadow d.gal.active g.stageList } }
  d.setClass c { g with gen := (g.gen + 1) % 256, old := true }

/-- GALLERY_COMMIT (R312, R327): the oldest GCMT of the class commits its shadow set in one move. -/
def execGalleryCommit (die c : Nat) (s : State) : Out :=
  match galTurn s die (fun q => isGcmt q.instr && galClass q == c) with
  | none => .next s
  | some (k, q) =>
    let g := (s.die die).gclass c
    if g.old || shadowPending s die c q.seq || !engineReady s k .GL q.asid then .next s
    else
      let gen := (g.gen + 1) % 256
      let s := s.updDie die (·.commit c)
      .next (galDone s k q (some (BitVec.ofNat 32 gen)) none)

/-- GALLERY_SHADOW_COPY_DONE (R312): once no record of the old generation is in the gallery, the new set is copied. -/
def execGalleryShadowCopyDone (die c : Nat) (s : State) : Out :=
  let d := s.die die
  let g := d.gclass c
  if !g.old || d.gal.flight.any (fun r => r.cls == c && r.gen != g.gen) then .next s
  else .next (s.updDie die (fun d =>
    let d := { d with gal := { d.gal with
      shadow := copyTabs d.gal.active d.gal.shadow g.stageList, oldTab := copyTabs [] d.gal.oldTab g.stageList } }
    d.setClass c { g with old := false }))

/-- Both copies of stages at their reset values (R313). -/
def Die.resetStages (d : Die) (stages : List Nat) : Die :=
  { d with gal := { d.gal with
    active := copyTabs [] d.gal.active stages, shadow := copyTabs [] d.gal.shadow stages, oldTab := copyTabs [] d.gal.oldTab stages } }

/-- GALLERY_BIND_EFFECT (R313, R328): the oldest GBIND of the class, once none of its records is in the gallery or its exit
buffer. -/
def execGalleryBindEffect (die c : Nat) (s : State) : Out :=
  match galTurn s die (fun q => isGbind q.instr && galClass q == c) with
  | none => .next s
  | some (k, q) =>
    let d := s.die die
    let g := d.gclass c
    if g.old || d.gal.flight.any (fun r => r.cls == c) || !g.exitq.isEmpty || !engineReady s k .GL q.asid then .next s
    else if c = 0 ∧ wf q.b 16 2 ≠ 0 then .next (galCause s k q 0x42 0 0)
    else
      let mask := wf q.b 0 16
      let changed := (List.range 16).filter (fun st => g.bound st != (mask / 2 ^ st % 2 == 1))
      let s := s.updDie die (fun d => (d.resetStages changed).setClass c { g with stages := mask, rlim := wf q.b 16 2 })
      .next (galDone s k q (some 0) none)

/-! Records. -/

/-- A GBIND of the class is accepted and not yet effective (R328). -/
def bindPending (s : State) (die c : Nat) : Bool :=
  (dieCores die).any (fun k => (s.core k).gal.queue.any (fun q => isGbind q.instr && galClass q == c && !q.started))

/-- The class may have its next record admitted (R300, R310, R328). -/
def admissible (s : State) (die c : Nat) : Bool :=
  let g := (s.die die).gclass c
  !g.injq.isEmpty && g.exitq.length < 16 && !bindPending s die c

/-- A rule matches a record: its kind, and its source code under the mask (R425). -/
def ruleMatches (r : List Word) (f0 : Word) : Bool :=
  wf (r.getD 0 0) 28 4 == wf f0 28 4 &&
    (wf (r.getD 0 0) 0 16 &&& wf (r.getD 1 0) 0 16) == (wf f0 0 16 &&& wf (r.getD 1 0) 0 16)

/-- A class-0 record of a tenant's partition, whose entries in class 0's tables are those compiled from the partition's policy; every
other record of class 0 follows the entries that the service core has written (R319, log 60). -/
def GRec.byPolicy (r : GRec) : Bool := r.cls == 0 && wf (r.f.getD 0 0) 16 6 < Config.partitions

/-- The policy reads a poisoned field of the record (R306): its kind, partition and source code, or a field that COARSEN masks. -/
def policyPoison (s : State) (r : GRec) : Bool :=
  let f0 := r.f.getD 0 0
  r.poison.getLsbD 0 || match (s.part (wf f0 16 6)).policy.find? (ruleMatches · f0) with
    | some q => wf (q.getD 2 0) 0 4 == 2 && r.poison.toNat / 16 != 0
    | none => false

/-- The entries compiled from a partition's policy decide its class-0 records alone, as one whole set that holds at the admission
(R312, R319, R425): the first rule that matches; without one the record is withheld. -/
def applyPolicy (s : State) (r : GRec) : GRec × State :=
  let f0 := r.f.getD 0 0
  let p := wf f0 16 6
  if !r.byPolicy then (r, s)
  else
    let part := s.part p
    match part.policy.findIdx? (ruleMatches · f0) with
    | none => ({ r with kind := 3 }, s)
    | some n =>
      let q := part.policy.getD n []
      let par := wf (q.getD 2 0) 8 24
      match wf (q.getD 2 0) 0 4 with
      | 1 => ({ r with kind := 4 }, s)
      | 2 => ({ r with kind := 4, f := r.f.mapIdx (fun i w => if 4 ≤ i then w &&& q.getD 3 0 else w) }, s)
      | 3 =>
        let c := tget part.polCount 0 n + 1
        let s' := s.updPart p (fun x => { x with polCount := tset x.polCount n (if c < par then c else 0) })
        if c < par then ({ r with kind := 3 }, s')
        else
          let f : List Word := [f0 &&& 0x0FFFFFFF, 0x3FF, BitVec.ofNat 32 s.ck, BitVec.ofNat 32 (s.ck / 2 ^ 32), BitVec.ofNat 32 par, 0] ++
            (List.range 3).map (fun i => Config.freeWord (s.fresh + i)) ++ List.replicate 7 0
          ({ r with kind := 4, f }, { s' with fresh := s.fresh + 3 })
      | _ => ({ r with kind := 3 }, s)

/-- A record leaves the chain. -/
def unflight (s : State) (die n : Nat) : State :=
  s.updDie die (fun d => { d with gal := { d.gal with flight := d.gal.flight.eraseIdx n } })

/-- A record is dropped for its poison: POISON_CONSUMED becomes pending for its source core, where it has one (R306). -/
def poisonDrop (s : State) (die : Nat) (r : GRec) : State :=
  if r.cmd.isSome then endRecord (pendImp s r.src 0x71 (((r.owner s).map (·.pc)).getD 0xFFFFFFFF) 0) die r 3
  else countDrop s die r.cls

/-- The record leaves the chain to recirculate (R307, R308). -/
def GRec.recirculates (r : GRec) (d : Die) : Bool := r.stage == 16 && r.rq && r.pass < (d.gclass r.cls).rlim

/-- The admission slot is free for a new record: no record has still to enter stage 0, the chain is not full, and none recirculates,
which goes before any new record (R300). -/
def Die.slotFree (d : Die) : Bool :=
  d.gal.flight.length < 16 && d.gal.flight.all (fun r => r.stage != 0 && !r.recirculates d)

/-- GALLERY_ADMIT (R300, R334): the next record of class c enters stage 0, with the active generation. -/
def execGalleryAdmit (die c : Nat) (s : State) : Out :=
  let d := s.die die
  if !d.slotFree then .next s
  else match ((List.range 8).map (fun i => (d.gal.last + 1 + i) % 8)).find? (admissible s die) with
  | none => .next s
  | some n =>
    if n ≠ c then .next s
    else match (d.gclass c).injq with
    | [] => .next s
    | r :: rest =>
      if r.byPolicy && policyPoison s r then
        .next (poisonDrop (s.updClass die c (fun g => { g with injq := rest })) die r)
      else
      let (r, s) := applyPolicy s r
      .next ((s.updDie die (fun d =>
        let g := d.gclass c
        let d := d.setClass c { g with injq := rest }
        { d with gal := { d.gal with flight := d.gal.flight ++ [{ r with gen := g.gen, stage := 0, pass := 0 }], last := c } })).tally
          die (0x300 + c) c 1)

/-- GALLERY_STAGE (R299, R300, R306, R334): the n-th record in the chain passes its next stage, which the record before it has left;
a record that a policy has decided meets no other entry. -/
def execGalleryStage (die n : Nat) (s : State) : Out :=
  let d := s.die die
  match d.gal.flight[n]? with
  | none => .next s
  | some r =>
    if 16 ≤ r.stage || (d.gal.flight.take n).any (fun x => x.stage ≤ r.stage + 1) then .next s
    else
      let g := d.gclass r.cls
      let tab := tget (if r.gen = g.gen then d.gal.active else d.gal.oldTab) {} r.stage
      let put (r : GRec) (ctr : Tbl Nat) : State :=
        s.updDie die (fun d => { d with gal := { d.gal with flight := d.gal.flight.set n { r with stage := r.stage + 1 }, ctr } })
      if !g.bound r.stage || r.byPolicy then .next (put { r with c := false } d.gal.ctr)
      else
        let x := tab.run g.base r d.gal.ctr
        if x.2 then .next (poisonDrop (unflight (put x.1.1 x.1.2) die n) die r) else .next (put x.1.1 x.1.2)

/-- The record waits in its class's exit buffer (R310). -/
def toExit (s : State) (die : Nat) (r : GRec) : State := s.updClass die r.cls (fun g => { g with exitq := g.exitq ++ [r] })

/-- A RANK record's channel and rank, or none for CHANNEL (R309). -/
def rankOf (s : State) (r : GRec) : Option (Nat × Nat) :=
  let w := r.get r.k
  if wf w 28 4 ≠ 0 ∨ (s.core r.src).rank = none ∨ (resolve s r.src (wf w 0 24)).1 = none then none
  else some (wf w 24 4, wf w 0 24)

/-- The launch and landing that a LANDING record names, or none for NOLAND (R309). -/
def landingOf (s : State) (die : Nat) (r : GRec) : Option (Nat × Nat) :=
  let w := r.get r.k
  match s.byHandle die (wf w 8 16) with
  | some (l, x) => if wf w 0 3 + 1 < x.flights.length then some (l, wf w 0 3) else none
  | none => none

/-- The sink of a record that leaves for good (R309). -/
def sink (s : State) (die : Nat) (r : GRec) : State :=
  match r.kind with
  | 0 => endRecord s die r 0
  | 1 => if (rankOf s r).isSome then toExit s die r else endRecord s die r 4
  | 2 =>
    match landingOf s die r with
    | some x => toExit s die { r with land := some x }
    | none => endRecord s die r 5
  | 4 => endExport { s with exported := s.exported ++ [r.f] } r
  | _ => endRecord (countDrop s die r.cls) die r 3

/-- GALLERY_LEAVE (R307, R309): the oldest record leaves stage 15, to recirculate or to its sink. -/
def execGalleryLeave (die n : Nat) (s : State) : Out :=
  let d := s.die die
  match n, d.gal.flight with
  | 0, r :: _ =>
    if r.stage < 16 || (r.recirculates d && d.gal.flight.any (·.stage == 0)) then .next s
    else
      let g := d.gclass r.cls
      let s := unflight s die 0
      if r.rq && r.pass < g.rlim then
        .next (s.updDie die (fun d => { d with gal := { d.gal with
          flight := d.gal.flight ++ [{ r with pass := r.pass + 1, stage := 0, c := false, rq := false }] } }))
      else if r.rq then
        let s := (s.updClass die r.cls (fun g => { g with limhit := sat32 (g.limhit + 1) })).tally die (0x320 + r.cls) r.cls 1
        .next (sink s die { r with lim := true })
      else .next (sink s die r)
  | _, _ => .next s

/-- The bulk message of a RANK record (R145, R309). -/
def GRec.message (s : State) (r : GRec) (ch : Nat) : Msg :=
  mkMsg (r.f.take 8) 0 ch ((s.core r.src).rank.getD 0) ((r.f.map wordBytes).flatten) (r.poison != 0)

/-- EXIT_BUFFER_RELEASE (R310): the head of class c's exit buffer is accepted by the network interface or its landing. -/
def execExitBufferRelease (die c : Nat) (s : State) : Out :=
  match ((s.die die).gclass c).exitq with
  | [] => .next s
  | r :: rest =>
    let pop (s : State) : State := s.updClass die c (fun g => { g with exitq := rest })
    match r.land with
    | some (l, f) =>
      match pushItem s l die f ((r.f.drop 12).take 4) with
      | some s => .next (endRecord (pop s) die r 2)
      | none => .next s
    | none =>
      if r.sent.isSome then .next s
      else match rankOf s r with
      | none => .next (endRecord (pop s) die r 4)
      | some (ch, rank) =>
        match resolve s r.src rank with
        | (none, _) => .next (endRecord (pop s) die r 4)
        | (some w, s) =>
          if entryPkg w = s.pkg then
            if (s.core (entryCore w)).fenced then .next (endRecord (pop s) die r 4)
            else match acceptMsg s (s.corePart r.src) rank (r.message s ch) with
            | some s => .next (endRecord (pop s) die r 1)
            | none => .next (endRecord (pop s) die r 6)
          else if s.peerLost (entryPkg w) then .next (endRecord (pop s) die r 4)
          else match sendPacket s (entryPkg w) (.message (entryCore w) rank (r.message s ch).words (r.message s ch).bulk) with
          | none => .next s
          | some (seq, s) => .next (s.updClass die c (fun g => { g with exitq := { r with sent := some (entryPkg w, seq) } :: rest }))

/-! Completion (R323, R329, R333). -/

/-- The gallery's part of ENGINE_COMPLETE: the oldest command of core k completes where it is done. -/
def galComplete (s : State) (k : Nat) : State :=
  let c := s.core k
  match c.gal.queue with
  | [] => s
  | q :: _ =>
    match q.done with
    | none => s
    | some v =>
      if !q.started || c.gal.waiting.isSome && q.cause.isSome then s
      else if q.dead then
        let s := match q.cause with
          | some w => faultCmd s k .GL q (galFlt q w.cause w.addr) w
          | none => s.updCore k (fun c => popCmd c .GL)
        if q.ret.isSome then countDrop s (coreDie k) (galClass q) else s
      else match q.cause with
      | some w =>
        let s := faultCmd s k .GL q (galFlt q w.cause w.addr) w
        if isGinj q.instr then
          s.updCore k (fun c => c.push 2 ⟨BitVec.ofNat 32 (7 * 2 ^ 28 + 0xFFFF), false⟩)
        else s
      | none =>
        s.updCore k (fun c =>
          let c := popCmd c .GL
          match q.instr with
          | .ginj _ _ =>
            match q.ret with
            | some r =>
              let h := (firstFree (fun i => (tfind c.gal.slots i).isNone) 16).getD 0
              ({ c with gal := { c.gal with slots := tset c.gal.slots h r } } : Core).push 2
                ⟨BitVec.ofNat 32 (v.toNat / 2 ^ 16 * 2 ^ 16 + h), false⟩
            | none => c.push 2 ⟨v, false⟩
          | .gcmt _ _ | .gctr _ _ _ => engineResult c s.ck .GL [v]
          | _ => c)

/-! Ownership (R316). -/

/-- The class holds a record. -/
def classBusy (s : State) (die c : Nat) : Bool :=
  let d := s.die die
  d.gal.flight.any (fun r => r.cls == c) || !(d.gclass c).injq.isEmpty || !(d.gclass c).exitq.isEmpty

/-- A write of GOWNc (R316): ownership of class c of a die changes, and its stages and counter window are reset. It waits
while the class holds a record; class 0 is never owned, and a partition number from 48 traps RESERVED_FIELD (DESIGN CHOICE, log 86). -/
def writeGown (die c : Nat) (v : Word) (s : State) : CsrOut :=
  if v.getLsbD 31 && c != 0 && Config.partitions ≤ wf v 16 6 then .trap 0x02 0 0
  else if classBusy s die c then .wait
  else .ok (s.updDie die (fun d =>
    let g := d.gclass c
    let d := d.resetStages g.stageList
    let d := { d with gal := { d.gal with ctr := d.gal.ctr.filter (fun x => x.1 < g.base || g.base + g.size ≤ x.1) } }
    d.setClass c { g with
      stages := 0, rlim := 0, old := false, ownValid := v.getLsbD 31 && c != 0, ownRsv := wf v 22 9, ownPart := wf v 16 6,
      stgmask := wf v 0 16 }))

/-- GOWN_WRITE (R316). -/
def execGownWrite (die c : Nat) (v : Word) (s : State) : Out :=
  (writeGown die c v s).out (Config.cores + die) (0xC40 + c) s

/-! Telemetry samples (R318). -/

/-- What a count is divided by in its record (R318): multiply-accumulates and link bytes by 2^20, copied bytes and lane-ck by 2^10. -/
def counterScale (code : Nat) : Nat :=
  if code = 0x103 ∨ code = 0x602 then 2 ^ 20 else if code = 0x504 ∨ code = 0x201 then 2 ^ 10 else 1

/-- One counter record. -/
def counterRecord (s : State) (die code unit part count len : Nat) : State :=
  if count = 0 then s
  else telemetry s die 0 part code (if code < 0x200 then unit else Config.cores + die) [BitVec.ofNat 32 count, BitVec.ofNat 32 (count / 2 ^ 32), BitVec.ofNat 32 len,
    BitVec.ofNat 32 (len / 2 ^ 32), BitVec.ofNat 32 unit]

/-- TELEMETRY_COUNTER_SAMPLE (R318): every 2^24 ck the die's counts of the interval enter class 0. -/
def execTelemetryCounterSample (die : Nat) (s : State) : Out :=
  let d := s.die die
  let len := s.ck - d.lastSample
  if len < 2 ^ 24 then .next s
  else
    let s := ((List.range 128).map (· + 128 * die)).foldl (fun s k => (s.bankCounts k).bankLanes k) s
    let s := (s.die die).tele.foldl (fun s x =>
      counterRecord s die (x.1 / 65536) (x.1 % 1024) (x.1 / 1024 % 64) (x.2 / counterScale (x.1 / 65536)) len) s
    .next (s.updDie die (fun d => { d with tele := [], lastSample := s.ck }))

/-- POWER_SAMPLE (R318, R429): PWRSTAT and TJMAX are refreshed every 2^24 ck, with a health record. -/
def execPowerSample (die mw temp : Nat) (s : State) : Out :=
  if s.ck - (s.die die).lastPower < 2 ^ 24 then .next s
  else
    let s := s.updDie die (fun d => { d with tjmax := temp % 256, lastPower := s.ck })
    let s := { s with pwrstat := mw % 4096 }
    let tj (a : Nat) : Word := BitVec.ofNat 32 ((List.range 4).foldl (fun t i => t + (s.die (a + i)).tjmax * 2 ^ (8 * i)) 0)
    .next (telemetry s die 4 63 0x4002 (Config.cores + die) [BitVec.ofNat 32 (s.clockStep * 65536 + s.pwrstat), tj 0, tj 4])

end Sys2Proof.Machine
end

