-- ==== Sys2Proof/Machine/FerryOps.lean ====
section
/-!
DEFINITION. Sys2Proof/Machine/FerryOps.lean: groups, blocks, Merge and Split (R344), sending, accepting and resolving halves
(R346 to R348), hand-over and quiesce (R351, R353), and events (R354).
-/
namespace Sys2Proof.Machine
open Sys2Proof

/-! Groups and blocks. -/

def State.block (s : State) (die b : Nat) : Option FBlock := tfind (s.die die).fer.blocks b
def State.setBlock (s : State) (die b : Nat) (x : FBlock) : State :=
  s.updDie die (fun d => { d with fer := { d.fer with blocks := tset d.fer.blocks b x } })

/-- The issuing core owns a group (R343, R356). -/
def ownsGroup (s : State) (k g : Nat) : Bool :=
  let x := (s.die (coreDie k)).fgroup g
  (s.core k).priv == Priv.service || (x.ownValid && x.ownPart == s.corePart k)

/-- Bound blocks of a group, in ascending handle order. -/
def State.groupBlocks (s : State) (die g : Nat) : List Nat :=
  ((s.die die).fer.blocks.filter (fun b => b.2.group == g)).map (·.1)

/-- Another group of the ferry that holds a bound block carries a tag (R339). -/
def tagClash (s : State) (die g : Nat) (tag : Word) : Bool :=
  (s.die die).fer.blocks.any (fun b => b.2.group != g && ((s.die die).fgroup b.2.group).tag == tag)

/-! Merge and Split (R344). -/

/-- Order of a Merge: round, FERRYID, sequence. -/
def FHalf.before (a b : FHalf) : Bool :=
  a.round < b.round || (a.round == b.round && (a.fid.toNat < b.fid.toNat || (a.fid == b.fid && a.seq ≤ b.seq)))

def insertHalf (h : FHalf) : List FHalf → List FHalf
  | [] => [h]
  | x :: r => if h.before x then h :: x :: r else x :: insertHalf h r

def sortHalves (l : List FHalf) : List FHalf := l.foldr insertHalf []

/-- The disagreement of a half with a block. -/
def halfDis (h : FHalf) (mass : Nat) (values : List Word) : Word :=
  (h.v.zip values).foldl (fun d p =>
    let x := fpSub .rne (fpDivNat p.1 h.mass) (fpDivNat p.2 mass) &&& 0x7FFFFFFF
    if isNaN32 d || isNaN32 x then nan32 else fpMax d x) 0

/-- A pending half enters the block. A half whose element count differs from the block's, for which no rule gives a Merge, adds the
elements that both have (DESIGN CHOICE, log 78). -/
def mergeHalf (b : FBlock) (h : FHalf) : FBlock :=
  let dis :=
    if 0 < b.mass ∧ 0 < h.mass then
      let d := halfDis h b.mass b.values
      if isNaN32 d then nan32 else fpMax b.dis d
    else b.dis
  { b with
    dis, values := b.values.mapIdx (fun i v => match h.v[i]? with
      | some x => fpAdd .rne v x
      | none => v),
    mass := (b.mass + h.mass) % 2 ^ 64, pend := b.pend - h.mass }

/-- Merge takes every pending half, own returned halves included. -/
def FBlock.merge (b : FBlock) : FBlock := { (sortHalves b.pending).foldl mergeHalf b with pending := [] }

/-- A Merge of block b; the one that first gives a joined block mass posts JOINED (R350). -/
def mergeBlock (s : State) (die b : Nat) : State :=
  match s.block die b with
  | none => s
  | some x =>
    let y := x.merge
    if y.join && y.mass != 0 then postFerry (s.setBlock die b { y with join := false }) die x.group 5 b 0
    else s.setBlock die b y

/-- A packet leaves for another package, or waits in the ferry (R408). -/
def ferryPacket (s : State) (die pkg : Nat) (body : PacketBody) : State :=
  match sendPacket s pkg body with
  | some (_, s) => s
  | none => s.updFerry die (fun f => { f with outq := f.outq ++ [(pkg, body)] })

/-- Commands of PS at a core's turn whose work on a block has started take their result. -/
def doneFerry (s : State) (die b : Nat) (p : Instr → Bool) (w : Word) : State :=
  (dieCores die).foldl (fun s k =>
    match (s.core k).fer.queue with
    | q :: r =>
      if q.started && q.done.isNone && p q.instr && q.a.toNat % 4096 == b then
        s.updCore k (fun c => { c with fer := { c.fer with queue := { q with done := some w } :: r } })
      else s
    | [] => s) s

def isPsleave : Instr → Bool
  | .psleave _ _ => true
  | _ => false
def isPsqui : Instr → Bool
  | .psqui _ _ => true
  | _ => false

/-- The result of a hand-over: to the PSLEAVE, or to FGEVQ when it was recalled (R354, R358). -/
def leaveResult (s : State) (die b : Nat) (x : FBlock) (kind entry : Nat) : State :=
  if x.leaveRecalled then postFerry s die x.group kind b entry
  else doneFerry s die b isPsleave (ferryWord kind b entry)

/-- PSQUI's wait ends (R353): with nothing held the block merges and sets QUI, forgetting its senders (R346). -/
def tryQuiet (s : State) (die b : Nat) : State :=
  match s.block die b with
  | none => s
  | some x =>
    if x.quiWait && x.held.isNone then
      let s := mergeBlock s die b
      match s.block die b with
      | none => s
      | some y => doneFerry (s.setBlock die b { y with qui := true, quiWait := false, senders := [] }) die b isPsqui (ferryWord 9 b 0)
    else s

/-- The block becomes unbound: its arrays stand in memory again (R338, log 30). -/
def unbind (s : State) (die b : Nat) (x : FBlock) : State :=
  let ws (pas : List Nat) (vs : List Word) : List (Nat × Byte) :=
    ((pas.zip vs).map (fun p => (List.range 4).map (fun i => (p.1 + i, (wordBytes p.2).getD i 0)))).flatten
  (s.updMs (·.put (ws x.vpas x.values ++ ws x.hpas x.heldVals) .P (.die die) none)).updFerry die (fun f =>
    { f with blocks := terase f.blocks b })

/-- How a held half resolves (R347). -/
inductive Fate where
  | ack | refused | timeout | dead
  deriving DecidableEq, Repr

/-- The Resolve move (R347), and the end of a hand-over (R351). -/
def resolveHalf (s : State) (die b : Nat) (how : Fate) : State :=
  match s.block die b with
  | none => s
  | some x =>
    match x.held with
    | none => s
    | some h =>
      if how = .ack then
        if x.leaveSent then leaveResult (unbind s die b x) die b x 6 h.entry
        else tryQuiet (s.setBlock die b { x with held := none }) die b
      else
        let late := how != .refused
        let y : FBlock := { x with
          held := none, pending := x.pending ++ [h.half], pend := x.pend + h.half.mass, leave := none, leaveSent := false,
          leaveRecalled := false,
          unc := (if late then (x.unc + h.half.mass) % 2 ^ 64 else x.unc),
          returned := if late then tset x.returned h.half.seq (h.half.mass, h.entry) else x.returned }
        let y : FBlock := if x.leaveSent then y else { y with leave := x.leave, leaveRecalled := x.leaveRecalled }
        let s := (s.setBlock die b y).tally die (if late then 0x403 else 0x404) x.group 1
        let s := match how with
          | .timeout => postFerry s die x.group 1 b h.entry
          | .dead => postFerry s die x.group 2 b h.entry
          | _ => s
        let s := if x.leaveSent then leaveResult (mergeBlock s die b) die b x 7 h.entry else s
        tryQuiet s die b

/-- FINJ fires (R342). -/
def ferryInjects (f : Ferry) (b kind : Nat) : Bool := f.finj.getLsbD 31 && wf f.finj 30 1 == kind && wf f.finj 0 12 == b
def disarm (f : Ferry) : Ferry := { f with finj := f.finj &&& 0x7FFFFFFF }

/-- A half is sent towards a rank and held, its timer started (R344); with no route it returns at once (R347). -/
def ship (s : State) (die b : Nat) (entry rank : Nat) (h : FHalf) : State :=
  match s.block die b with
  | none => s
  | some x =>
    let f := (s.die die).fer
    let s := s.setBlock die b { x with held := some ⟨entry, rank, h, s.ck + f.ftmo * 256⟩ }
    match rankEntry s die ((s.die die).fgroup x.group).ownPart rank with
    | (none, s) => resolveHalf s die b .refused
    | (some w, s) =>
      let s := s.tally die 0x402 x.group 1
      if ferryInjects f b 0 then s.updFerry die disarm
      else if entryPkg w = s.pkg then
        s.updFerry (coreDie (entryCore w)) (fun f => { f with transit := f.transit ++ [.half { h with src := some die }] })
      else ferryPacket s die (entryPkg w) (.half (entryCore w) rank h.tag h.key h.seq h.round h.fid h.bind h.mass h.v h.poison)

/-- The half that a block sends. -/
def mkHalf (s : State) (die : Nat) (x : FBlock) (seq mass : Nat) (v : List Word) : FHalf :=
  { tag := ((s.die die).fgroup x.group).tag, key := x.key, seq, round := x.round, fid := (s.die die).fer.fid, bind := x.bind, mass, v,
    poison := x.vpas.any (fun p => s.linePoison (p / 64)) }

/-- The Split move (R344). -/
def splitBlock (s : State) (die b : Nat) : State :=
  match s.block die b with
  | none => s
  | some x =>
    let g := (s.die die).fgroup x.group
    let e := (x.round + x.boff) % g.ncount
    let w := tget g.nb 0 e
    let next (y : FBlock) : FBlock := { y with round := (x.round + 1) % 2 ^ 32 }
    if g.ncount != 0 && x.held.isNone && x.leave.isNone && !x.quiWait && 2 ≤ x.mass && wf w 24 2 == 1 then
      let hm := x.mass / 2
      let v := x.values.map (fun a => fpMul .rne a 0x3F000000)
      let seq := (x.seq + 1) % 2 ^ 32
      let h := mkHalf s die x seq hm v
      ship (s.setBlock die b (next { x with mass := x.mass - hm, values := v, heldVals := v, seq })) die b e (wf w 0 24) h
    else s.setBlock die b (next x)

/-- A round of a block (R344). -/
def roundBlock (s : State) (die b : Nat) : State :=
  match s.block die b with
  | none => s
  | some x => if x.qui then s else splitBlock (mergeBlock s die b) die b

/-- A round over blocks of a group in ascending handle order (R345). -/
def roundGroup (s : State) (die g : Nat) : State :=
  ((s.groupBlocks die g).foldl (fun s b => roundBlock s die b) s).tally die 0x401 g 1

/-! Arrivals (R346, R347). -/

/-- A reply goes back to the ferry that sent the half. -/
def replyHalf (s : State) (die : Nat) (h : FHalf) (ack : Bool) : State :=
  match h.src with
  | some d => s.updFerry d (fun f => { f with transit := f.transit ++ [.reply h.bind h.seq ack] })
  | none => ferryPacket s die (h.fid.toNat / 8) (.reply h.fid h.bind h.seq ack)

/-- The block of a ferry that a tag and key name (R339). -/
def matchBlock (d : Die) (tag : Word) (key : Nat) : Option (Nat × FBlock) :=
  d.fer.blocks.find? (fun b => b.2.key == key && (d.fgroup b.2.group).tag == tag)

/-- Newer, modulo 2^31, than the last sequence accepted (R346). -/
def newerSeq (seq last : Nat) : Bool :=
  let d := (seq + 2 ^ 32 - last) % 2 ^ 32
  d != 0 && d < 2 ^ 31

/-- The Accept or Refuse move (R346). -/
def receiveHalf (s : State) (die : Nat) (h : FHalf) : State :=
  match matchBlock (s.die die) h.tag h.key with
  | none => replyHalf s die h false
  | some (b, x) =>
    let last := tfind x.senders h.fid.toNat
    if x.qui || x.leaveSent || h.poison then replyHalf s die h false
    else if last = some h.seq then replyHalf s die h true
    else if (last.any (fun l => !newerSeq h.seq l)) || (last.isNone && 64 ≤ x.senders.length) then replyHalf s die h false
    else
      let s := s.setBlock die b { x with
        pending := x.pending ++ [h], pend := x.pend + h.mass, senders := tset x.senders h.fid.toNat h.seq }
      if ferryInjects (s.die die).fer b 1 then s.updFerry die disarm else replyHalf s die h true

/-- A reply resolves the held half, or is late and adjusts the accounts (R347). -/
def receiveReply (s : State) (die bind seq : Nat) (ack : Bool) : State :=
  match (s.die die).fer.blocks.find? (fun b => b.2.bind == bind) with
  | none => s
  | some (b, x) =>
    if x.held.any (fun h => h.half.seq == seq) then resolveHalf s die b (if ack then .ack else .refused)
    else match tfind x.returned seq with
    | none => s
    | some (hm, e) =>
      postFerry (s.setBlock die b { x with
        returned := terase x.returned seq, unc := (x.unc + 2 ^ 64 - hm) % 2 ^ 64,
        gain := if ack then (x.gain + hm) % 2 ^ 64 else x.gain }) die x.group (if ack then 3 else 4) b e

/-- A peer declared dead (R348): entries of groups of its partition that name the rank take DEAD; halves held towards it
return. -/
def peerDead (s : State) (die p rank : Nat) : State :=
  let mine (g : FGroup) : Bool := g.ownValid && g.ownPart == p
  let s := s.updFerry die (fun f => { f with groups := f.groups.map (fun (g : Nat × FGroup) =>
    if mine g.2 then (g.1, { g.2 with nb := g.2.nb.map (fun (e : Nat × Word) =>
      if e.2.getLsbD 24 && wf e.2 0 24 == rank then (e.1, e.2 ||| 0x02000000) else e) }) else g) })
  ((s.die die).fer.blocks.filter (fun b => mine ((s.die die).fgroup b.2.group) && b.2.held.any (·.rank == rank))).foldl
    (fun s b => resolveHalf s die b.1 .dead) s

end Sys2Proof.Machine
end

