-- ==== Sys2Proof/Machine/Ferry.lean ====
section
/-!
DEFINITION. Sys2Proof/Machine/Ferry.lean: the ferry instructions (R359 to R367), the ferry's moves (R345 to R356), its CSR writes
with further effects (R339 to R343) and the checkpoint copy (R414).
-/
namespace Sys2Proof.Machine
open Sys2Proof

/-! At the core (R359). -/

/-- PSBIND, PSJOIN and PSLEAVE, whose outcomes a BLOCK_UNBOUND check waits for. -/
def isBinder : Instr → Bool
  | .psbind _ _ | .psjoin _ _ | .psleave _ _ => true
  | _ => false

/-- A ferry instruction that names a block or a group: MISALIGNED, RESERVED_FIELD, then the block's ownership and binding,
then an engine issue at D. -/
def ferIssue (i : Instr) (u : Uses) (s : State) (addr : Vals → Option Word) (res : Vals → Bool) (group : Vals → Option Nat) : Out :=
  offered i u s <| gate i u s fun v s =>
    let k := s.cur
    let blk := s.block (coreDie k) (v.a.toNat % 4096)
    if (addr v).any (fun a => a.toNat % 4 != 0) then .next (raise i s 0x04 ((addr v).getD 0))
    else if res v then .next (raiseD s 0x02 0 0)
    else match group v with
    | some g => if ownsGroup s k g then engineIssue i u .PS v s [] else .next (raiseD s 0x50 v.a 0)
    | none =>
      if blk.any (fun b => !ownsGroup s k b.group) then .next (raiseD s 0x50 v.a 0)
      else if (s.core k).fer.queue.any (fun q => isBinder q.instr) then .next (stand i s)
      else if blk.isNone then .next (raiseD s 0x51 v.a 0)
      else engineIssue i u .PS v s []

/-- Bits of a handle operand that must be 0. -/
def handleBad (v : Vals) : Bool := v.a.toNat / 4096 != 0

/-- The record of PSBIND and PSJOIN and its checks at issue (R360, R361). -/
def bindIssue (i : Instr) (u : Uses) (s : State) (join : Bool) : Out :=
  offered i u s <| gate i u s fun v s =>
    let k := s.cur
    if v.a.toNat % 32 ≠ 0 then .next (raise i s 0x04 v.a)
    else match translateRun s (coreDie k) (s.core k).masid .load (vaRange v.a.toNat 32) [] with
    | (.inr (cause, detail, va), s) => .next (raiseD s cause (detailOr i cause detail) (BitVec.ofNat 32 va))
    | (.inl pas, s) =>
      match readBytes s k (s.core k).pc v.a.toNat pas with
      | none => .next (stand i s)
      | some (bs, p, s) =>
        let w := wordsOf 8 bs
        let x (n : Nat) : Word := w.getD n 0
        let mass := (x 4).toNat + (x 5).toNat * 2 ^ 32
        if (x 2).toNat % 64 ≠ 0 then .next (raise i s 0x04 (x 2))
        else if (x 3).toNat % 64 ≠ 0 then .next (raise i s 0x04 (x 3))
        else if (x 0).getLsbD 15 || x 6 != 0 || x 7 != 0 || (x 1).toNat < 64 || 16777216 < (x 1).toNat ||
            (if join then mass != 0 else mass == 0 || 2 ^ 40 < mass) then .next (raiseD s 0x02 0 0)
        else if join && ((x 0).getLsbD 14 || v.b.toNat / 4096 != 0) then .next (raiseD s 0x02 0 0)
        else if !ownsGroup s k (wf (x 0) 0 8) then .next (raiseD s 0x50 v.a 0)
        else engineIssue i u .PS { v with poison := v.poison || p } s w

/-- `PSBIND` (R361). -/
def execPsbind (d : Dst) (a : Src) (s : State) : Out :=
  bindIssue (.psbind d a) { a, dst := d, engs := [.PS], moves := true } s false
/-- `PSJOIN` (R361). -/
def execPsjoin (a b : Src) (s : State) : Out := bindIssue (.psjoin a b) { a, b, engs := [.PS], moves := true } s true
/-- `PSREAD` (R362). -/
def execPsread (a b : Src) (s : State) : Out :=
  ferIssue (.psread a b) { a, b, engs := [.PS], moves := true } s (fun v => some v.b) handleBad (fun _ => none)
/-- `PSADD` (R363). -/
def execPsadd (a b : Src) (s : State) : Out :=
  ferIssue (.psadd a b) { a, b, engs := [.PS], moves := true } s (fun v => some v.b) handleBad (fun _ => none)
/-- `PSMASS` (R364). -/
def execPsmass (d : XReg) (a : Src) (s : State) : Out :=
  ferIssue (.psmass d a) { a, dst := some (.x d), nregs := 2, engs := [.PS], moves := true } s (fun _ => none) handleBad (fun _ => none)
/-- `PSHELD` (R364). -/
def execPsheld (d : XReg) (a : Src) (s : State) : Out :=
  ferIssue (.psheld d a) { a, dst := some (.x d), nregs := 2, engs := [.PS], moves := true } s (fun _ => none) handleBad (fun _ => none)
/-- `PSDIS` (R364). -/
def execPsdis (d : Dst) (a : Src) (s : State) : Out :=
  ferIssue (.psdis d a) { a, dst := d, engs := [.PS], moves := true } s (fun _ => none) handleBad (fun _ => none)
/-- `PSSTEP` (R365): A[31] chooses a block or a group. -/
def execPsstep (a : Src) (s : State) : Out :=
  ferIssue (.psstep a) { a, engs := [.PS], moves := true } s (fun _ => none)
    (fun v => if v.a.getLsbD 31 then wf v.a 12 19 != 0 else wf v.a 8 23 != 0)
    (fun v => if v.a.getLsbD 31 then none else some (wf v.a 0 8))
/-- `PSQUI` (R366). -/
def execPsqui (a b : Src) (s : State) : Out :=
  ferIssue (.psqui a b) { a, b, engs := [.PS], moves := true } s (fun _ => none) (fun v => handleBad v || v.b.toNat / 2 != 0)
    (fun _ => none)
/-- `PSLEAVE` (R367). -/
def execPsleave (a b : Src) (s : State) : Out :=
  ferIssue (.psleave a b) { a, b, engs := [.PS], moves := true } s (fun _ => none) (fun v => handleBad v || v.b.toNat / 64 != 0)
    (fun _ => none)

/-! Accept, and the commands at their turn (R355). -/

/-- Addresses of n words. -/
def wordAddrs (a n : Nat) : List Nat := (List.range n).map (fun i => (a + 4 * i) % 2 ^ 32)

/-- The handle that a command names. -/
def ferHandle (q : Cmd) : Nat := q.a.toNat % 4096

/-- BLOCK of FFAULT (R342): that of the handle operand, 0 for a command that names none. -/
def ferFlt (q : Cmd) (cause : Nat) (addr : Word) : FaultRec :=
  let b := match q.instr with
    | .psbind _ _ => 0
    | .psjoin _ _ => q.b.toNat % 4096
    | .psstep _ => if q.a.getLsbD 31 then ferHandle q else 0
    | _ => ferHandle q
  { cause, f1 := b, addr }

/-- A cause met by the command at its turn (R356). -/
def ferCause (s : State) (k : Nat) (q : Cmd) (cause : Nat) (detail addr : Word) : State :=
  engineCauseAt s k .PS q (ferFlt q cause addr) ⟨cause, if cause = 0x60 then detail else q.a, addr⟩

/-- The ferry accepts the command that core k offers; PSREAD takes its destination lines (R355). -/
def ferAccept (s : State) (k : Nat) (q : Cmd) : State :=
  let c := s.core k
  let n := (s.die (coreDie k)).fer.next
  let enqueue (s : State) (wr : Option (List Nat)) : State :=
    finishOffer (s.updFerry (coreDie k) (fun f => { f with next := n + 1 })) k (fun c =>
      let c := ({ c with fer := { c.fer with queue := c.fer.queue ++ [{ q with seq := n, wr }] } } : Core).bump .PS 1
      let p (d : Dst) (nregs : Nat) : Core :=
        c.produce { op := .engine .PS, d, nregs, b := q.a, pc := q.pc, instr := q.word, issuedAt := s.ck }
      match q.instr with
      | .psbind d _ | .psdis d _ => p d 1
      | .psmass d _ | .psheld d _ => p (.x d) 2
      | _ => c)
  if !c.acceptable .PS then s
  else match q.instr, s.block (coreDie k) (ferHandle q) with
  | .psread _ _, some x =>
    match engineTake s .PS k n q.asid (wordAddrs q.b.toNat x.n) with
    | .wait => s
    | .cause _ _ _ s => enqueue s none
    | .ok pas s => enqueue s (some pas)
  | _, _ => enqueue s none

/-- The command at the turn is replaced; a page it was held on is done with. -/
def setFerHead (s : State) (k : Nat) (q : Cmd) : State :=
  s.updCore k (fun c => { c with fer := { c.fer with queue := q :: c.fer.queue.drop 1, rearmed := none } })

/-- The move of PSBIND and PSJOIN at the ferry (R361). A group without a bound block takes the address space of the task that binds
(R339; DESIGN CHOICE, log 30). -/
def ferBind (s : State) (k : Nat) (q : Cmd) (join : Bool) : State :=
  let die := coreDie k
  let f := (s.die die).fer
  let x (n : Nat) : Word := q.data.getD n 0
  let g := wf (x 0) 0 8
  let key := wf (x 0) 16 16
  let asid := if (s.groupBlocks die g).isEmpty then q.asid else ((s.die die).fgroup g).asid
  let n := (x 1).toNat
  let va := (x 2).toNat
  let ha := (x 3).toNat
  let mass := (x 4).toNat + (x 5).toNat * 2 ^ 32
  let h := if join then some (q.b.toNat % 4096) else firstFree (fun i => (tfind f.blocks i).isNone) 4096
  let refused := f.blocks.any (fun b => b.2.group == g && b.2.key == key) || tagClash s die g ((s.die die).fgroup g).tag ||
    (join && h.any (fun i => (tfind f.blocks i).isSome))
  let finish (s : State) (w : Word) : State := setFerHead s k { q with done := some w }
  match h with
  | none => finish s 0xFFFFFFFF
  | some h =>
    if refused then finish s 0xFFFFFFFE
    else if inBytes va (4 * n) ha || inBytes ha (4 * n) va then ferCause s k q 0x05 0 (x 2)
    else match translateRun s die asid .store (wordAddrs va n) [] with
    | (.inr (cause, detail, a), s) => ferCause s k q cause detail (BitVec.ofNat 32 a)
    | (.inl vpas, s) =>
      match translateRun s die asid .store (wordAddrs ha n) [] with
      | (.inr (cause, detail, a), s) => ferCause s k q cause detail (BitVec.ofNat 32 a)
      | (.inl hpas, s) =>
        if (vpas ++ hpas).any (fun p => s.ms.owned (p / 64)) then s
        else
          let raw := vpas.map (fun p => wordOf (s.ms.bytesAt (.die die) p 4))
          let s := match (if join then none else (vpas.zip (wordAddrs va n)).find? (fun p => s.lineLost (p.1 / 64))) with
            | some p => pendImp s k 0x73 q.pc (BitVec.ofNat 32 p.2)
            | none => s
          let s := consume s k q.pc (!join && vpas.any (fun p => s.linePoison (p / 64)))
          let values :=
            if join then raw.map (fun _ => (0 : Word))
            else if (x 0).getLsbD 14 then raw
            else raw.map (fun v => roundFP32 .rne ((f32 v).mul (.fin false mass 0)))
          let b : FBlock := {
            n, vaddr := x 2, haddr := x 3, asid, vpas, hpas, mass, key, group := g, boff := wf (x 0) 8 6, values,
            bind := f.binds, join }
          let s := (s.setBlock die h b).updGroup die g (fun y => { y with asid })
          finish (s.updFerry die (fun f => { f with binds := f.binds + 1 })) (BitVec.ofNat 32 h)

/-- PSLEAVE's entry can take a hand-over (R367). -/
def leaveOk (g : FGroup) (e : Nat) : Bool := e < g.ncount && wf (tget g.nb 0 e) 24 2 == 1

/-- Engine reads and the start of a command at its turn (R352, R353, R351, R355). With no command left, the block work of
recalled PSQUIs goes on (R358). -/
def ferRead (s : State) (k : Nat) : State :=
  let die := coreDie k
  match (s.core k).fer.queue with
  | [] => (s.die die).fer.blocks.foldl (fun s b => tryQuiet s die b.1) s
  | q :: _ =>
    if q.done.isSome || !engineReady s k .PS q.asid then s
    else match q.instr, s.block die (ferHandle q) with
    | .psbind _ _, _ => ferBind s k q false
    | .psjoin _ _, _ => ferBind s k q true
    | .psread _ _, some x =>
      if q.wr.isSome then s
      else match engineTake s .PS k q.seq q.asid (wordAddrs q.b.toNat x.n) with
      | .wait => s
      | .cause cause detail va s => ferCause s k q cause detail (BitVec.ofNat 32 va)
      | .ok pas s => setFerHead s k { q with wr := some pas }
    | .psadd _ _, some x =>
      if q.rd.isSome then s
      else if x.qui then ferCause s k q 0x52 0 0
      else match engineRead s .PS k q.seq q.asid q.pc (vaRange q.b.toNat (4 * x.n)) with
      | .wait => s
      | .cause cause detail va s => ferCause s k q cause detail (BitVec.ofNat 32 va)
      | .ok bs s => setFerHead s k { q with rd := some bs }
    | .psqui _ _, some x =>
      if q.b.getLsbD 0 then
        if x.qui then setFerHead s k { q with started := true, done := some (ferryWord 9 (ferHandle q) 0) }
        else tryQuiet (setFerHead (s.setBlock die (ferHandle q) { x with quiWait := true }) k { q with started := true }) die (ferHandle q)
      else s
    | .psleave _ _, some x =>
      if q.started || x.copying || x.leave.isSome then s
      else
        let e := wf q.b 0 6
        let q := { q with started := true, data := [BitVec.ofNat 32 x.group] }
        if leaveOk ((s.die die).fgroup x.group) e then setFerHead (s.setBlock die (ferHandle q) { x with leave := some e }) k q
        else setFerHead s k { q with done := some (ferryWord 7 (ferHandle q) e) }
    | _, _ => s

/-- The group has EN = 1 and MODE = 0, and no free-running round of an earlier MODE is under way (R345, R358). -/
def FGroup.stepped (g : FGroup) (ck : Nat) : Bool := g.en && !g.mode && g.due ≤ ck

/-- The ferry's part of ENGINE_COMPLETE: the command at core k's turn performs its Apply or Sample and completes (R355). -/
def ferComplete (s : State) (k : Nat) : State :=
  let die := coreDie k
  match (s.core k).fer.queue with
  | [] => s
  | q :: _ =>
    let pop (s : State) : State := (s.updCore k (fun c => popCmd c .PS)).updMs (·.release .PS k q.seq)
    let push (w : Word) (s : State) : State := if q.dead then s else s.updCore k (fun c => c.push 4 ⟨w, false⟩)
    let give (ws : List Word) (s : State) : State := if q.dead then s else s.updCore k (fun c => engineResult c s.ck .PS ws)
    let h := ferHandle q
    if !engineReady s k .PS q.asid then s
    else match q.instr, q.done, s.block die h with
    | .psbind _ _, some w, _ => give [w] (pop s)
    | .psjoin _ _, some _, _ => pop s
    | .psqui _ _, some w, _ | .psleave _ _, some w, _ => push w (pop s)
    | .psbind _ _, none, _ | .psjoin _ _, none, _ => s
    | .psstep _, _, blk =>
      if q.a.getLsbD 31 then
        match blk with
        | none => ferCause s k q 0x51 0 0
        | some x =>
          if !((s.die die).fgroup x.group).stepped s.ck then pop s
          else if x.qui then ferCause s k q 0x52 0 0
          else (pop (roundBlock s die h)).tally die 0x401 x.group 1
      else if ((s.die die).fgroup (wf q.a 0 8)).stepped s.ck then pop (roundGroup s die (wf q.a 0 8))
      else pop s
    | _, _, none => ferCause s k q 0x51 0 0
    | .psread _ _, _, some x =>
      if x.copying then s
      else match q.wr with
      | none => s
      | some pas =>
        let est := x.values.map (fun v => if x.mass = 0 then noMassNaN else fpDivNat v x.mass)
        let bad := x.vpas.any (fun p => s.linePoison (p / 64))
        let ws := ((pas.zip est).map (fun p => (List.range 4).map (fun i => (p.1 + i, (wordBytes p.2).getD i 0, bad)))).flatten
        let s := pop (engineWrite s .PS k q.launch ws)
        if x.mass = 0 then push (ferryWord 8 h 0) s else s
    | .psadd _ _, _, some x =>
      match q.rd with
      | none => s
      | some bs =>
        if x.qui then ferCause s k q 0x52 0 0
        else if bs.any (·.2) then pop (consume s k q.pc true)
        else if x.mass = 0 then pop s
        else
          let ds := wordsOf x.n (bs.map (·.1))
          let vs := (x.values.zip ds).map (fun p => roundFP32 .rne (sumFV .rne [f32 p.1, (f32 p.2).mul (.fin false x.mass 0)]))
          pop (s.setBlock die h { x with values := vs })
    | .psmass _ _, _, some x => give [BitVec.ofNat 32 x.mass, BitVec.ofNat 32 (x.mass / 2 ^ 32)] (pop s)
    | .psheld _ _, _, some x =>
      let m := (x.held.map (·.half.mass)).getD 0
      give [BitVec.ofNat 32 m, BitVec.ofNat 32 (m / 2 ^ 32)] (pop s)
    | .psdis _ _, _, some x => give [x.dis] (pop (s.setBlock die h { x with dis := 0 }))
    | .psqui _ _, none, some x =>
      if q.b.getLsbD 0 || x.copying then s else pop (s.setBlock die h { x with qui := false })
    | _, _, _ => s

/-! The ferry's own moves. -/

/-- A lost die's ferry makes no more moves: its blocks' mass stands in L (R349, R358). -/
def atFerry (s : State) (die : Nat) (move : State) : Out := if (s.die die).lost then .next s else .next move

/-- FERRY_ROUND (R345): a free-running group's period has passed. -/
def execFerryRound (die g : Nat) (s : State) : Out :=
  let x := (s.die die).fgroup g
  if x.en && x.mode && x.due ≤ s.ck then
    atFerry s die ((roundGroup s die g).updGroup die g (fun x => { x with due := s.ck + x.period * 256 }))
  else .next s

/-- The n-th item on its way to the ferry is taken. -/
def takeTransit (s : State) (die n : Nat) : State := s.updFerry die (fun f => { f with transit := f.transit.eraseIdx n })

/-- FERRY_HALF_ARRIVAL (R346): the n-th item on its way is a half. -/
def execFerryHalfArrival (die n : Nat) (s : State) : Out :=
  match (s.die die).fer.transit[n]? with
  | some (.half h) => atFerry s die (receiveHalf (takeTransit s die n) die h)
  | _ => .next s

/-- FERRY_ACK_ARRIVAL (R347): the n-th item on its way is an acknowledgement. -/
def execFerryAckArrival (die n : Nat) (s : State) : Out :=
  match (s.die die).fer.transit[n]? with
  | some (.reply bind seq true) => atFerry s die (receiveReply (takeTransit s die n) die bind seq true)
  | _ => .next s

/-- FERRY_REFUSAL_ARRIVAL (R347): the n-th item on its way is a refusal. -/
def execFerryRefusalArrival (die n : Nat) (s : State) : Out :=
  match (s.die die).fer.transit[n]? with
  | some (.reply bind seq false) => atFerry s die (receiveReply (takeTransit s die n) die bind seq false)
  | _ => .next s

/-- FERRY_HALF_TIMEOUT (R347): block b's held half has waited FTMO × 256 ck. -/
def execFerryHalfTimeout (die b : Nat) (s : State) : Out :=
  match (s.block die b).bind (·.held) with
  | some h => if h.deadline ≤ s.ck then atFerry s die (resolveHalf s die b .timeout) else .next s
  | none => .next s

/-- The whole share of a leaving block with nothing held is sent after a Merge; an entry no longer usable gives LEAVEFAIL (R351,
R367). -/
def handOver (s : State) (die b e : Nat) (x : FBlock) : State :=
  let g := (s.die die).fgroup x.group
  if !leaveOk g e then
    tryQuiet (leaveResult (s.setBlock die b { x with leave := none, leaveRecalled := false }) die b x 7 e) die b
  else
    let s := mergeBlock s die b
    match s.block die b with
    | none => s
    | some y =>
      let seq := (y.seq + 1) % 2 ^ 32
      let h := mkHalf s die y seq y.mass y.values
      let s := s.setBlock die b { y with mass := 0, values := y.values.map (fun _ => 0), seq, leaveSent := true }
      ship s die b e (wf (tget g.nb 0 e) 0 24) h

/-- A recalled PSLEAVE that had not started its hand-over starts it by itself, or fails at once (R358, R367). -/
def startRecalled (s : State) (die b : Nat) (x : FBlock) : State :=
  match x.leaves with
  | [] => s
  | e :: r =>
    if x.copying then s
    else if leaveOk ((s.die die).fgroup x.group) e then
      s.setBlock die b { x with leaves := r, leave := some e, leaveRecalled := true }
    else postFerry (s.setBlock die b { x with leaves := r }) die x.group 7 b e

/-- FERRY_HANDOVER (R351): the hand-over of a block with nothing held, or the start of one that a recalled PSLEAVE left. -/
def execFerryHandover (die b : Nat) (s : State) : Out :=
  match s.block die b with
  | none => .next s
  | some x =>
    match x.leave, x.held, x.leaveSent with
    | some e, none, false => atFerry s die (handOver s die b e x)
    | none, _, _ => atFerry s die (startRecalled s die b x)
    | _, _, _ => .next s

/-! CSRs with further effects. -/

/-- A read of FGEVQ (R354): the oldest event of the selected group, or 0. -/
def readFgevq (s : State) (k : Nat) : Word × State :=
  let die := coreDie k
  let g := (s.core k).fer.gsel
  if !ownsGroup s k g then (0, s)
  else match ((s.die die).fgroup g).evq with
  | [] => (0, s)
  | w :: r => (w, s.updGroup die g (fun x => { x with evq := r }))

/-- FGEVQ_READ (R354): core k's read pops the event. -/
def execFgevqRead (k : Nat) (s : State) : Out := .next (readFgevq s k).2

/-- A write of FNB (R341): DEAD = 1 declares the peer dead (R348). -/
def writeFnb (k : Nat) (v : Word) (s : State) : CsrOut :=
  let die := coreDie k
  let g := (s.core k).fer.gsel
  let p := ((s.die die).fgroup g).ownPart
  if !ownsGroup s k g then .trap 0x50 0 0
  else
    let r := rankEntry s die p (wf v 0 24)
    if v.getLsbD 24 && r.1.isNone then .trap 0x53 0 0
    else
      let s := if v.getLsbD 24 then r.2 else s
      let s := s.updGroup die g (fun x => { x with nb := tset x.nb (s.core k).fer.nbsel (v &&& 0x03FFFFFF) })
      .ok (if wf v 24 2 = 3 then peerDead s die p (wf v 0 24) else s)

/-- FNB_WRITE (R341). -/
def execFnbWrite (k : Nat) (v : Word) (s : State) : Out := (writeFnb k v s).out k 0x404 s

/-- A write of FGTAG (R339). -/
def writeFgtag (k : Nat) (v : Word) (s : State) : CsrOut :=
  let die := coreDie k
  let g := (s.core k).fer.gsel
  if !ownsGroup s k g then .trap 0x50 0 0
  else if !(s.groupBlocks die g).isEmpty && tagClash s die g v then .trap 0x02 0 0
  else .ok (s.updGroup die g (fun x => { x with tag := v }))

/-- FGTAG_WRITE (R339). -/
def execFgtagWrite (k : Nat) (v : Word) (s : State) : Out := (writeFgtag k v s).out k 0x402 s

/-- A write of FGOWN (R343): only while the group has no bound block; the group's CSRs and neighbour table are reset. A partition number
from 48 traps RESERVED_FIELD (DESIGN CHOICE, log 86). -/
def writeFgown (die : Nat) (v : Word) (s : State) : CsrOut :=
  let g := (s.die die).fer.ownsel
  if v.getLsbD 31 && Config.partitions ≤ wf v 16 6 then .trap 0x02 0 0
  else if !(s.groupBlocks die g).isEmpty then .wait
  else .ok (s.updGroup die g (fun _ => { ownValid := v.getLsbD 31, ownPart := wf v 16 6 }))

/-- FGOWN_WRITE (R343). -/
def execFgownWrite (die : Nat) (v : Word) (s : State) : Out := (writeFgown die v s).out (Config.cores + die) 0xC51 s

/-- A write of FERRYID (R343). -/
def writeFerryid (die : Nat) (v : Word) (s : State) : CsrOut :=
  if (s.die die).fer.groups.any (fun g => g.2.en) then .trap 0x06 0 0
  else .ok (s.updFerry die (fun f => { f with fid := v }))

/-- FERRYID_WRITE (R343). -/
def execFerryidWrite (die : Nat) (v : Word) (s : State) : Out := (writeFerryid die v s).out (Config.cores + die) 0xC52 s

/-- A write of FCKCTL (R414): GO starts the copy of a quiesced block, or is refused with a REASON. -/
def writeFckctl (k : Nat) (v : Word) (s : State) : CsrOut :=
  let die := coreDie k
  let b := wf v 0 12
  let blk := s.block die b
  if blk.any (fun x => !ownsGroup s k x.group) then .trap 0x50 0 0
  else
    let sup (f : SupRegs → SupRegs) (s : State) : State := s.updCore k (fun c => { c with sup := f c.sup })
    if !v.getLsbD 31 then .ok (if (s.core k).sup.fckStatus = 1 then s else sup (fun r => { r with fckblock := b }) s)
    else if (s.core k).sup.fckStatus = 1 then .ok (sup (fun r => { r with fckReason := 4 }) s)
    else
      let refuse (n : Nat) : CsrOut := .ok (sup (fun r => { r with fckblock := b, fckStatus := 3, fckReason := n }) s)
      match blk with
      | none => refuse 2
      | some x =>
        if !x.qui then refuse 1
        else if x.copying then refuse 4
        else .ok (sup (fun r => { r with fckblock := b, fckStatus := 1, fckReason := 0 }) (s.setBlock die b { x with copying := true }))

/-- FCKCTL_GO (R414). -/
def execFckctlGo (k : Nat) (v : Word) (s : State) : Out := (writeFckctl k v s).out k 0x8F1 s

/-- FERRY_CHECKPOINT_COPY_DONE (R414): the words are appended at P in one move, read back into FCKCRC, and STATUS is done; a
destination fault writes nothing. -/
def execFerryCheckpointCopyDone (k : Nat) (s : State) : Out :=
  let die := coreDie k
  let r := (s.core k).sup
  if r.fckStatus ≠ 1 then .next s
  else match s.block die r.fckblock with
  | none => .next s
  | some x =>
    let close (status reason : Nat) (crc : Word) (s : State) : State :=
      (s.setBlock die r.fckblock { x with copying := false }).updCore k (fun c =>
        { c with sup := { c.sup with fckStatus := status, fckReason := reason, fckcrc := crc } })
    match translateRun s die x.asid .store (wordAddrs r.fckaddr.toNat x.n) [] with
    | (.inr _, s) => .next (close 3 3 r.fckcrc s)
    | (.inl pas, s) =>
      if pas.any (fun p => s.ms.owned (p / 64)) then .next s
      else
        let bad := x.vpas.any (fun p => s.linePoison (p / 64))
        let ws := ((pas.zip x.values).map (fun p => (List.range 4).map (fun i => (p.1 + i, (wordBytes p.2).getD i 0, bad)))).flatten
        let s := engineWrite s .PS k none ws
        let back := (pas.map (fun p => s.ms.bytesAt (.die die) p 4)).flatten
        .next (close 2 0 (~~~ crcBytes 0xFFFFFFFF back) s)

end Sys2Proof.Machine
end

