-- ==== Sys2Proof/Machine/MemInstr.lean ====
section
/-!
DEFINITION. Sys2Proof/Machine/MemInstr.lean: the memory instructions (R391 to R397) and the copy engine (R386, R392 to R394, R398).
-/
namespace Sys2Proof.Machine
open Sys2Proof

/-! Page tables as the walks read them. -/

/-- The leaf of a page: its address and its eight bytes, none where the level-1 entry is not valid (R375, R376); the level-1
entry's reserved bits make the second part true. -/
def leafOf (s : State) (asid page : Nat) : Option (Nat × Nat) × Bool :=
  let pt := (tget s.ms.asidPt 0 asid).toNat
  if pt = 0 then (none, false)
  else
    let l1 := s.ms.walk8 (pt * 65536 + 8 * (page / 256))
    if l1 % 2 = 0 then (none, false)
    else
      let a := l1 / 2 ^ 11 * 2 ^ 11 + 8 * (page % 256)
      (some (a, s.ms.walk8 a), l1 / 2 % 2 ^ 10 != 0 || l1 / 2 ^ 48 != 0)

def leafV (l : Nat) : Bool := l % 2 == 1
def leafTier (l : Nat) : Nat := l / 64 % 4
def leafRun (l page : Nat) : Nat := min (l / 256 % 256) (255 - page % 256)
/-- Key of a frame: a storage slot stands above every frame (R376). -/
def leafFrame (l : Nat) : Nat := if leafTier l = 3 then 2 ^ 32 + l / 2 ^ 16 % 2 ^ 32 else l / 2 ^ 16 % 2 ^ 32

/-- Valid leaves of a partition: ASID, page, leaf's address, leaf. -/
def leavesOf (s : State) (part : Nat) : List (Nat × Nat × Nat × Nat) :=
  (s.ms.asidPart.filter (fun a => a.2 == part)).foldr (fun a acc =>
    (List.range 65536).filterMap (fun page =>
      match (leafOf s a.1 page).1 with
      | some (la, l) => if leafV l then some (a.1, page, la, l) else none
      | none => none) ++ acc) []

/-- TIEROCC (R381): pages, that is frames, of the partition that its leaves place in a tier; a move not yet released still
counts in its source (R382). -/
def occupancy (s : State) (part tier : Nat) : Nat :=
  let n := (((leavesOf s part).filter (fun x => leafTier x.2.2.2 == tier)).map (fun x => leafFrame x.2.2.2)).eraseDups.length
  let ms := s.ms.moves.filter (fun m => m.part == part && m.stage == 4)
  n + ((ms.filter (fun m => m.src == tier)).map (fun m => m.run + 1)).sum - ((ms.filter (fun m => m.dst == tier)).map (fun m => m.run + 1)).sum

/-- A tier with a watermark is at TIERHARD (R381). -/
def atHard (s : State) (part tier : Nat) : Bool := tier < 3 && (s.part part).hard.getD tier 0 ≤ occupancy s part tier

/-! At the core. -/

/-- The limits of R393. -/
def cpyDescBad (w : List Word) : Bool :=
  let x (n : Nat) : Word := w.getD n 0
  let len := wf (x 2) 0 16
  let rows := wf (x 2) 16 16
  (x 0).toNat % 4 != 0 || (x 1).toNat % 4 != 0 || len % 4 != 0 || len == 0 || rows == 0 || 4096 < rows ||
    (x 3).toNat % 4 != 0 || (x 4).toNat % 4 != 0 || 1 < (x 5).toNat || x 6 != 0 || x 7 != 0

/-- `CPY` (R394): the descriptor is read by the read move at issue. -/
def execCpy (d : Dst) (a : Src) (s : State) : Out :=
  let i : Instr := .cpy d a
  let u : Uses := { a, dst := d, engs := [.CP], moves := true }
  offered i u s <| gate i u s fun v s =>
    let k := s.cur
    if v.a.toNat % 32 ≠ 0 then .next (raise i s 0x04 v.a)
    else match translateRun s (coreDie k) (s.core k).masid .load (vaRange v.a.toNat 32) [] with
    | (.inr (cause, detail, va), s) => .next (raiseD s cause (detailOr i cause detail) (BitVec.ofNat 32 va))
    | (.inl pas, s) =>
      match readBytes s k (s.core k).pc v.a.toNat pas with
      | none => .next (stand i s)
      | some (bs, p, s) =>
        let w := wordsOf 8 bs
        if cpyDescBad w then .next (raiseD s 0x02 0 0) else engineIssue i u .CP { v with poison := v.poison || p } s w

/-- `DEMOTE` (R397). -/
def execDemote (a b : Src) (s : State) : Out :=
  let i : Instr := .demote a b
  let u : Uses := { a, b, engs := [.CP], moves := true }
  offered i u s <| gate i u s fun v s =>
    if v.a.toNat % 65536 ≠ 0 then .next (raise i s 0x04 v.a)
    else if v.b.toNat = 0 ∨ 3 < v.b.toNat then .next (raiseD s 0x02 0 0)
    else engineIssue i u .CP v s []

/-- `PROMOTE` (R397). -/
def execPromote (a : Src) (s : State) : Out :=
  let i : Instr := .promote a
  let u : Uses := { a, engs := [.CP], moves := true }
  offered i u s <| gate i u s fun v s =>
    if v.a.toNat % 65536 ≠ 0 then .next (raise i s 0x04 v.a) else engineIssue i u .CP v s []

/-! Stash control (R395). -/

/-- The line's base lies in [A, A + length), or the range is the whole window. -/
def inRange (a b : Word) (line : Nat) : Bool :=
  let len := wf b 0 21
  len == 0 || (a.toNat ≤ line * 64 && line * 64 < a.toNat + (len + 63) / 64 * 64)

/-- Malformed operands of STFL, STIV and STFIL: the cause. -/
def stashBad (v : Vals) (intent : Bool) : Option Nat :=
  if v.a.toNat % 64 ≠ 0 then some 0x04
  else if wf v.b 21 10 ≠ 0 ∨ (!intent ∧ v.b.getLsbD 31) then some 0x02
  else none

/-- The malformed operand's trap, or the instruction goes on. -/
def stashOp (i : Instr) (u : Uses) (s : State) (intent : Bool) (go : Vals → State → Out) : Out :=
  gate i u s fun v s =>
    match stashBad v intent with
    | some 0x04 => .next (raise i s 0x04 v.a)
    | some c => .next (raiseD s c 0 0)
    | none => go v s

/-- Window lines of the range are written back: no line of the range is dirty. -/
def Core.flush (c : Core) (a b : Word) : Core :=
  { c with dirty := c.dirty.filter (fun l => !(c.inWindow (l.1 * 64) && inRange a b l.1)) }

/-- `STFL` (R395). -/
def execStfl (a b : Src) (s : State) : Out :=
  let u : Uses := { a, b }
  stashOp (.stfl a b) u s false fun v s => .next (retireNext u (s.updCore s.cur (·.flush v.a v.b)) v.poison)

/-- `STIV` (R395): the lines are also invalidated. -/
def execStiv (a b : Src) (s : State) : Out :=
  let u : Uses := { a, b }
  stashOp (.stiv a b) u s false fun v s => .next (retireNext u (s.updCore s.cur (fun c =>
    let c := c.flush v.a v.b
    { c with held := c.held.filter (fun l => !inRange v.a v.b l.1) })) v.poison)

/-- Window lines of a range, ascending. -/
def Core.windowLines (c : Core) (a b : Word) : List Nat :=
  ((List.range ((Config.sramBytes - (256 + 128 * c.cache) * 1024) / 64)).map (fun i => c.stbase.toNat / 64 + i)).filter
    (fun l => l < 2 ^ 26 && inRange a b l)

/-- What filling lines gives: all present, a wait for an owned line, or a cause at an address. -/
inductive Fill where
  | all (s : State) | wait | cause (cause : Nat) (detail : Word) (va : Nat) (s : State)

/-- Lines are filled one by one; each counts with the place that gave it, from the ck at which the instruction issued (R215). -/
def fillLines (s : State) (k : Nat) (kind : AccKind) (t0 : Nat) : List Nat → Fill
  | [] => .all s
  | l :: r =>
    if (s.core k).held.any (fun h => h.1 == l) then fillLines s k kind t0 r
    else match translate s (coreDie k) (s.core k).masid (l * 64) kind with
    | (.bad cause detail, s) => .cause cause detail (l * 64) s
    | (.ok pa _, s) =>
      if s.ms.owned (pa / 64) then .wait
      else fillLines ((s.latencyAny k (s.core k).masid (l * 64) t0).updCore k (·.touch (l * 64) pa)) k kind t0 r

/-- `STFIL` (R395): it walks for each line and takes a cause at itself; lines filled before it stay filled. -/
def execStfil (a b : Src) (s : State) : Out :=
  let i : Instr := .stfil a b
  let u : Uses := { a, b }
  stashOp i u s true fun v s =>
    let c := s.core s.cur
    match fillLines s s.cur (if v.b.getLsbD 31 then .store else .load) (if c.standing = some i then c.waitSince else s.ck)
      (c.windowLines v.a v.b) with
    | .all s => .next (retireNext u s v.poison)
    | .wait => .next (stand i s)
    | .cause cause detail va s => .next (raiseD s cause (detailOr i cause detail) (BitVec.ofNat 32 va))

/-! TLBINV (R396). -/

/-- A page of the named range. -/
def pageNamed (b : Word) (page : Nat) : Bool :=
  wf b 0 16 == 0 || (wf b 16 16 ≤ page && page < wf b 16 16 + wf b 0 16)

/-- An access rearmed for a named page walks again: one held on PAGE_MISS (R396), and one whose ACCESS or TIER_FULL was
delivered, for which no rule names another occasion (log 20). -/
def Access.release (a : Access) (asid : Nat) (b : Word) : Access :=
  match a.st with
  | .rearmed cause _ va => if a.asid = asid ∧ pageNamed b (va / 65536) then { a with st := .rearmed cause true va } else a
  | _ => a

/-- The address space of the command at an engine's turn. -/
def Core.turnAsid (c : Core) : Engine → Option Nat
  | .VX => (c.vec.seq[c.vec.pos]?).map (·.asid)
  | .GL => c.gal.turn.map (·.asid)
  | e => (c.engineQueue e).head?.map (·.asid)

/-- An engine's command held on PAGE_MISS for a named page walks again. -/
def Core.releaseEngine (c : Core) (e : Engine) (asid : Nat) (b : Word) : Core :=
  match c.rearmedOf e with
  | some (0x10, _) =>
    if c.turnAsid e = some asid ∧ pageNamed b ((c.fltOf e).addr.toNat / 65536) then c.setRearmed e (some (0x10, true)) else c
  | _ => c

/-- Page-in notices of KIND 2 for pages that an instruction itself was struck at, and that are now present (R193, R384). -/
def notices2 (s : State) (k : Nat) (present : Nat × Nat × Nat → Bool) (status : Nat) : State :=
  let c := s.core k
  let s := s.setCore k { c with pageWaits := c.pageWaits.filter (fun p => !present p) }
  let s := (c.pageWaits.filter present).foldl (fun s p => s.updCore k (·.push 5 (notice 2 status 0 p.2.1))) s
  let n := (c.pageWaits.filter present).length
  if n = 0 then s else s.tallyFor (coreDie k) 0x503 (s.corePart k) 0 n

/-- Every core that has state, by number. -/
def State.coreNumbers (s : State) : List Nat := s.cores.map (·.1)

/-- Accesses and commands of a core, or of a saved context, that are held for a named page walk again (R193, R396). -/
def Core.walkAgain (c : Core) (asid : Nat) (b : Word) : Core :=
  allEngines.foldl (fun c e => c.releaseEngine e asid b) { c with acc := c.acc.map (fun a => a.release asid b) }

/-- The effect of TLBINV at every port, hall, stash and cache of the package (R396). -/
def tlbInvalidate (s : State) (asid : Nat) (b : Word) : State :=
  let hit (t : TlbEntry) : Bool := t.asid == asid && (List.range (t.run + 1)).any (fun i => pageNamed b (t.page + i))
  let s := s.updMs (fun m => { m with tlb := m.tlb.filter (fun t => !hit t) })
  let s := { s with saved := s.saved.map (fun (x : Nat × Saved) => (x.1, { x.2 with ctx := x.2.ctx.walkAgain asid b })) }
  s.coreNumbers.foldl (fun s k =>
    let s := s.updCore k (fun c =>
      let out (l : Nat × Nat) : Bool := c.masid == asid && pageNamed b (l.1 / 1024)
      let c : Core := { c with dirty := c.dirty.filter (fun l => !out l), held := c.held.filter (fun l => !out l) }
      c.walkAgain asid b)
    notices2 s k (fun p => p.1 == asid && p.2.2 == 0x10 && pageNamed b p.2.1 &&
      ((leafOf s asid p.2.1).1.any (fun l => leafV l.2))) 0) s

/-- `TLBINV` (R396). -/
def execTlbinv (a b : Src) (s : State) : Out :=
  let i : Instr := .tlbinv a b
  let u : Uses := { a, b, floor := .supervisor, moves := true }
  gate i u s fun v s =>
    let asid := v.a.toNat % 65536
    if v.a.toNat / 65536 ≠ 0 ∨ 65536 < wf v.b 16 16 + wf v.b 0 16 then .next (raiseD s 0x02 0 0)
    else if (s.core s.cur).priv ≠ .service ∧ tget s.ms.asidPart 63 asid ≠ s.corePart s.cur then .next (raiseD s 0x06 0 0)
    else publish i s .P fun s => drain i s fun s =>
      if s.ms.moves.any (fun m => 1 ≤ m.stage && m.asid == asid && (List.range (m.run + 1)).any (fun j => pageNamed v.b (m.page + j))) then
        .next (stand i s)
      else .next (retireNext u (tlbInvalidate s asid v.b) v.poison)

/-! The copy engine. -/

/-- Rows and row length of a descriptor, and the addresses of a row's source and destination (R393, R394). -/
def cpyLen (q : Cmd) : Nat := wf (q.data.getD 2 0) 0 16
def cpyRows (q : Cmd) : Nat := wf (q.data.getD 2 0) 16 16
def cpyVerify (q : Cmd) : Bool := (q.data.getD 5 0).getLsbD 0
def rowAddr (base stride : Word) (r : Nat) : Nat := (base + BitVec.ofNat 32 r * stride).toNat
def cpySrc (q : Cmd) (r : Nat) : Nat := rowAddr (q.data.getD 0 0) (q.data.getD 3 0) r
def cpyDst (q : Cmd) (r : Nat) : Nat := rowAddr (q.data.getD 1 0) (q.data.getD 4 0) r

/-- Destination lines of the rows, up to the first that does not translate. -/
def cpyLines (s : State) (k : Nat) (q : Cmd) : List Nat → List Nat × State
  | [] => ([], s)
  | r :: rest =>
    match translateRun s (coreDie k) q.asid .store (vaRange (cpyDst q r) (cpyLen q)) [] with
    | (.inr _, s) => ([], s)
    | (.inl pas, s) =>
      let t := cpyLines s k q rest
      (linesOf pas ++ t.1, t.2)

/-- The engine accepts the copy-engine command that core k offers (R391, R394, R398): CPY takes its destination lines and writes
its sequence number to d. -/
def cpyAccept (s : State) (k : Nat) (q : Cmd) : State :=
  let c := s.core k
  let n := c.cpy.seq
  let enqueue (s : State) : State :=
    finishOffer s k (fun c =>
      let c := ({ c with cpy := { c.cpy with queue := c.cpy.queue ++ [{ q with seq := n }], seq := (n + 1) % 65536 } } : Core).bump .CP 1
      match q.instr with
      | .cpy d _ => c.writeDst s.ck d (BitVec.ofNat 32 n) false
      | _ => c)
  if !c.acceptable .CP then s
  else match q.instr with
  | .cpy _ _ =>
    let t := cpyLines s k q (List.range (cpyRows q))
    if t.1.any t.2.ms.owned then s else enqueue (t.2.updMs (·.take .CP k n t.1.eraseDups))
  | _ => enqueue s

/-- The command at the turn is replaced; a page it was held on is done with. -/
def CpyCore.setHead (c : CpyCore) (q : Cmd) : CpyCore := { c with queue := q :: c.queue.drop 1, rearmed := none }

/-- The engine state of a command that has left. -/
def CpyCore.clear (c : CpyCore) : CpyCore := { c with row := 0, c1 := 0xFFFFFFFF, c2 := 0xFFFFFFFF, pend := [] }

/-- The completion word (R392). -/
def cpyWord (q : Cmd) (status : Nat) (ver : Bool) : Word :=
  let kind := match q.instr with
    | .cpy _ _ => 1
    | .demote _ _ => 2
    | _ => 3
  BitVec.ofNat 32 (kind * 2 ^ 28 + status * 2 ^ 24 + (if ver then 2 ^ 16 else 0) + q.seq)

/-- Lines that clean pending writes cover whole: their poison is cleared (R386, R200). -/
def wholeLines (pend : List (Nat × Byte × Bool)) : List Nat :=
  (linesOf (pend.map (·.1))).filter (fun l =>
    (List.range 64).all (fun i => pend.any (fun w => w.1 == l * 64 + i)) && !pend.any (fun w => w.1 / 64 == l && w.2.2))

/-- Completion: the pending writes at P, release, and the q3 word (R176, R394). -/
def cpyFinish (s : State) (k : Nat) (q : Cmd) (status : Nat) (ver : Bool) : State :=
  let pend := (s.core k).cpy.pend
  let s := s.updMs (fun m => (wholeLines pend).foldl (fun m l => m.cleanLine l) m)
  let s := (engineWrite s .CP k q.launch pend).updMs (·.release .CP k q.seq)
  let s := s.updCore k (fun c =>
    let c := popCmd c .CP
    let c := { c with cpy := c.cpy.clear }
    if q.dead then c else c.push 3 ⟨cpyWord q status ver, false⟩)
  s.count (coreDie k) 0x504 (coreClu k) pend.length

/-- A cause of the command at the turn (R386): page causes are held; any other completes it with STATUS 3, the rows done
standing. -/
def cpyCause (s : State) (k : Nat) (q : Cmd) (cause : Nat) (detail addr : Word) : State :=
  let flt : FaultRec := { cause, f1 := q.seq, addr }
  let w : Waiting := ⟨cause, if cause = 0x60 then detail else q.a, addr⟩
  if isPage cause then holdCmd s k .CP q flt w
  else
    let pend := (s.core k).cpy.pend
    let s := s.updMs (fun m => (wholeLines pend).foldl (fun m l => m.cleanLine l) m)
    let s := faultCmd (engineWrite s .CP k q.launch pend) k .CP q flt w
    let s := s.updCore k (fun c =>
      let c := { c with cpy := c.cpy.clear }
      if q.dead then c else c.push 3 ⟨cpyWord q 3 false, false⟩)
    s.count (coreDie k) 0x504 (coreClu k) pend.length

/-- The latest pending write of a byte. -/
def pending (pend : List (Nat × Byte × Bool)) (a : Nat) : Option (Byte × Bool) :=
  (pend.reverse.find? (fun w => w.1 == a)).map (·.2)

/-- COPY_ROW_READ (R394, R398): the next row is read whole, then enters the pending writes. -/
def execCopyRowRead (k : Nat) (s : State) : Out :=
  let c := s.core k
  let r := c.cpy.row
  match c.cpy.queue with
  | [] => .next s
  | q :: _ =>
    match q.instr with
    | .cpy _ _ =>
      if !engineReady s k .CP q.asid || cpyRows q ≤ r then .next s
      else match engineRead s .CP k q.seq q.asid q.pc (vaRange (cpySrc q r) (cpyLen q)) with
      | .wait => .next s
      | .cause cause detail va s => .next (cpyCause s k q cause detail (BitVec.ofNat 32 va))
      | .ok bs s =>
        let spas := match (translateRun s (coreDie k) q.asid .load (vaRange (cpySrc q r) (cpyLen q)) []).1 with
          | .inl pas => pas
          | .inr _ => []
        match translateRun s (coreDie k) q.asid .store (vaRange (cpyDst q r) (cpyLen q)) [] with
        | (.inr (cause, detail, va), s) => .next (cpyCause s k q cause detail (BitVec.ofNat 32 va))
        | (.inl pas, s) =>
          if pas.any (fun p => s.ms.ownedByOther .CP k q.seq (p / 64)) then .next s
          else
            let row := (spas.zip bs).map (fun p => (pending c.cpy.pend p.1).getD p.2)
            let pend := c.cpy.pend ++ (pas.zip row).map (fun p => (p.1, p.2.1, p.2.2))
            let back := pas.map (fun p => ((pending pend p).map (·.1)).getD 0)
            let s := (s.touchFor .CP k q.asid ((vaRange (cpyDst q r) (cpyLen q)).zip pas)).updMs (fun m => m.take .CP k q.seq ((linesOf pas).filter (fun l => !m.owned l)))
            .next (s.updCore k (fun c => { c with cpy := { c.cpy with
              row := r + 1, pend, rearmed := none,
              c1 := if cpyVerify q then crcBytes c.cpy.c1 (row.map (·.1)) else c.cpy.c1,
              c2 := if cpyVerify q then crcBytes c.cpy.c2 back else c.cpy.c2 } }))
    | _ => .next s

/-- DEMOTE or PROMOTE at its turn (R397). -/
def cpyTier (s : State) (k : Nat) (q : Cmd) (target : Nat) (demote : Bool) : State :=
  let page := q.a.toNat / 65536
  let done (s : State) (st : Word) : State := s.updCore k (fun c => { c with cpy := c.cpy.setHead { q with done := some st } })
  match leafOf s q.asid page with
  | (none, _) => done s 1
  | (some (la, l), bad) =>
    let part := tget s.ms.asidPart 63 q.asid
    let m := s.ms.whole {
      asid := q.asid, page, run := leafRun l page, frame := leafFrame l, src := leafTier l, dst := target, part, leaf := la, by' := .cmd k q.seq }
    if !leafV l then done s 1
    else if bad ∨ l / 2 ^ 48 ≠ 0 ∨ (leafTier l ≠ 3 ∧ !(s.part part).grants (leafFrame l)) then cpyCause s k q 0x05 0 q.a
    else if s.ms.moves.any (fun x => x.asid == q.asid && x.page ≤ m.page + m.run && m.page ≤ x.page + x.run) then s
    else if leafTier l = target ∨ (demote ∧ target < leafTier l) then done s 1
    else if (List.range (m.run + 1)).any (fun i => s.inBerth q.asid ((m.page + i) * 65536)) then cpyCause s k q 0x05 0 q.a
    else if atHard s part target then cpyCause s k q 0x62 0 q.a
    else (s.updMs (·.ask m)).updCore k (fun c => { c with cpy := c.cpy.setHead { q with started := true } })

/-- The copy engine's part of ENGINE_READ: DEMOTE and PROMOTE at their turn. -/
def cpyRead (s : State) (k : Nat) : State :=
  match (s.core k).cpy.queue with
  | [] => s
  | q :: _ =>
    if q.started || q.done.isSome || !engineReady s k .CP q.asid then s
    else match q.instr with
    | .demote _ _ => cpyTier s k q (q.b.toNat % 4) true
    | .promote _ => cpyTier s k q 0 false
    | _ => s

/-- The copy engine's part of ENGINE_COMPLETE (R176, R392, R394). -/
def cpyComplete (s : State) (k : Nat) : State :=
  let c := s.core k
  match c.cpy.queue with
  | [] => s
  | q :: _ =>
    match q.instr with
    | .cpy _ _ =>
      if c.cpy.row < cpyRows q || !engineReady s k .CP q.asid then s
      else if cpyVerify q then
        let s := s.updCore k (fun c => { c with cpy := { c.cpy with crc := ~~~ c.cpy.c2 } })
        if c.cpy.c1 = c.cpy.c2 then cpyFinish s k q 0 true else cpyCause s k q 0x61 0 (q.data.getD 1 0)
      else cpyFinish s k q 0 false
    | _ =>
      match q.done with
      | some st => cpyFinish s k q st.toNat false
      | none => s

end Sys2Proof.Machine
end

