-- ==== Sys2Proof/Machine/Fetch.lean ====
section
/-!
DEFINITION. Sys2Proof/Machine/Fetch.lean: instruction fetch through the cluster's port and instruction cache and the core's
fetch buffer of four words (R36, R103, R144, R211, R377).
-/
namespace Sys2Proof.Machine
open Sys2Proof

/-- A fetch: the word, a cause at its address, or a wait for an owned line (R177). -/
inductive Fetched where
  | word (w : Word) (s : State) | cause (cause : Nat) (detail : Word) (s : State) | wait

/-- The fetch port is a party of its cluster (R18). -/
def fetchParty (k : Nat) : Party := if isService k then .core k else .cluster (coreClu k)

/-- The word of a line at an address. -/
def lineWord (bs : List Byte) (pc : Word) : Word := wordOf ((bs.drop (pc.toNat % 64)).take 4)

/-- Reads a word through the instruction cache, which fills its line from memory (R144, R377); a full one loses its oldest line (R9;
DESIGN CHOICE, log 70). -/
def cacheWord (s : State) (k : Nat) (pc : Word) : Fetched :=
  let c := s.core k
  let line := pc.toNat / 64
  match (s.cluster (coreClu k)).icache.find? (fun l => l.1 == c.masid && l.2.1 == line) with
  | some l => .word (lineWord l.2.2 pc) s
  | none =>
    match translate s (coreDie k) c.masid pc.toNat .fetch with
    | (.bad cause detail, s) => .cause cause detail s
    | (.ok pa _, s) =>
      if s.ms.owned (pa / 64) then .wait
      else
        let bs := s.ms.bytesAt (fetchParty k) (pa / 64 * 64) 64
        .word (lineWord bs pc) (s.updCluster (coreClu k) (fun x => { x with icache := ((c.masid, line, bs) :: x.icache).take Config.icacheLines }))

/-- The word at the PC: from the head of the fetch buffer, which a transfer has emptied, or through the cache. -/
def fetchWord (s : State) (k : Nat) (pc : Word) : Fetched :=
  match (s.core k).fbuf with
  | (a, w) :: r => if a = pc.toNat then .word w (s.updCore k (fun c => { c with fbuf := r }))
    else cacheWord (s.updCore k (fun c => { c with fbuf := [] })) k pc
  | [] => cacheWord s k pc

/-- A core fetches one more word ahead, up to four (R144). A cause met there is not taken. -/
def prefetch (s : State) (k : Nat) : State :=
  let c := s.core k
  let pc := c.pc + 4 * BitVec.ofNat 32 c.fbuf.length
  if 4 ≤ c.fbuf.length then s
  else match cacheWord s k pc with
  | .word w s => s.updCore k (fun c => { c with fbuf := c.fbuf ++ [(pc.toNat, w)] })
  | _ => s

end Sys2Proof.Machine
end

