-- ==== Sys2Proof/Machine/VectorOps.lean ====
section
/-!
DEFINITION. Sys2Proof/Machine/VectorOps.lean: what vector entries compute (R240 to R252), their addresses and bytes (R253 to
R255), and the die router tree (R74, R227 to R229).
-/
namespace Sys2Proof.Machine
open Sys2Proof

abbrev VRegs := Vector (List PWord) 16

/-- Lane i of vn. -/
def vlane (v : VRegs) (n : VReg) (i : Nat) : PWord := v[n].getD i {}

/-- The b operand: vb's lane, or S in every lane (R239). -/
def blane (v : VRegs) (n : VReg) (xs : XReg) (e : VEntry) (i : Nat) : PWord :=
  if xs.val = 0 then vlane v n i else ⟨e.s, e.sp⟩

def lane1 (f : Word → Word) (a : PWord) : PWord := ⟨f a.w, a.poison⟩
def lane2 (f : Word → Word → Word) (a b : PWord) : PWord := ⟨f a.w b.w, a.poison || b.poison⟩
def lane3 (f : Word → Word → Word → Word) (a b c : PWord) : PWord := ⟨f a.w b.w c.w, a.poison || b.poison || c.poison⟩

/-- VABS and VNEG (R242): a NaN lane gives the canonical NaN. -/
def vabs (a : Word) : Word := if isNaN32 a then nan32 else a &&& 0x7FFFFFFF
def vneg (a : Word) : Word := if isNaN32 a then nan32 else a ^^^ 0x80000000

/-- VCMP (R243). -/
def vcmp (c : VCond) (a b : Word) : Word :=
  let r := match c with
    | .eq => fpEq a b
    | .lt => fpLt a b
    | .le => fpLe a b
    | .ne => !fpEq a b
    | .ieq => a == b
    | .ilt => ltS a b
    | .iltn => ltU a b
  if r then 0xFFFFFFFF else 0

/-- VSEL (R244). -/
def vsel (a b c : Word) : Word := (a &&& b) ||| (~~~a &&& c)

/-- VCVT (R246). -/
def vcvt (k : VCvt) (a : Word) : Word :=
  match k with
  | .f2i => fcvtw .rne a
  | .i2f => intToFP .rne a.toInt
  | .n2f => intToFP .rne a.toNat
  | .f2b => fpNarrow bf16 .rne a
  | .b2f => fpWiden bf16 (a.toNat % 65536)
  | .f2h => fpNarrow fp16 .rne a
  | .h2f => fpWiden fp16 (a.toNat % 65536)
  | .f2i8 => BitVec.ofInt 32 (fpToInt .rne (-128) 127 a)
  | .f2n8 => BitVec.ofInt 32 (fpToInt .rne 0 255 a)
  | .i82f => intToFP .rne (a.truncate 8 : BitVec 8).toInt
  | .n82f => intToFP .rne (a.toNat % 256)

/-- Fields of a block of the unpacked form (R250): E, the pairs' micro bits, the element fields; lanes past g count as
field 0 and micro 1. -/
def blockE (v : VRegs) (n : VReg) (b : Nat) : Nat := (vlane v n (16 * b)).w.toNat / 256 % 256
def blockMu (v : VRegs) (n : VReg) (g b p : Nat) : Nat :=
  if 16 * b + 2 * p < g then (vlane v n (16 * b + 2 * p)).w.toNat / 65536 % 2 else 1
def blockField (f : SEFmt) (v : VRegs) (n : VReg) (g b j : Nat) : Nat :=
  if 16 * b + j < g then (vlane v n (16 * b + j)).w.toNat % 2 ^ (seM f + 1) else 0

/-- A block holds a poisoned lane. -/
def blockPoison (v : VRegs) (n : VReg) (b : Nat) : Bool := (List.range 16).any (fun j => (vlane v n (16 * b + j)).poison)

/-- VQNT (R251). -/
def vqnt (f : SEFmt) (v : VRegs) (a : VReg) (g : Nat) (i : Nat) : PWord :=
  let b := i / 16
  let q := quantise f ((List.range 16).map (fun j => if 16 * b + j < g then (vlane v a (16 * b + j)).w else 0))
  ⟨BitVec.ofNat 32 (q.2.1.getD (i % 16 / 2) 0 * 65536 + q.1 * 256 + q.2.2.getD (i % 16) 0), blockPoison v a b⟩

/-- VDQ (R252). -/
def vdq (f : SEFmt) (v : VRegs) (a : VReg) (g : Nat) (i : Nat) : PWord :=
  let b := i / 16
  ⟨seValue f (blockField f v a g b (i % 16)) (blockE v a b) (blockMu v a g b (i % 16 / 2)), blockPoison v a b⟩

/-- What an entry writes to a vector register, lane by lane (R240 to R252): none for an entry of another kind. -/
def laneEffect (e : VEntry) (v : VRegs) (g : Nat) : Option (VReg × (Nat → PWord)) :=
  match e.instr with
  | .vadd d a b xs => some (d, fun i => lane2 (fpAdd .rne) (vlane v a i) (blane v b xs e i))
  | .vsub d a b xs => some (d, fun i => lane2 (fpSub .rne) (vlane v a i) (blane v b xs e i))
  | .vmul d a b xs => some (d, fun i => lane2 (fpMul .rne) (vlane v a i) (blane v b xs e i))
  | .vfma d a b c xs => some (d, fun i => lane3 (fpFma .rne) (vlane v a i) (blane v b xs e i) (vlane v c i))
  | .vmin d a b xs => some (d, fun i => lane2 fpMin (vlane v a i) (blane v b xs e i))
  | .vmax d a b xs => some (d, fun i => lane2 fpMax (vlane v a i) (blane v b xs e i))
  | .vabs d a => some (d, fun i => lane1 vabs (vlane v a i))
  | .vneg d a => some (d, fun i => lane1 vneg (vlane v a i))
  | .vcmp c d a b xs => some (d, fun i => lane2 (vcmp c) (vlane v a i) (blane v b xs e i))
  | .vsel d a b c => some (d, fun i => lane3 vsel (vlane v a i) (vlane v b i) (vlane v c i))
  | .vand d a b xs => some (d, fun i => lane2 (· &&& ·) (vlane v a i) (blane v b xs e i))
  | .vor d a b xs => some (d, fun i => lane2 (· ||| ·) (vlane v a i) (blane v b xs e i))
  | .vxor d a b xs => some (d, fun i => lane2 (· ^^^ ·) (vlane v a i) (blane v b xs e i))
  | .vshl d a b xs => some (d, fun i => lane2 (fun x y => x <<< shAmt y) (vlane v a i) (blane v b xs e i))
  | .vshr d a b xs => some (d, fun i => lane2 (fun x y => x >>> shAmt y) (vlane v a i) (blane v b xs e i))
  | .vshrA d a b xs => some (d, fun i => lane2 (fun x y => x.sshiftRight (shAmt y)) (vlane v a i) (blane v b xs e i))
  | .viadd d a b xs => some (d, fun i => lane2 (· + ·) (vlane v a i) (blane v b xs e i))
  | .vimul d a b xs => some (d, fun i => lane2 (· * ·) (vlane v a i) (blane v b xs e i))
  | .vcvt k d a => some (d, fun i => lane1 (vcvt k) (vlane v a i))
  | .vrcp d a => some (d, fun i => lane1 vrcp (vlane v a i))
  | .vrsq d a => some (d, fun i => lane1 vrsq (vlane v a i))
  | .vexp2 d a => some (d, fun i => lane1 vexp2 (vlane v a i))
  | .vlog2 d a => some (d, fun i => lane1 vlog2 (vlane v a i))
  | .vtanh d a => some (d, fun i => lane1 vtanh (vlane v a i))
  | .vmovCopy d a => some (d, fun i => vlane v a i)
  | .vmovBroadcast d _ => some (d, fun _ => ⟨e.s, e.sp⟩)
  | .vmovIdx d => some (d, fun i => ⟨BitVec.ofNat 32 i, false⟩)
  | .vqnt f d a => some (d, vqnt f v a g)
  | .vdq f d a => some (d, vdq f v a g)
  | _ => none

/-- VRED (R249). -/
def vred (r : VRedOp) (l : List PWord) : PWord :=
  let ws := l.map (·.w)
  ⟨match r with
    | .sum => sumTree 9 ws
    | .min => (ws.drop 1).foldl fpMin (ws.headD 0)
    | .max => (ws.drop 1).foldl fpMax (ws.headD 0)
    | .isum => ws.foldl (· + ·) 0, l.any (·.poison)⟩

/-- What an entry pushes to q1 (R248, R249). -/
def pushEffect (e : VEntry) (v : VRegs) (g : Nat) : Option PWord :=
  match e.instr with
  | .vred r a => some (vred r ((List.range g).map (vlane v a)))
  | .vmovGet a _ => some (if e.s.toNat < g then ⟨(vlane v a e.s.toNat).w, (vlane v a e.s.toNat).poison || e.sp⟩ else ⟨0, e.sp⟩)
  | _ => none

/-! Memory forms. -/

def form3Size : VForm3 → Nat
  | .w => 4 | .h => 2 | .b => 1

/-- Bytes of a contiguous form over g lanes (R253). -/
def formBytes (f : VForm) (g : Nat) : Nat :=
  match f with
  | .w => 4 * g
  | .h => 2 * g
  | .b => g
  | .se2 => seBytes .se2 * ((g + 15) / 16)
  | .se4 => seBytes .se4 * ((g + 15) / 16)
  | .se7 => seBytes .se7 * ((g + 15) / 16)
  | .sc => (g + 15) / 16

/-- Alignment of a form's base (R253). -/
def formAlign : VForm → Nat
  | .w => 4 | .h => 2 | .b => 1 | .se2 => 2 | .se4 => 2 | .se7 => 2 | .sc => 1

/-- Addresses of a gather or scatter, lane by lane (R255). -/
def gatherAddrs (f : VForm3) (v : VRegs) (off : VReg) (g : Nat) (base : Word) : List Nat :=
  ((List.range g).map (fun i =>
    let a := (base + (vlane v off i).w).toNat / form3Size f * form3Size f
    (List.range (form3Size f)).map (a + ·))).flatten

/-- Addresses that a memory entry reads or writes, in order (R254, R255); `base` includes the pass's stride. -/
def entryAddrs (i : Instr) (v : VRegs) (g : Nat) (base : Word) : List Nat :=
  match i with
  | .vld f _ _ | .vst f _ _ => vaRange base.toNat (formBytes f g)
  | .vgth f _ a _ => gatherAddrs f v a g base
  | .vsct f _ b _ => gatherAddrs f v b g base
  | _ => []

/-- The n bytes from `at` as a number and their poison. -/
def takeNum (bs : List (Byte × Bool)) (at' n : Nat) : Nat × Bool :=
  let x := (bs.drop at').take n
  (bytesToNat (x.map (·.1)), x.any (·.2))

/-- Lane i of a load from the bytes read (R253). -/
def loadLane (f : VForm) (bs : List (Byte × Bool)) (i : Nat) : PWord :=
  let se (f : SEFmt) : PWord :=
    let blk := (bs.drop (i / 16 * seBytes f)).take (seBytes f)
    let u := seUnpack f (blk.map (·.1))
    ⟨BitVec.ofNat 32 (u.1.getD (i % 16 / 2) 0 * 65536 + u.2.getD (i % 16) 0), blk.any (·.2)⟩
  let nat (n : Nat × Bool) : PWord := ⟨BitVec.ofNat 32 n.1, n.2⟩
  match f with
  | .w => nat (takeNum bs (4 * i) 4)
  | .h => nat (takeNum bs (2 * i) 2)
  | .b => nat (takeNum bs i 1)
  | .se2 => se .se2
  | .se4 => se .se4
  | .se7 => se .se7
  | .sc => let n := takeNum bs (i / 16) 1; ⟨BitVec.ofNat 32 (n.1 * 256), n.2⟩

def form3 : VForm3 → VForm
  | .w => .w | .h => .h | .b => .b

/-- Bytes that a store writes, with the poison of their lanes (R253). -/
def storeBytes (f : VForm) (v : VRegs) (a : VReg) (g : Nat) : List (Byte × Bool) :=
  let plain (n : Nat) : List (Byte × Bool) :=
    ((List.range g).map (fun i => (bytesLE n (vlane v a i).w.toNat).map (fun b => (b, (vlane v a i).poison)))).flatten
  let se (f : SEFmt) : List (Byte × Bool) :=
    ((List.range ((g + 15) / 16)).map (fun b =>
      (sePack f ((List.range 8).map (blockMu v a g b)) ((List.range 16).map (blockField f v a g b))).map
        (fun x => (x, blockPoison v a b)))).flatten
  match f with
  | .w => plain 4
  | .h => plain 2
  | .b => plain 1
  | .se2 => se .se2
  | .se4 => se .se4
  | .se7 => se .se7
  | .sc => (List.range ((g + 15) / 16)).map (fun b => (BitVec.ofNat 8 (blockE v a b), (vlane v a (16 * b)).poison))

/-! The router tree. -/

def descTag (d : Word) : Nat := wf d 0 4
def descRoot (die : Nat) (d : Word) : Nat := coreAt die (wf d 18 7 / 16) (wf d 18 7 % 16)

/-- A descriptor that VREDPUT refuses with TREE_FAULT (R229). -/
def descBad (d : Word) (k : Nat) : Bool :=
  d.toNat / 2 ^ 25 ≠ 0 || wf d 7 3 < wf d 4 3 || wf d 14 4 < wf d 10 4 || !descHas d k || !descHas d (descRoot (coreDie k) d)

/-- Children that take part: cores of a cluster, clusters of a row, rows of a die (R227). -/
def clusterTakes (d : Word) (c : Nat) : Bool := (List.range 8).any (fun n => descHas d (c * 8 + n))
def rowTakes (d : Word) (die r : Nat) : Bool := (List.range 4).any (fun n => clusterTakes d (die * 16 + 4 * r + n))

/-- A child's vector reaches a router; a differing descriptor or grant marks the reduction (R229). None: the tag is busy with a
reduction in which the child takes no part, or has taken it. -/
def Reduction.join (r : Option Reduction) (takes : Word → Bool) (child : Nat) (desc : Word) (g : Nat) (v : List PWord) (bad : Bool) :
    Option Reduction :=
  match r with
  | none => some { desc, g, kids := [(child, v)], bad }
  | some r =>
    if (tfind r.kids child).isSome || !takes r.desc then none
    else some { r with kids := tset r.kids child v, bad := r.bad || bad || r.desc != desc || r.g != g }

/-- Lanewise addition in ascending child order (R74). -/
def Reduction.total (r : Reduction) : List PWord :=
  match r.kids with
  | [] => []
  | k :: rest => rest.foldl (fun a b => (a.zip b.2).map (fun p => lane2 (fpAdd .rne) p.1 p.2)) k.2

/-- Every reduction of a tag that a die's routers hold. -/
def State.reductions (s : State) (die tag : Nat) : List Reduction :=
  ((List.range 16).filterMap (fun c => tfind (s.cluster (die * 16 + c)).router tag)) ++
  ((List.range 4).filterMap (fun r => tfind (s.die die).rowRouter (r * 16 + tag))) ++
  (tfind (s.die die).rootRouter tag).toList

/-- VREDGET at a core that is not the ROOT of the tag's pending reduction (R229). -/
def wrongRoot (s : State) (k tag : Nat) : Bool :=
  let die := coreDie k
  let roots := (s.reductions die tag).map (fun r => descRoot die r.desc) ++
    ((s.die die).totals.filter (fun t => t.2.1 == tag)).map (·.1)
  !roots.isEmpty && !roots.contains k

/-- The rectangles of two descriptors share a core. -/
def descMeets (a b : Word) : Bool :=
  wf a 4 3 ≤ wf b 7 3 && wf b 4 3 ≤ wf a 7 3 && wf a 10 4 ≤ wf b 14 4 && wf b 10 4 ≤ wf a 14 4

/-- A router's slot for a tag frees where its reduction shares a core with the descriptor's. -/
def freeSlot (t : Tbl Reduction) (n : Nat) (desc : Word) : Tbl Reduction :=
  if (tfind t n).any (fun r => descMeets r.desc desc) then terase t n else t

/-- A mismatched reduction is discarded: each router's slot for it frees, and a root core learns of it once. Where its descriptors name
different roots, that is the root of the one which the router held first (R229; DESIGN CHOICE, log 76). -/
def dropReduction (s : State) (die tag : Nat) (desc : Word) : State :=
  let s := (List.range 16).foldl (fun s c => s.updCluster (die * 16 + c) (fun x => { x with router := freeSlot x.router tag desc })) s
  s.updDie die (fun d =>
    let e : Nat × Nat × Word × Option (List PWord) := (descRoot die desc, tag, desc, none)
    { d with
      rowRouter := (List.range 4).foldl (fun t r => freeSlot t (r * 16 + tag) desc) d.rowRouter,
      rootRouter := freeSlot d.rootRouter tag desc,
      totals := if d.totals.contains e then d.totals else d.totals ++ [e] })

/-- A fenced core of the descriptor's rectangle has not put its vector, so the reduction cannot end (R237). -/
def fencedOut (s : State) (die : Nat) (desc : Word) : Bool :=
  s.cores.any (fun c => c.2.fenced && c.1 / 128 == die && descHas desc c.1 && !s.hasPut c.1 (descTag desc))

/-- ROUTER_REDUCE (R74, R227, R229): the router of a die at a level (0 cluster, 1 row, 2 root) whose children have all
delivered passes its sum on; at the root it goes to the root core. -/
def execRouterReduce (die level idx tag : Nat) (s : State) : Out :=
  let d := s.die die
  let slot := match level with
    | 0 => tfind (s.cluster (die * 16 + idx)).router tag
    | 1 => tfind d.rowRouter (idx * 16 + tag)
    | _ => tfind d.rootRouter tag
  match slot with
  | none => .next s
  | some r =>
    let kids := match level with
      | 0 => (List.range 8).filter (fun n => descHas r.desc ((die * 16 + idx) * 8 + n))
      | 1 => (List.range 4).filter (fun n => clusterTakes r.desc (die * 16 + 4 * idx + n))
      | _ => (List.range 4).filter (rowTakes r.desc die)
    if r.bad then .next (dropReduction s die tag r.desc)
    else if !kids.all (fun n => (tfind r.kids n).isSome) then .next s
    else match level with
    | 0 =>
      match Reduction.join (tfind d.rowRouter (idx / 4 * 16 + tag)) (clusterTakes · (die * 16 + idx)) (idx % 4) r.desc r.g r.total r.bad with
      | none => .next s
      | some x =>
        let s := s.updCluster (die * 16 + idx) (fun c => { c with router := terase c.router tag })
        .next (s.updDie die (fun d => { d with rowRouter := tset d.rowRouter (idx / 4 * 16 + tag) x }))
    | 1 =>
      match Reduction.join (tfind d.rootRouter tag) (rowTakes · die idx) idx r.desc r.g r.total r.bad with
      | none => .next s
      | some x => .next (s.updDie die (fun d =>
        { d with rowRouter := terase d.rowRouter (idx * 16 + tag), rootRouter := tset d.rootRouter tag x }))
    | _ => .next (s.updDie die (fun d =>
        { d with rootRouter := terase d.rootRouter tag, totals := d.totals ++ [(descRoot die r.desc, tag, r.desc, some r.total)] }))

end Sys2Proof.Machine
end

