-- ==== Sys2Proof/Machine/Vector.lean ====
section
/-!
DEFINITION. Sys2Proof/Machine/Vector.lean: the vector instructions at the core (R238 to R262), the sequencer (R224, R225,
R230, R234), and its events.
-/
namespace Sys2Proof.Machine
open Sys2Proof

/-! The sequencer. -/

/-- The entry at its turn (R224, R225). -/
def VecCore.current (v : VecCore) : Option VEntry := if v.passes = 0 then v.seq.head? else v.seq[v.pos]?

/-- Lanes that the entries act on: those of the grant, or those held for an ended task (R88). -/
def VecCore.lanes (v : VecCore) : Nat := if v.dead then v.heldLanes else v.grant

/-- Base address of an entry in the pass at hand (R225). -/
def VecCore.base (v : VecCore) (e : VEntry) : Word := e.s + BitVec.ofNat 32 v.pass * v.lstride

/-- VLC (R223, R262): passes not yet begun. -/
def VecCore.vlcNow (v : VecCore) : Nat :=
  if v.pos ≠ 0 || v.rd.isSome || v.wr.isSome || v.waiting.isSome || v.rearmed.isSome then v.passes - 1 else v.passes

/-- The lanes held for an ended task go free when its entries have ended (R88). -/
def VecCore.settle (v : VecCore) : VecCore :=
  if v.dead && v.seq.isEmpty then { v with dead := false, heldLanes := 0, v := Vector.replicate 16 [] } else v

/-- The current entry completes: the sequencer goes on, and how many entries fall from VX (R224, R262). -/
def VecCore.next (v : VecCore) : VecCore × Nat :=
  let v : VecCore := { v with rd := none, wr := none, rearmed := none }
  if v.passes = 0 then ({ v with seq := v.seq.drop 1 }, 1)
  else if v.pos + 1 < v.len then ({ v with pos := v.pos + 1 }, if v.passes = 1 then 1 else 0)
  else if v.passes = 1 then ({ v with seq := v.seq.drop v.len, passes := 0, pass := 0, pos := 0, len := 0, lstride := 0 }, 1)
  else ({ v with passes := v.passes - 1, pass := v.pass + 1, pos := 0 }, 0)

def Core.vecNext (c : Core) : Core :=
  let r := c.vec.next
  { c with vec := r.1.settle }.drop .VX r.2

/-- Completion of the current entry, whose poisoned sources it consumes (R194, R235). -/
def vecDone (s : State) (k : Nat) (e : VEntry) (poison : Bool) : State :=
  (consume s k e.pc poison).updCore k Core.vecNext

/-- Lanes written to a register: lane i of the list, where it has one. -/
def VecCore.write (v : VecCore) (d : VReg) (ls : List PWord) : VecCore :=
  { v with v := v.v.set d (ls ++ (v.v[d]).drop ls.length) }

/-- The core hands entries to its sequencer (R224). -/
def Core.handOff (c : Core) (es : List VEntry) : Core :=
  { c with vec := { c.vec with seq := c.vec.seq ++ es } }.bump .VX es.length

/-! Hand-off at the core (R238). -/

/-- The checks common to opcodes 0x34 and 0x35: a renegotiation that has issued takes effect first (R258), then NO_GRANT. -/
def vecGate (i : Instr) (u : Uses) (s : State) (go : Vals → State → Out) : Out :=
  gate i u s fun v s =>
    if (s.core s.cur).vec.reneg.isSome then .next (stand i s)
    else if (s.core s.cur).vec.grant = 0 then .next (raiseD s 0x20 (instrWord i) 0)
    else go v s

def mkEntry (c : Core) (i : Instr) (v : Vals) : VEntry :=
  { instr := i, s := v.ds.getD 0 0, sp := v.poison, word := instrWord i, pc := c.pc, asid := c.masid, launch := c.launch }

/-- The entry takes its place in the sequencer and the core goes on; it waits while FULL (R224). -/
def vecHand (i : Instr) (u : Uses) (v : Vals) (s : State) : Out :=
  if (s.core s.cur).fullQ .VX then .next (stand i s)
  else .next (retireNext u (s.updCore s.cur (fun c => c.handOff [mkEntry c i v])) v.poison)

/-- Hand-off of an entry that touches no memory (R230). -/
def vecOp (i : Instr) (xs : List XReg) (s : State) : Out :=
  let u : Uses := { ds := xs, engs := [.VX] }
  vecGate i u s fun v s => vecHand i u v s

/-- Hand-off of a memory entry: alignment of S, then an engine issue (R230, R254). -/
def vecMem (i : Instr) (xs : XReg) (align : Nat) (s : State) : Out :=
  let u : Uses := { ds := [xs], engs := [.VX], moves := true }
  offered i u s <| vecGate i u s fun v s =>
    let base := v.ds.getD 0 0
    if base.toNat % align ≠ 0 then .next (raise i s 0x04 base)
    else engineIssue i u .VX { v with a := base } s []

/-! Entries that touch no memory. -/

/-- `VADD` (R240). -/
def execVadd (d : VReg) (a : VReg) (b : VReg) (xs : XReg) (s : State) : Out := vecOp (.vadd d a b xs) [xs] s
/-- `VSUB` (R240). -/
def execVsub (d : VReg) (a : VReg) (b : VReg) (xs : XReg) (s : State) : Out := vecOp (.vsub d a b xs) [xs] s
/-- `VMUL` (R240). -/
def execVmul (d : VReg) (a : VReg) (b : VReg) (xs : XReg) (s : State) : Out := vecOp (.vmul d a b xs) [xs] s
/-- `VFMA` (R241). -/
def execVfma (d : VReg) (a : VReg) (b : VReg) (c : VReg) (xs : XReg) (s : State) : Out := vecOp (.vfma d a b c xs) [xs] s
/-- `VMIN` (R240). -/
def execVmin (d : VReg) (a : VReg) (b : VReg) (xs : XReg) (s : State) : Out := vecOp (.vmin d a b xs) [xs] s
/-- `VMAX` (R240). -/
def execVmax (d : VReg) (a : VReg) (b : VReg) (xs : XReg) (s : State) : Out := vecOp (.vmax d a b xs) [xs] s
/-- `VABS` (R242). -/
def execVabs (d : VReg) (a : VReg) (s : State) : Out := vecOp (.vabs d a) [] s
/-- `VNEG` (R242). -/
def execVneg (d : VReg) (a : VReg) (s : State) : Out := vecOp (.vneg d a) [] s
/-- `VCMP` (R243). -/
def execVcmp (c : VCond) (d : VReg) (a : VReg) (b : VReg) (xs : XReg) (s : State) : Out := vecOp (.vcmp c d a b xs) [xs] s
/-- `VSEL` (R244). -/
def execVsel (d : VReg) (a : VReg) (b : VReg) (c : VReg) (s : State) : Out := vecOp (.vsel d a b c) [] s
/-- `VAND` (R245). -/
def execVand (d : VReg) (a : VReg) (b : VReg) (xs : XReg) (s : State) : Out := vecOp (.vand d a b xs) [xs] s
/-- `VOR` (R245). -/
def execVor (d : VReg) (a : VReg) (b : VReg) (xs : XReg) (s : State) : Out := vecOp (.vor d a b xs) [xs] s
/-- `VXOR` (R245). -/
def execVxor (d : VReg) (a : VReg) (b : VReg) (xs : XReg) (s : State) : Out := vecOp (.vxor d a b xs) [xs] s
/-- `VSHL` (R245). -/
def execVshl (d : VReg) (a : VReg) (b : VReg) (xs : XReg) (s : State) : Out := vecOp (.vshl d a b xs) [xs] s
/-- `VSHR` (R245). -/
def execVshr (d : VReg) (a : VReg) (b : VReg) (xs : XReg) (s : State) : Out := vecOp (.vshr d a b xs) [xs] s
/-- `VSHR_A` (R245). -/
def execVshrA (d : VReg) (a : VReg) (b : VReg) (xs : XReg) (s : State) : Out := vecOp (.vshrA d a b xs) [xs] s
/-- `VIADD` (R245). -/
def execViadd (d : VReg) (a : VReg) (b : VReg) (xs : XReg) (s : State) : Out := vecOp (.viadd d a b xs) [xs] s
/-- `VIMUL` (R245). -/
def execVimul (d : VReg) (a : VReg) (b : VReg) (xs : XReg) (s : State) : Out := vecOp (.vimul d a b xs) [xs] s
/-- `VCVT` (R246). -/
def execVcvt (k : VCvt) (d : VReg) (a : VReg) (s : State) : Out := vecOp (.vcvt k d a) [] s
/-- `VRCP` (R247). -/
def execVrcp (d : VReg) (a : VReg) (s : State) : Out := vecOp (.vrcp d a) [] s
/-- `VRSQ` (R247). -/
def execVrsq (d : VReg) (a : VReg) (s : State) : Out := vecOp (.vrsq d a) [] s
/-- `VEXP2` (R247). -/
def execVexp2 (d : VReg) (a : VReg) (s : State) : Out := vecOp (.vexp2 d a) [] s
/-- `VLOG2` (R247). -/
def execVlog2 (d : VReg) (a : VReg) (s : State) : Out := vecOp (.vlog2 d a) [] s
/-- `VTANH` (R247). -/
def execVtanh (d : VReg) (a : VReg) (s : State) : Out := vecOp (.vtanh d a) [] s
/-- `VRED` (R249). -/
def execVred (r : VRedOp) (a : VReg) (s : State) : Out := vecOp (.vred r a) [] s
/-- `VMOV_COPY` (R248). -/
def execVmovCopy (d : VReg) (a : VReg) (s : State) : Out := vecOp (.vmovCopy d a) [] s
/-- `VMOV_BROADCAST` (R248). -/
def execVmovBroadcast (d : VReg) (xs : XReg) (s : State) : Out := vecOp (.vmovBroadcast d xs) [xs] s
/-- `VMOV_IDX` (R248). -/
def execVmovIdx (d : VReg) (s : State) : Out := vecOp (.vmovIdx d) [] s
/-- `VMOV_GET` (R248). -/
def execVmovGet (a : VReg) (xs : XReg) (s : State) : Out := vecOp (.vmovGet a xs) [xs] s
/-- `VQNT` (R251). -/
def execVqnt (f : SEFmt) (d : VReg) (a : VReg) (s : State) : Out := vecOp (.vqnt f d a) [] s
/-- `VDQ` (R252). -/
def execVdq (f : SEFmt) (d : VReg) (a : VReg) (s : State) : Out := vecOp (.vdq f d a) [] s

/-! Memory entries. -/

/-- `VLD` (R254). -/
def execVld (f : VForm) (d : VReg) (xs : XReg) (s : State) : Out := vecMem (.vld f d xs) xs (formAlign f) s
/-- `VST` (R254). -/
def execVst (f : VForm) (a : VReg) (xs : XReg) (s : State) : Out := vecMem (.vst f a xs) xs (formAlign f) s
/-- `VGTH` (R255): no lane is misaligned. -/
def execVgth (f : VForm3) (d a : VReg) (xs : XReg) (s : State) : Out := vecMem (.vgth f d a xs) xs 1 s
/-- `VSCT` (R255). -/
def execVsct (f : VForm3) (a b : VReg) (xs : XReg) (s : State) : Out := vecMem (.vsct f a b xs) xs 1 s

/-! The router tree at the core. -/

/-- The tag is busy at the core's cluster router: with a reduction that has the core's vector, or in which it takes no part (R229). -/
def slotBusy (s : State) (k tag : Nat) : Bool :=
  match tfind (s.cluster (coreClu k)).router tag with
  | some r => (tfind r.kids (k % 8)).isSome || !descHas r.desc k
  | none => false

/-- TREE_FAULT taken precisely at the instruction: it sets FAULT as well (R229, R233). -/
def treeFault (s : State) (tag : Nat) : State :=
  raiseD (s.updCore s.cur (fun c => { c with vec := { c.vec with flt := { fault := true, cause := 0x22 } } })) 0x22 (BitVec.ofNat 32 tag) 0

/-- `VREDPUT` (R229, R256): publishes at K and drains, then checks the descriptor, then waits for its tag's slot. -/
def execVredput (a : VReg) (xs : XReg) (s : State) : Out :=
  let i : Instr := .vredput a xs
  let u : Uses := { ds := [xs], engs := [.VX], moves := true }
  vecGate i u s fun v s => publish i s .K fun s => drain i s fun s =>
    let d := v.ds.getD 0 0
    if descBad d s.cur then .next (treeFault s (descTag d))
    else if slotBusy s s.cur (descTag d) then .next (stand i s)
    else vecHand i u v s

/-- `VREDGET` (R229, R257). -/
def execVredget (d : VReg) (xs : XReg) (s : State) : Out :=
  let i : Instr := .vredget d xs
  let u : Uses := { ds := [xs], engs := [.VX] }
  vecGate i u s fun v s =>
    let tag := (v.ds.getD 0 0).toNat % 16
    if wrongRoot s s.cur tag then .next (treeFault s tag)
    else vecHand i u v s

/-! Renegotiation (R220 to R222, R258 to R261). -/

def roundUp8 (n : Nat) : Nat := (n + 7) / 8 * 8

/-- A renegotiation issues once the sequencer is empty and the last one has taken effect; the core then goes on with scalar work
(R221, R258, log 40). -/
def renegotiate (i : Instr) (u : Uses) (s : State) (mk : Vals → Reneg) : Out :=
  gate i u s fun v s =>
    if (s.core s.cur).vec.reneg.isSome ∨ !(s.core s.cur).vec.seq.isEmpty then .next (stand i s)
    else .next (retireNext u (s.updCore s.cur (fun c =>
      let c : Core := { c with vec := { c.vec with reneg := some (mk v) } }
      match u.dst with
      | some d => c.produce { op := .engine .VX, d, b := v.a, bPoison := v.poison, pc := c.pc, instr := instrWord i, issuedAt := s.ck }
      | none => c)) v.poison)

/-- `VCLAIM` (R259). -/
def execVclaim (d : Dst) (a : Src) (s : State) : Out :=
  renegotiate (.vclaim d a) { a, dst := d, engs := [.VX] } s fun v => ⟨true, v.a, some d⟩
/-- `VREL` (R261). -/
def execVrel (s : State) : Out := renegotiate .vrel { engs := [.VX] } s fun _ => ⟨false, 0, none⟩
/-- `VYIELD` (R260). -/
def execVyield (d : Dst) (a : Src) (s : State) : Out :=
  renegotiate (.vyield d a) { a, dst := d, engs := [.VX] } s fun v => ⟨false, v.a, some d⟩

/-- Lanes of the cluster that the other seven cores hold (R219, R220). -/
def othersLanes (s : State) (k : Nat) : Nat :=
  ((List.range 8).map (fun n =>
    let j := coreClu k * 8 + n
    if j = k then 0 else (s.core j).vec.grant + (s.core j).vec.heldLanes)).sum

/-- The grant that a request receives (R220). -/
def grantFor (s : State) (k ask : Nat) : Nat :=
  min (min (min (roundUp8 ask) 256) (s.core k).vec.lim) (512 - othersLanes s k) / 8 * 8

/-- Registers after a change of grant (R222). -/
def VecCore.resize (v : VecCore) (g : Nat) : VecCore :=
  { v with grant := g, v := v.v.map (fun l => (List.range g).map (fun i => if i < v.grant then l.getD i {} else {})) }

/-- GRANT_RENEGOTIATION (R221, R258): once its sequencer is empty, the renegotiation of core k takes effect, and its producer
writes d. -/
def execGrantRenegotiation (k : Nat) (s : State) : Out :=
  let c := s.core k
  match c.vec.reneg with
  | none => .next s
  | some r =>
    if !c.vec.seq.isEmpty then .next s else
    let g := if r.claim then grantFor s k r.ask.toNat else min c.vec.grant (roundUp8 (min r.ask.toNat 256))
    let s := s.bankLanes k
    let c : Core := { c with vec := { c.vec.resize g with reneg := none }, dbg := { c.dbg with lanesAt := s.ck } }
    let poison := (c.acc.find? (fun a => a.op == .engine .VX)).any (·.bPoison)
    .next (s.setCore k (match c.acc.findIdx? (fun a => a.op == .engine .VX) with
      | some n => if r.d.isSome then c.finish s.ck n [BitVec.ofNat 32 g] poison else c
      | none => c))

/-! Vector loops. -/

/-- The xs field of an instruction of opcode 0x34 or 0x35; none for any other. -/
def vecXs : Instr → Option XReg
  | .vadd _ _ _ xs | .vsub _ _ _ xs | .vmul _ _ _ xs | .vfma _ _ _ _ xs | .vmin _ _ _ xs | .vmax _ _ _ xs
  | .vcmp _ _ _ _ xs | .vand _ _ _ xs | .vor _ _ _ xs | .vxor _ _ _ xs | .vshl _ _ _ xs | .vshr _ _ _ xs
  | .vshrA _ _ _ xs | .viadd _ _ _ xs | .vimul _ _ _ xs | .vmovBroadcast _ xs | .vmovGet _ xs
  | .vld _ _ xs | .vst _ _ xs | .vgth _ _ _ xs | .vsct _ _ _ xs | .vredput _ xs | .vredget _ xs => some xs
  | .vabs _ _ | .vneg _ _ | .vsel _ _ _ _ | .vcvt _ _ _ | .vrcp _ _ | .vrsq _ _ | .vexp2 _ _ | .vlog2 _ _ | .vtanh _ _
  | .vred _ _ | .vmovCopy _ _ | .vmovIdx _ | .vqnt _ _ _ | .vdq _ _ _ => some 0
  | _ => none

def isTree : Instr → Bool
  | .vredput _ _ | .vredget _ _ => true
  | _ => false

/-- Alignment of the base of a memory instruction (R253); 1 for all others. -/
def baseAlign : Instr → Nat
  | .vld f _ _ | .vst f _ _ => formAlign f
  | _ => 1

/-- What reading a VLOOP's body gives. -/
inductive Body where
  | ok (is : List Instr) (s : State) | trap (cause : Nat) (detail addr : Word) (s : State) | wait

/-- A body word lies at the end of an active loop level (R262). -/
def Core.endsLoop (c : Core) (addr : Word) : Bool :=
  (c.loop0.active && c.loop0.le == addr + 4) || (c.loop1.active && c.loop1.le == addr + 4)

/-- Fetches and checks the body words, in order (R262 item 1). -/
def fetchBody (s : State) (k n : Nat) (pc : Word) : List Nat → List Instr → Body
  | [], acc => .ok acc.reverse s
  | i :: r, acc =>
    let addr := pc + BitVec.ofNat 32 (4 + 4 * i)
    let f := match (s.core k).fbuf.find? (fun x => x.1 == addr.toNat) with
      | some x => Fetched.word x.2 s
      | none => cacheWord s k addr
    match f with
    | .wait => .wait
    | .cause cause detail s => .trap cause detail addr s
    | .word w s =>
      match decodeWord w with
      | .error _ => .trap 0x21 (BitVec.ofNat 32 (i + 1)) 0 s
      | .ok j =>
        if (vecXs j).isNone || isTree j || (i + 1 < n && (s.core k).endsLoop addr) then .trap 0x21 (BitVec.ofNat 32 (i + 1)) 0 s
        else fetchBody s k n pc r (j :: acc)

/-- The core steps over the body (R262), with the loop-back of R132. -/
def Core.skipBody (c : Core) (n : Nat) : Core :=
  let t := c.pc + BitVec.ofNat 32 (4 + 4 * n)
  if c.loopsRun then c.loopEnd t else { c with pc := t }

/-- The body enters the sequencer (R225, R262). -/
def Core.startLoop (c : Core) (es : List VEntry) (count stride : Word) : Core :=
  { c with vec := { c.vec with
      seq := es, passes := count.toNat, pass := 0, pos := 0, len := es.length, lstride := stride } }.bump .VX es.length

/-- `VLOOP` (R262). -/
def execVloop (a : Src) (n : BitVec 5) (s : State) : Out :=
  let i : Instr := .vloop a n
  let u : Uses := { a, engs := [.VX], moves := true }
  offered i u s <| gate i u s fun v s =>
    let k := s.cur
    let c := s.core k
    if !c.vec.seq.isEmpty || c.vec.reneg.isSome then .next (stand i s)
    else match fetchBody s k n.toNat c.pc (List.range n.toNat) [] with
    | .wait => .next (stand i s)
    | .trap cause detail addr s => .next (raiseD s cause detail addr)
    | .ok is s =>
      if c.vec.grant = 0 then .next (raiseD s 0x20 (instrWord i) 0)
      else
        let xs := is.map (fun j => (vecXs j).getD 0)
        match xs.find? (fun n => !c.regs.isFull n) with
        | some n =>
          match c.recorded n with
          | some (cause, addr, detail) => .next (deliver (s.updCore k (·.rearm n)) k cause (detailOr i cause detail) addr c.pc)
          | none => .next (stand i s)
        | none =>
          let poison := v.poison || xs.any c.regs.isPoison
          match (is.zip xs).find? (fun p => (c.regs.get p.2).toNat % baseAlign p.1 != 0) with
          | some p => .next (raise i s 0x04 (c.regs.get p.2))
          | none =>
            let es := ((is.zip xs).mapIdx (fun m p => ({
              instr := p.1, s := c.regs.get p.2, sp := c.regs.isPoison p.2, word := instrWord p.1,
              pc := c.pc + BitVec.ofNat 32 (4 + 4 * m), asid := c.masid, launch := c.launch } : VEntry)))
            if v.a = 0 then .next (retire u s poison (·.skipBody n.toNat))
            else if is.any isVecMem then
              publish i s .K fun s => offer i u poison (.loop es v.a c.vec.stride) s
            else .next (retire u (s.updCore k (·.startLoop es v.a c.vec.stride)) poison (·.skipBody n.toNat))

/-! The engine's moves for the sequencer, parts of ENGINE_ACCEPT and ENGINE_READ. -/

/-- The sequencer accepts what core k offers, after the drain, where it has room (R172, R230). -/
def vecAccept (s : State) (k : Nat) : State :=
  let c := s.core k
  match c.hand with
  | some (.cmd .VX q) =>
    if !c.acceptable .VX then s
    else finishOffer s k (fun c => c.handOff [{
      instr := q.instr, s := q.a, sp := c.handPoison, word := q.word, pc := q.pc, asid := q.asid, launch := q.launch }])
  | some (.loop es count stride) =>
    if !c.acceptable .VX || !c.vec.seq.isEmpty then s
    else
      let n := es.length
      { retireQ c.pops { s with cur := k } c.handPoison (fun c => (c.startLoop es count stride).skipBody n) with cur := s.cur }
  | _ => s

/-- A memory cause is held at the entry (R234). One of an ended task waits for nobody: a page is waited for, and any other cause ends
the task's entries (R88). -/
def vecHold (s : State) (k : Nat) (e : VEntry) (cause : Nat) (detail : Word) (va : Nat) : State :=
  s.updCore k (fun c =>
    let flt : FaultRec := { cause, f1 := c.vec.pos, f2 := c.vec.pass % 256, addr := BitVec.ofNat 32 va }
    let w : Waiting := ⟨cause, if cause = 0x60 then detail else e.word, BitVec.ofNat 32 va⟩
    if isPage cause then c.holdPage .VX c.vec.dead flt w
    else if c.vec.dead then
      { c with vec := { c.vec.emptied with flt := { flt with fault := true }, v := Vector.replicate 16 [] }, cnt := { c.cnt with VX := 0 } }
    else (c.setFlt .VX { flt with fault := true }).setWaiting .VX (some w))

/-- The current entry reads its operands, or takes its lines, when its pass begins (R175, R230, R254). -/
def vecRead (s : State) (k : Nat) : State :=
  let v := (s.core k).vec
  match v.current with
  | none => s
  | some e =>
    if v.rd.isSome || v.wr.isSome || !engineReady s k .VX e.asid then s
    else
      let addrs := entryAddrs e.instr v.v v.lanes (v.base e)
      match e.instr with
      | .vld _ _ _ | .vgth _ _ _ _ =>
        match engineRead s .VX k 0 e.asid e.pc addrs with
        | .wait => s
        | .cause cause detail va s => vecHold s k e cause detail va
        | .ok bs s => s.updCore k (fun c => { c with vec := { c.vec with rd := some bs, rearmed := none } })
      | .vst _ _ _ | .vsct _ _ _ _ =>
        match engineTake s .VX k 0 e.asid addrs with
        | .wait => s
        | .cause cause detail va s => vecHold s k e cause detail va
        | .ok pas s => s.updCore k (fun c => { c with vec := { c.vec with wr := some pas, rearmed := none } })
      | _ => s

/-! VECTOR_ENTRY_COMPLETE. -/

/-- An entry that writes a register. -/
def vecWrite (s : State) (k : Nat) (e : VEntry) (d : VReg) (ls : List PWord) (poison : Bool) : State :=
  vecDone (s.updCore k (fun c => { c with vec := c.vec.write d ls })) k e poison

/-- An entry that stores: its bytes are events at P and its lines are released (R176, R254). -/
def vecStore (s : State) (k : Nat) (e : VEntry) (pas : List Nat) (bs : List (Byte × Bool)) : State :=
  let s := engineWrite s .VX k e.launch ((pas.zip bs).map (fun p => (p.1, p.2.1, p.2.2)))
  vecDone (s.updMs (·.release .VX k 0)) k e (bs.any (·.2))

/-- VREDPUT gives its vector to the cluster router, or waits for the tag's slot (R229, R256). A reduction that a fenced core can no
longer complete is discarded (R237). -/
def vecPut (s : State) (k : Nat) (e : VEntry) (ls : List PWord) : State :=
  let tag := descTag e.s
  match Reduction.join (tfind (s.cluster (coreClu k)).router tag) (descHas · k) (k % 8) e.s ls.length ls (fencedOut s (coreDie k) e.s) with
  | none => s
  | some r =>
    vecDone (s.updCluster (coreClu k) (fun c => { c with router := tset c.router tag r })) k e (ls.any (·.poison))

/-- VREDGET takes the oldest total of its tag at its core; a mismatch completes it with TREE_FAULT waiting (R229, R257). -/
def vecGet (s : State) (k : Nat) (e : VEntry) (d : VReg) : State :=
  let tag := e.s.toNat % 16
  let die := coreDie k
  match (s.die die).totals.find? (fun t => t.1 == k && t.2.1 == tag) with
  | none => s
  | some t =>
    let s := s.updDie die (fun x => { x with totals := x.totals.erase t })
    match t.2.2.2 with
    | some ls => vecWrite s k e d (ls.take (s.core k).vec.lanes) false
    | none =>
      let dead := (s.core k).vec.dead
      ((vecDone s k e false).updCore k (fun c => if dead then c else { c with vec := { c.vec with
        flt := { fault := true, cause := 0x22, f1 := 0, f2 := 0, addr := 0 },
        waiting := some ⟨0x22, BitVec.ofNat 32 (tag + 16), 0⟩ } })).tally die 0x202 (coreClu k) 1

/-- The entry at its turn completes, where it can (R176, R224, R238). -/
def vecComplete (s : State) (k : Nat) : State :=
  let c := s.core k
  let v := c.vec
  let g := v.lanes
  let own (p : Bool) (e : VEntry) : Bool := p && !e.sp
  match v.current, v.waiting with
  | some e, none =>
    match laneEffect e v.v g with
    | some (d, f) =>
      let ls := (List.range g).map f
      (vecWrite s k e d ls (own (ls.any (·.poison)) e))
    | none =>
      match pushEffect e v.v g with
      | some p =>
        if v.dead then vecDone s k e false
        else if c.regs.held.any (fun h => h.1 == 1) then s
        else (vecDone (s.updCore k (·.push 1 p)) k e (own p.poison e))
      | none =>
        match e.instr, v.rd, v.wr with
        | .vld f d _, some bs, _ => (vecWrite s k e d ((List.range g).map (loadLane f bs)) false)
        | .vgth f d a _, some bs, _ =>
          (vecWrite s k e d ((List.range g).map (fun i =>
            let l := loadLane (form3 f) bs i
            ⟨l.w, l.poison || (vlane v.v a i).poison⟩)) ((List.range g).any (fun i => (vlane v.v a i).poison)))
        | .vst f a _, _, some pas => (vecStore s k e pas (storeBytes f v.v a g))
        | .vsct f a b _, _, some pas =>
          (vecStore s k e pas ((storeBytes (form3 f) v.v a g).mapIdx (fun n x =>
            (x.1, x.2 || (vlane v.v b (n / form3Size f)).poison))))
        | .vredput a _, _, _ => (vecPut s k e ((List.range g).map (vlane v.v a)))
        | .vredget d _, _, _ => (vecGet s k e d)
        | _, _, _ => s
  | _, _ => s

/-- VECTOR_ENTRY_COMPLETE (R176, R224, R238). -/
def execVectorEntryComplete (k : Nat) (s : State) : Out := .next (vecComplete s k)

end Sys2Proof.Machine
end

