-- ==== Sys2Proof/Machine/Tier.lean ====
section
/-!
DEFINITION. Sys2Proof/Machine/Tier.lean: tiers, their engines and moves (R381 to R385, R405), and the memory CSR writes with
further effects (R372, R388, R389, R405, R430).
-/
namespace Sys2Proof.Machine
open Sys2Proof

/-! The move of a run (R382). -/

def TierMove.has (m : TierMove) (frame : Nat) : Bool := m.frame ≤ frame && frame ≤ m.frame + m.run
/-- Lines of the run's source frames. -/
def TierMove.hasLine (m : TierMove) (line : Nat) : Bool := m.has (line / 1024)
/-- The address that a byte of the source has in the target. -/
def TierMove.map (m : TierMove) (a : Nat) : Nat := if m.has (a / 65536) then a + m.target * 65536 - m.frame * 65536 else a

/-- The n-th move is changed. -/
def State.setMove (s : State) (n : Nat) (m : TierMove) : State := s.updMs (fun ms => { ms with moves := ms.moves.set n m })
def State.dropMove (s : State) (n : Nat) : State := s.updMs (fun ms => { ms with moves := ms.moves.eraseIdx n })

/-- Every place of the machine that names a physical address of the run's source names the target (R171, R382: no value
changes). -/
def renameCore (m : TierMove) (c : Core) : Core :=
  let line (l : Nat) : Nat := m.map (l * 64) / 64
  let entry (e : Entry) : Entry := { e with pa := m.map e.pa, hostHomed := if m.has (e.pa / 65536) then m.dst == 2 else e.hostHomed }
  { c with
    buf := c.buf.map entry,
    out := c.out.map (fun o => match o with
      | .entry e sc => .entry (entry e) sc
      | .mark sc l => .mark sc l),
    acc := c.acc.map (fun a => { a with pa := a.pa.map m.map }),
    dirty := c.dirty.map (fun l => (l.1, line l.2)),
    held := c.held.map (fun l => (l.1, line l.2)) }

def renameBlock (m : TierMove) (b : FBlock) : FBlock := { b with vpas := b.vpas.map m.map, hpas := b.hpas.map m.map }

/-- The run's contents, histories and poison stand at the target; the source frames list nothing (log 31). -/
def renameRun (s : State) (m : TierMove) : State :=
  let line (l : Nat) : Nat := m.map (l * 64) / 64
  let target (a : Nat) : Bool := m.target ≤ a / 65536 && a / 65536 ≤ m.target + m.run
  let s := s.updMs (fun ms => { ms with
    mem := memCanon ((ms.mem.filter (fun c => !target c.1)).map (fun c => (m.map c.1, c.2))),
    hist := (ms.hist.filter (fun e => !target e.addr)).map (fun e => { e with addr := m.map e.addr }),
    poison := (ms.poison.filter (fun l => !target (l * 64))).map line,
    lostLines := (ms.lostLines.filter (fun l => !target (l * 64))).map line })
  { s with
    cores := s.cores.map (fun (c : Nat × Core) => (c.1, renameCore m c.2)),
    saved := s.saved.map (fun (x : Nat × Saved) => (x.1, { x.2 with ctx := renameCore m x.2.ctx })),
    dies := s.dies.map (fun (d : Nat × Die) => (d.1, { d.2 with fer := { d.2.fer with
      blocks := d.2.fer.blocks.map (fun (b : Nat × FBlock) => (b.1, renameBlock m b.2)) } })) }

/-- The leaves of the run take the new TIER and FRAME and INPL = 0 (R382). -/
def remapLeaves (s : State) (m : TierMove) : State :=
  (List.range (m.run + 1)).foldl (fun s i =>
    let a := m.leaf + 8 * i
    let l := s.ms.walk8 a
    let frame := (m.target + i) % 2 ^ 32
    let n := frame * 2 ^ 16 + l / 2 ^ 8 % 2 ^ 8 * 2 ^ 8 + m.dst * 2 ^ 6 + l % 2 ^ 5
    s.updMs (·.append ((List.range 8).map (fun j => (a + j, BitVec.ofNat 8 (n / 256 ^ j)))) .H .walker none)) s

/-- Pages that the package's partitions hold in a tier. -/
def tierUsed (s : State) (tier : Nat) : Nat := (s.parts.map (fun p => occupancy s p.1 tier)).sum

/-- Frames of a move's target that the device may use: granted to the partition (R430), named by no leaf, no translation and no
other move, in a tier of the package that has room (R9, R10). -/
def targetOk (s : State) (n : Nat) (m : TierMove) (frame : Nat) : Bool :=
  let key := if m.dst = 3 then 2 ^ 32 + frame else frame
  let clash (lo len : Nat) : Bool := lo ≤ key + m.run && key ≤ lo + len
  (1 < m.dst || tierUsed s m.dst + m.run < Config.tierPages m.dst) &&
  (if m.dst = 3 then frame + m.run < 2 ^ 32 else (List.range (m.run + 1)).all (fun i => (s.part m.part).grants (frame + i))) &&
  !s.ms.tlb.any (fun t => clash (if t.tier = 3 then 2 ^ 32 + t.frame else t.frame) t.run) &&
  !(s.ms.moves.eraseIdx n).any (fun x => clash x.frame x.run || (3 ≤ x.stage && clash x.target x.run)) &&
  !(leavesOf s m.part).any (fun x => clash (leafFrame x.2.2.2) 0)

/-- A ring entry of the partition's storage ring, written at H (R405): op, slot, and the image's address, length and CRC-32C,
which are the device's own (log 3). -/
def ringEntry (s : State) (p : Nat) (op slot : Nat) : Option (Nat × State) :=
  let x := s.part p
  if !x.storqCtl.getLsbD 31 || s.skovazDead then none
  else
    let i := x.storqTail % wf x.storqCtl 0 13
    let f (j : Nat) : Word := Config.freeWord (s.fresh + j)
    let ws : List Word := [BitVec.ofNat 32 op, BitVec.ofNat 32 slot, BitVec.ofNat 32 (slot / 2 ^ 32), f 0, f 1, f 2, f 3, 0]
    let a := x.storqBase.toNat * 4096 + 32 * i
    let s := { s with fresh := s.fresh + 4 }
    let s := s.updMs (·.append ((List.range 32).map (fun j => (a + j, (wordBytes (ws.getD (j / 4) 0)).getD (j % 4) 0))) .H .walker none)
    some (i, s.updPart p (fun x => { x with storqTail := x.storqTail + 1 }))

/-- Page-in notices and completions that wait on a move of pages (R193, R384, R397). -/
def movedWaiters (s : State) (m : TierMove) (status : Nat) : State :=
  s.coreNumbers.foldl (fun s k => notices2 s k (fun p =>
    p.1 == m.asid && p.2.2 == 0x11 && m.page ≤ p.2.1 && p.2.1 ≤ m.page + m.run) status) s

/-- The command that asked for the move takes its status. -/
def askedDone (s : State) (m : TierMove) (status : Word) : State :=
  match m.by' with
  | .cmd k seq => s.updCore k (fun c => { c with cpy := { c.cpy with queue := c.cpy.queue.map (fun q =>
      if q.seq = seq && q.started then { q with done := some status } else q) } })
  | _ => s

/-- A cancelled move (R382): the run stays in its source; fault detail (R318). -/
def cancelMove (s : State) (n : Nat) (m : TierMove) : State :=
  let s := askedDone (s.dropMove n) m 2
  let die := Config.homeDie (m.frame % 2 ^ 32)
  telemetry s die 2 m.part 0x2101 (Config.cores + die) [BitVec.ofNat 32 m.page, BitVec.ofNat 32 m.asid]

/-- A promotion that finds HBM at TIERHARD (R381, R384): TIER_FULL is recorded with every access rearmed on the run, with its
notice, and reaches engine commands held on it; of the gallery's that is the command that would take effect next (R333). -/
def promotionFull (s : State) (n : Nat) (m : TierMove) : State :=
  let on (asid va : Nat) : Bool := asid == m.asid && m.page ≤ va / 65536 && va / 65536 ≤ m.page + m.run
  let s := movedWaiters (s.dropMove n) m 2
  s.coreNumbers.foldl (fun s k =>
    let s := (List.range (s.core k).acc.length).foldl (fun s i =>
      match (s.core k).acc[i]? with
      | some a =>
        let va := match a.op with
          | .recvb _ => a.b
          | _ => a.addr
        match a.st with
        | .rearmed 0x11 _ _ => if on a.asid va.toNat then rearmedCause s k i a va.toNat 0x62 0 else s
        | _ => s
      | none => s) s
    allEngines.foldl (fun s e =>
      let c := s.core k
      match c.rearmedOf e, c.turnAsid e with
      | some (0x11, _), some asid =>
        if !on asid (c.fltOf e).addr.toNat then s
        else
          let s := s.updCore k (·.setRearmed e none)
          let addr := (c.fltOf e).addr
          match e, c.gal.turn, (c.engineQueue e).head?, c.vec.current with
          | .GL, some q, _, _ => galDone s k q (some 0) (some ⟨0x62, q.a, addr⟩)
          | .VX, _, _, some v => vecHold s k v 0x62 0 addr.toNat
          | .CP, _, some q, _ => cpyCause s k q 0x62 0 addr
          | _, _, some q, _ => faultCmd s k e q { c.fltOf e with cause := 0x62 } ⟨0x62, q.a, addr⟩
          | _, _, _, _ => s
      | _, _ => s) s) s

/-- TIER_MOVE (R382): the n-th move goes one stage on; a copy that reads back different is repeated
once, and a second mismatch cancels the move. -/
def execTierMove (n : Nat) (copy : CopyStage) (s : State) : Out :=
  match s.ms.moves[n]? with
  | none => .next s
  | some m =>
    match m.stage with
    | 0 =>
      if m.by' = .walk ∧ atHard s m.part m.dst then .next (promotionFull s n m)
      else if s.ms.own.any (fun o => m.hasLine o.1) then .next s
      else .next (s.setMove n { m with stage := 1 })
    | 1 =>
      let s := { s with cores := s.cores.map (fun (c : Nat × Core) => (c.1, { c.2 with
        dirty := c.2.dirty.filter (fun l => !m.hasLine l.2), held := c.2.held.filter (fun l => !m.hasLine l.2) })) }
      .next (s.setMove n { m with stage := 2 })
    | 2 =>
      match m.ring with
      | some (_, none) => .next s
      | some (_, some ok) =>
        if ok then .next (s.setMove n { m with stage := 3 })
        else if m.dst = 3 then .next (cancelMove s n m)
        else
          let s := s.updMs (fun ms => (List.range ((m.run + 1) * 1024)).foldl (fun ms i => ms.poisonLine (m.frame * 1024 + i)) ms)
          .next (s.setMove n { m with stage := 3 })
      | none =>
        if !targetOk s n m copy.frame then .next s
        else if copy.differs then .next (if m.again then cancelMove s n m else s.setMove n { m with again := true })
        else
          let m := { m with target := if m.dst = 3 then 2 ^ 32 + copy.frame else copy.frame }
          if m.dst = 3 ∨ m.src = 3 then
            match ringEntry s m.part (if m.dst = 3 then 1 else 2) (if m.dst = 3 then copy.frame else m.frame - 2 ^ 32) with
            | none => .next s
            | some (i, s) => .next (s.setMove n { m with ring := some (i, none) })
          else .next (s.setMove n { m with stage := 3 })
    | 3 =>
      let s := (renameRun (remapLeaves s m) m).updMs (fun ms => if m.dst = 3 then ms else ms.setHost m.target m.run (m.dst == 2))
      let s := s.updMs (fun ms => { ms with tlb := ms.tlb.filter (fun t =>
        !(t.asid == m.asid && t.page ≤ m.page + m.run && m.page ≤ t.page + t.run)) })
      .next (s.setMove n { m with stage := 4 })
    | _ => .next s

/-- TIER_MOVE_RELEASE (R382): the source is freed, ownership ends, what waited for the page goes on. -/
def execTierMoveRelease (n : Nat) (s : State) : Out :=
  match s.ms.moves[n]? with
  | none => .next s
  | some m =>
    if m.stage < 4 then .next s
    else
      let die := Config.homeDie (m.target % 2 ^ 32)
      let s := (s.dropMove n).tallyFor die (if m.src < m.dst then 0x501 else 0x502) m.part 0 (m.run + 1)
      let bad := s.linePoison (m.target * 1024)
      .next (askedDone (movedWaiters s m (if bad then 3 else 0)) m 0)

/-- STORAGE_RING_STATUS (R405): the host writes the status of entry n of a partition's ring. -/
def execStorageRingStatus (part n : Nat) (ok : Bool) (s : State) : Out :=
  let waits (m : TierMove) : Bool := m.part == part && m.ring == some (n, none)
  if s.skovazDead || !s.ms.moves.any waits then .next s
  else
    let a := (s.part part).storqBase.toNat * 4096 + 32 * n + 28
    .next (s.updMs (fun ms =>
      let ms := ms.append ((List.range 4).map (fun j => (a + j, (wordBytes (if ok then 1 else 2)).getD j 0))) .H .host none
      { ms with moves := ms.moves.map (fun m => if waits m then { m with ring := some (n, some ok) } else m) }))

/-! Demotion (R381). -/

/-- Runs of a partition in a tier, at frames that a die's ports serve, in ascending frame order: (frame, run, ASID, page, leaf's
address, leaf). A leaf that an earlier leaf's run takes in begins no run (R378). -/
def tierRuns (s : State) (die part tier : Nat) : List (Nat × Nat × Nat × Nat × Nat × Nat) :=
  let ls := (leavesOf s part).filter (fun x => leafTier x.2.2.2 == tier && Config.homeDie (leafFrame x.2.2.2) == die)
  let heads := ls.filter (fun x => !ls.any (fun y =>
    y.1 == x.1 && y.2.1 < x.2.1 && x.2.1 ≤ y.2.1 + leafRun y.2.2.2 y.2.1))
  (heads.map (fun x => (leafFrame x.2.2.2, leafRun x.2.2.2 x.2.1, x.1, x.2.1, x.2.2.1, x.2.2.2))).mergeSort
    (fun a b => a.1 ≤ b.1)

/-- A run that the engine skips: an owned line, a move of its own, a stash window line, a berth page (R381, R388). -/
def runSkipped (s : State) (r : Nat × Nat × Nat × Nat × Nat × Nat) : Bool :=
  let on (line : Nat) : Bool := r.1 ≤ line / 1024 && line / 1024 ≤ r.1 + r.2.1
  s.ms.own.any (fun o => on o.1) || s.ms.moves.any (fun m => m.frame ≤ r.1 + r.2.1 && r.1 ≤ m.frame + m.run) ||
    s.cores.any (fun c => c.2.held.any (fun l => on l.2)) ||
    (List.range (r.2.1 + 1)).any (fun i => s.inBerth r.2.2.1 ((r.2.2.2.1 + i) * 65536))

/-- The next tier down that is below TIERHARD. -/
def demoteTarget (s : State) (part tier : Nat) : Option Nat :=
  [1, 2, 3].find? (fun t => tier < t && !atHard s part t)

/-- DEMOTION_ENGINE_START (R381): the engine of a tier of a die takes one step for a partition whose occupancy passed TIERSOFT:
its clock looks at the next run, which it skips, passes over once, or moves down. -/
def execDemotionEngineStart (die part tier : Nat) (s : State) : Out :=
  let p := s.part part
  let key := 4 * die + tier
  let occ := occupancy s part tier
  let soft := p.soft.getD tier 0
  let put (s : State) (f : Tbl Nat → Tbl Nat) : State := s.updPart part (fun p => { p with demoting := f p.demoting })
  if 2 < tier then .next s
  else match tfind p.demoting key with
  | none => if soft < occ then .next (put s (fun t => tset t key 0)) else .next s
  | some hand =>
    if 8 * occ ≤ 7 * soft then .next (put s (fun t => terase t key))
    else
      let rs := tierRuns s die part tier
      match (rs.filter (fun r => hand ≤ r.1) ++ rs.filter (fun r => r.1 < hand)).head? with
      | none => .next s
      | some r =>
        let on (s : State) : State := put s (fun t => tset t key (r.1 + 1))
        if runSkipped s r then .next (on s)
        else if r.2.2.2.2.2 / 8 % 2 = 1 then
          .next (on (s.updMs (·.append [(r.2.2.2.2.1, BitVec.ofNat 8 (r.2.2.2.2.2 % 256 - 8))] .H .walker none)))
        else match demoteTarget s part tier with
        | none => .next s
        | some t =>
          .next (on (s.updMs (·.ask {
            asid := r.2.2.1, page := r.2.2.2.1, run := r.2.1, frame := r.1, src := tier, dst := t, part, leaf := r.2.2.2.2.1,
            by' := .engine })))

/-! CSR writes. -/

/-- A write of STORQCTL (R405). -/
def writeStorqctl (k : Nat) (v : Word) (s : State) : CsrOut :=
  let n := wf v 0 13
  if [16, 32, 64, 128, 256, 512, 1024, 2048, 4096].contains n ∧ wf v 13 18 = 0 then
    .ok (s.updPart (s.corePart k) (fun p => { p with storqCtl := v, storqTail := 0 }))
  else .trap 0x02 0 0

/-- STORQCTL_WRITE (R405). -/
def execStorqctlWrite (k : Nat) (v : Word) (s : State) : Out := (writeStorqctl k v s).out k 0x8E9 s

/-- The berth holds no message: none waits in it, and no payload of a queued message stands in its slots (R181, R388). -/
def berthEmpty (s : State) (p rank : Nat) : Bool :=
  (tget (s.part p).berths {} rank).msgs.isEmpty && match s.rankCore p rank with
    | some k => (s.core k).queuedSlots == 0
    | none => true

/-- A change of a berth (R388): a raise in place at once, any other once the berth holds no message. -/
def changeBerth (s : State) (p rank : Nat) (base : Word) (log : Nat) : State :=
  let b := tget (s.part p).berths {} rank
  let put (b : Berth) : State := s.updPart p (fun x => { x with berths := tset x.berths rank b })
  if base = b.base ∧ b.log < log ∧ b.next.isNone then put { b with log }
  else if berthEmpty s p rank then put { b with base, log, next := none }
  else put { b with next := some (base, log) }

/-- A write of BERTHBASE (0x8DD) or BERTHLOG (0x8DE) (R371, R388). -/
def writeBerth (k : Nat) (csr : BitVec 12) (v : Word) (s : State) : CsrOut :=
  let p := s.corePart k
  let rank := (s.core k).sup.berthsel
  let b := tget (s.part p).berths {} rank
  let cur := b.next.getD (b.base, b.log)
  if csr = 0x8DD then
    if v.toNat % 65536 ≠ 0 then .trap 0x04 0 v else .ok (changeBerth s p rank v cur.2)
  else if v.toNat < 16 ∨ 26 < v.toNat then .trap 0x02 0 0
  else .ok (changeBerth s p rank cur.1 v.toNat)

/-- BERTH_WRITE (R388). -/
def execBerthWrite (k : Nat) (csr : BitVec 12) (v : Word) (s : State) : Out := (writeBerth k csr v s).out k csr.toNat s

/-- BERTH_RECONFIG_APPLY (R388). -/
def execBerthReconfigApply (part rank : Nat) (s : State) : Out :=
  let b := tget (s.part part).berths {} rank
  match b.next with
  | none => .next s
  | some (base, log) =>
    if berthEmpty s part rank then
      .next (s.updPart part (fun x => { x with berths := tset x.berths rank { b with base, log, next := none } }))
    else .next s

/-- A write of RANKSET (R389). The rank's entry is written through the network ASID: its causes are taken at the CSRW. -/
def writeRankset (k : Nat) (v : Word) (s : State) : CsrOut :=
  let p := s.corePart k
  let rank := (s.core k).sup.ranksel
  let part := s.part p
  let here := v.getLsbD 31 && entryPkg v == s.pkg
  let carried := (s.core (entryCore v)).rank
  if entryPkg v = s.pkg ∧ s.corePart (entryCore v) ≠ p then .trap 0x06 0 0
  else if here ∧ carried.isSome ∧ carried ≠ some rank then .trap 0x02 0 0
  else if 2 ^ part.ranklog ≤ rank then .trap 0x02 0 0
  else match translate s (coreDie k) part.netasid ((part.rankbase.toNat + 4 * rank) % 2 ^ 32) .store with
  | (.bad cause detail, _) => .trap cause detail (BitVec.ofNat 32 (part.rankbase.toNat + 4 * rank))
  | (.ok pa _, s) => if s.ms.owned (pa / 64) then .wait else .ok (bindRank s k p rank v)

/-- RANKSET_WRITE (R389). -/
def execRanksetWrite (k : Nat) (v : Word) (s : State) : Out := (writeRankset k v s).out k 0x8DA s

/-- A write of PGCTL (R430). -/
def writePgctl (die : Nat) (v : Word) (s : State) : CsrOut :=
  let sel := (s.die die).pgsel
  let p := wf sel 0 6
  let i := wf sel 8 4
  let r := tget (s.part p).ranges {} i
  let clash := s.parts.any (fun q => q.1 != p && q.2.ranges.any (fun x =>
    x.2.valid && x.2.lo.toNat ≤ r.hi.toNat && r.lo.toNat ≤ x.2.hi.toNat))
  if v.getLsbD 31 ∧ (r.hi.toNat < r.lo.toNat ∨ clash) then .trap 0x02 0 0
  else .ok (s.updPart p (fun x => { x with ranges := tset x.ranges i { r with valid := v.getLsbD 31 } }))

/-- PGCTL_WRITE (R430). -/
def execPgctlWrite (die : Nat) (v : Word) (s : State) : Out := (writePgctl die v s).out (Config.cores + die) 0xC67 s

/-- A write of TGRANTn (R430). -/
def writeTgrant (die n : Nat) (v : Word) (s : State) : CsrOut :=
  let p := wf (s.die die).pgsel 0 6
  if v.toNat < (s.part p).hard.getD n 0 then .trap 0x02 0 0
  else .ok (s.updPart p (fun x => { x with tgrant := x.tgrant.set n v.toNat }))

/-- TGRANT_WRITE (R430): n is 0 HBM, 1 LPDDR-6, 2 host. -/
def execTgrantWrite (die n : Nat) (v : Word) (s : State) : Out :=
  if 2 < n then .next s else (writeTgrant die n v s).out (Config.cores + die) (0xC68 + n) s

/-- Loads and engine commands that touch the window are complete (R372). -/
def Core.windowQuiet (c : Core) : Bool :=
  c.cnt.LD == 0 && c.cnt.MX == 0 && c.cnt.VX == 0 && c.cnt.CP == 0 && c.cnt.gl == 0 && c.cnt.PS == 0

/-- A write of STBASE (R370, R372): it waits, writes back every dirty slot, invalidates the window and applies the base. -/
def writeStbase (k : Nat) (v : Word) (s : State) : CsrOut :=
  if v.toNat % 65536 ≠ 0 then .trap 0x04 0 v
  else if !(s.core k).windowQuiet then .wait
  else .ok (s.updCore k (fun c => { c with dirty := c.dirty.filter (fun l => !c.inWindow (l.1 * 64)), held := [], stbase := v }))

/-- STBASE_WRITE (R372). -/
def execStbaseWrite (k : Nat) (v : Word) (s : State) : Out := (writeStbase k v s).out k 0x501 s

end Sys2Proof.Machine
end

