-- ==== Sys2Proof/Machine/Launch.lean ====
section
/-!
DEFINITION. Sys2Proof/Machine/Launch.lean: work queues (R97, R98), dispatchers (R99, R100), placement of tiles and items (R87, R90,
R95, R96, R218, R368, R434), die sets (R101), handles (R431), completion and cancellation (R92, R183, R199).
-/
namespace Sys2Proof.Machine
open Sys2Proof

/-! Placement. -/

/-- The unit of a core for a placement: its die, its cluster, the core (R434). -/
def unitOf (place k : Nat) : Nat := if place = 1 then coreDie k else if place = 2 then coreClu k else k

/-- R218 holds of level-0 blocks: one cluster each, at most eight tiles. -/
def Launch.oneTilePerCore (l : Launch) : Bool :=
  (l.levels[0]?.map (·.place)).getD 0 == 2 && (l.below 0).1 * (l.below 0).2 ≤ 8

/-- The placed blocks of a tile are unbound, or bound to the core's die, cluster or core; and where each core runs one tile of a block,
this core has run none (R434, R218). -/
def Launch.fits (l : Launch) (k row col : Nat) : Bool :=
  (List.range l.levels.length).all (fun i =>
    let place := (l.levels[i]?.map (·.place)).getD 0
    place == 0 || (l.bound.filter (fun b => b.1 == i && b.2.1 == l.blockAt i row col)).all (fun b => b.2.2 == unitOf place k)) &&
  !(l.oneTilePerCore && l.used.contains (l.blockAt 0 row col, k))

/-- The tile lies in the core's share (R434, R218). -/
def Launch.inShare (l : Launch) (k t : Nat) : Bool :=
  !l.started.contains t && l.fits k (t / levelCols l.levels) (t % levelCols l.levels)

/-- A tile that starts on core k binds its unbound placed blocks (R434), and k has run a tile of its level-0 block (R218). -/
def Launch.bindTile (l : Launch) (k row col : Nat) : Launch :=
  let binds := (List.range l.levels.length).filterMap (fun i =>
    let place := (l.levels[i]?.map (·.place)).getD 0
    let b := l.blockAt i row col
    if place = 0 || l.bound.any (fun e => e.1 == i && e.2.1 == b) then none else some (i, b, unitOf place k))
  { l with
    bound := l.bound ++ binds, used := if l.oneTilePerCore then (l.blockAt 0 row col, k) :: l.used else l.used }

/-- The tile of lowest linear index in the core's share. -/
def Launch.findTile (l : Launch) (k : Nat) : Nat → Nat → Option Nat
  | 0, _ => none
  | n + 1, t => if l.inShare k t then some t else l.findTile k n (t + 1)

def Launch.tiles (l : Launch) : Nat := levelRows l.levels * levelCols l.levels

/-- Flight 0 has a tile for the core, whose die is in the mask (R101, R434). A launch that a lost die has ended starts no more tiles
(DESIGN CHOICE, log 81). -/
def Launch.tileFor (l : Launch) (k : Nat) : Option Nat :=
  if l.mask / 2 ^ coreDie k % 2 = 0 ∨ l.tiles ≤ l.started.length ∨ l.status ≠ 0 then none else l.findTile k l.tiles 0

/-- The launch's part on a core's die, where the core lies in one of its clusters. -/
def Launch.partFor (l : Launch) (k : Nat) : Option DiePart :=
  (tfind l.parts (coreDie k)).bind (fun p => if !isService k && !p.left && p.clusters.contains (coreClu k) then some p else none)

/-- Items in landing f of a part. -/
def DiePart.items (p : DiePart) (f : Nat) : Nat := (p.landings.getD f []).length

/-- Output landing of a flight at least 7/8 full (R95 item 2). -/
def nearlyFull (x : Launch) (p : DiePart) (f : Nat) : Bool :=
  f + 1 < x.flights.length && 7 * ((x.flights[f]?.map (·.depth)).getD 1) ≤ 8 * p.items f

/-- Flights that have work for the core (R95 item 1). -/
def Launch.candidates (x : Launch) (p : DiePart) (k : Nat) : List Nat :=
  (List.range x.flights.length).filter (fun f => if f = 0 then (x.tileFor k).isSome else 0 < p.items (f - 1))

/-- The flight that a free core takes (R95, R96). Flights that the reserve forbids are no candidates: they are removed before the drop
of those with a landing nearly full (DESIGN CHOICE, log 80). -/
def pickFlight (x : Launch) (p : DiePart) (k : Nat) (ok : Nat → Bool) : Option Nat :=
  let cands := (x.candidates p k).filter ok
  let keep := cands.filter (fun f => !nearlyFull x p f)
  let keep := if keep.isEmpty then cands else keep
  let depth (f : Nat) : Nat := max 1 ((x.flights[f - 1]?.map (·.depth)).getD 1)
  let num (f : Nat) : Nat := if f = 0 then 1 else p.items (f - 1)
  let den (f : Nat) : Nat := if f = 0 then 1 else depth f
  keep.foldl (fun b f => match b with
    | none => some f
    | some g => if num g * den f ≤ num f * den g then some f else some g) none

/-- A task to be placed again may start on the core: on its die, a tile only while the die is in the mask and where its blocks let it
(R101, R218, R434). -/
def Launch.mayStart (x : Launch) (k : Nat) (a : Again) : Bool :=
  a.die == coreDie k && (a.flight != 0 || (x.mask / 2 ^ coreDie k % 2 == 1 && x.fits k a.row a.col))

/-- What a free core would take from a launch: a task to be placed again, a flight, or a place in the launch's reserve. -/
inductive Work where
  | again (i : Nat) (a : Again) | flight (f : Nat) | reserve
  deriving DecidableEq, Repr

/-- A task to be placed again goes before any flight (DESIGN CHOICE, log 80). Where only the reserve of R96 forbids what there is, an
idle core that is not the launch's becomes one of its reserve. -/
def workFor (s : State) (l : Nat) (x : Launch) (k : Nat) : Option Work :=
  if x.done || x.refused || x.status == 4 || !s.canTake k l then none
  else match x.partFor k with
  | none => none
  | some p =>
    let mine := s.launchCores l p
    let ok (f : Nat) : Bool := s.keepsReserve l x (if mine.contains k then mine else k :: mine) f 1
    match x.again.findIdx? (fun a => x.mayStart k a && ok a.flight) with
    | some i => (x.again[i]?).map (Work.again i)
    | none => match pickFlight x p k ok with
      | some f => some (.flight f)
      | none => if (x.again.any (x.mayStart k) || !(x.candidates p k).isEmpty) && !p.assigned.contains k then some .reserve else none

/-- The launch is starved on the core's die (R100). -/
def Launch.starvedAt (x : Launch) (k : Nat) : Bool := (x.partFor k).any (·.starved)

/-- Where a die's turn among launches of one partition and priority stands (R100). -/
def Launch.turnKey (x : Launch) : Nat := 8 * x.part + x.prio

/-- The launch that a free core serves (R100): one that has waited too long, else the highest priority, in turn. -/
def nextLaunchFor (s : State) (k : Nat) : Option Nat :=
  let ls := s.launches.filter (fun l => l.2.part == s.corePart k && (workFor s l.1 l.2 k).isSome)
  match ls.find? (fun l => l.2.starvedAt k) with
  | some l => some l.1
  | none =>
    let top := ls.foldl (fun m l => max m l.2.prio) 0
    let ls := ls.filter (fun l => l.2.prio == top)
    match ls.find? (fun l => tget (s.die (coreDie k)).lastTurn 0 l.2.turnKey < l.1) with
    | some l => some l.1
    | none => ls.head?.map (·.1)

/-- Core k goes to launch l: it is one of its cores (R96), and the turn passes, but for a launch that has waited too long (R100). -/
def State.give (s : State) (k l : Nat) (x : Launch) : State :=
  if x.starvedAt k then s.assign k l
  else (s.assign k l).updDie (coreDie k) (fun d => { d with lastTurn := tset d.lastTurn x.turnKey l })

/-! Starting a task. -/

/-- The state in which a core enters a task (R87, R265, R372, R391). -/
def Core.enterTask (c : Core) (t : Task) (entry : Word) (x1 x2 x3 mark : Word) (asid cache : Nat) : Core :=
  let regs := ((Regs.reset.put 1 x1 false).put 2 x2 false).put 3 x3 false
  let c := if cache = 15 ∨ cache = c.cache then c else { c with cache, dirty := [], held := [] }
  { c with
    regs, pc := entry, priv := .task, run := .running, standing := none, hand := none, pops := [], pubDone := false, fbuf := [],
    loop0 := { c.loop0 with active := false }, loop1 := { c.loop1 with active := false },
    up := { c.up with en := false, inH := false }, buf := [], snap := [], markin := mark, marked := mark, masid := asid, task := some t,
    stbase := c.stdef, vec := { c.vec with grant := 0, v := if c.vec.dead then c.vec.v else Vector.replicate 16 [] },
    mat := c.mat.enter, cpy := { c.cpy with seq := 0 }, gal := { c.gal with slots := [] }, arrived := none,
    discarded := [], pageWaits := [] }

/-- A task starts on core k. -/
def startTask (s : State) (l : Nat) (x : Launch) (k flight row col : Nat) (item : List Word) (mark : Word) : State :=
  let f := (x.flights[flight]?).getD ⟨0, 0, 0⟩
  let t : Task := { uid := s.nextTask, launch := l, flight, row, col, item }
  let s := s.updCore k (fun c => c.enterTask t f.entry (BitVec.ofNat 32 (row * levelCols x.levels + col)) f.arg
    (BitVec.ofNat 32 (row % 65536 * 65536 + col % 65536)) mark x.asid x.cache)
  let s := { s with nextTask := s.nextTask + 1 }
  s.updLaunch l (fun x => { x with
    running := x.running + 1, cores := if x.cores.contains k then x.cores else k :: x.cores,
    parts := x.parts.map (fun (p : Nat × DiePart) =>
      if p.1 = coreDie k then (p.1, { p.2 with starved := false, waitSince := s.ck }) else p) })

/-- Flight 0 starts a tile, which binds its unbound placed blocks (R434). -/
def startTile (s : State) (l : Nat) (x : Launch) (k t : Nat) : State :=
  let row := t / levelCols x.levels
  let col := t % levelCols x.levels
  startTask (s.updLaunch l (fun x => { x with started := t :: x.started }.bindTile k row col)) l x k 0 row col [] 0

/-- A task to be placed again starts; a tile binds its blocks (R101, R434). -/
def startAgain (s : State) (l : Nat) (x : Launch) (k i : Nat) (a : Again) : State :=
  let s := s.updLaunch l (fun x =>
    let x := { x with again := x.again.eraseIdx i }
    if a.flight = 0 then x.bindTile k a.row a.col else x)
  startTask s l x k a.flight a.row a.col a.item a.mark

/-- A flight above 0 starts with the oldest item of its landing (R93). -/
def startItem (s : State) (l : Nat) (x : Launch) (k f : Nat) (p : DiePart) : State :=
  match p.landings.getD (f - 1) [] with
  | [] => s
  | item :: rest =>
    let s := s.updLaunch l (fun x => { x with parts := x.parts.map (fun (p : Nat × DiePart) =>
      if p.1 = coreDie k then (p.1, { p.2 with landings := p.2.landings.mapIdx (fun i y => if i = f - 1 then rest else y) }) else p) })
    let w := (item.getD 0 0).toNat
    startTask s l x k f (w / 65536) (w % 65536) (item.drop 1) 0

/-- DISPATCH_ASSIGN (R95, R96, R100, R434): free core k goes to launch l, which must be the one that R100 gives it, and takes its next
work, or its place in the reserve. -/
def execDispatchAssign (k l : Nat) (s : State) : Out :=
  if isService k || !(s.core k).isFree || (s.die (coreDie k)).lost ||
      Config.cores ≤ k || nextLaunchFor s k != some l then .next s
  else match tfind s.launches l with
  | none => .next s
  | some x =>
    let s' := s.give k l x
    match workFor s l x k with
    | some (.again i a) => .next (startAgain s' l x k i a)
    | some (.flight 0) =>
      match x.tileFor k with
      | some t => .next (startTile s' l x k t)
      | none => .next s
    | some (.flight f) =>
      match x.partFor k with
      | some p => .next (startItem s' l x k f p)
      | none => .next s
    | some .reserve => .next s'
    | none => .next s

/-! Work queues (R97, R98). -/

/-- What the leading dispatcher reads: a wait for an owned line, a word, or nothing where the address does not translate. -/
inductive LeadRead where
  | wait | word (w : Word) (s : State) | bad (s : State)

/-- A word of a queue's address space, read at H by the leading dispatcher. -/
def leaderWord (s : State) (asid : Nat) (a : Word) : LeadRead :=
  match translate s s.leader asid (a.toNat / 4 * 4) .load with
  | (.ok pa _, s) => if s.ms.owned (pa / 64) then .wait else .word (wordOf (s.ms.bytesAt (.die s.leader) pa 4)) s
  | (.bad _ _, s) => .bad s

/-- Words written at a scope by the leading dispatcher, one after another; nothing where the address does not translate. -/
def leaderWrite (s : State) (asid : Nat) (a : Nat) (ws : List Word) (sc : Scope) : Option State :=
  match translateRun s s.leader asid .store (vaRange a (4 * ws.length)) [] with
  | (.inr _, s) => some s
  | (.inl pas, s) =>
    if pas.any (fun p => s.ms.owned (p / 64)) then none
    else some (s.updMs (·.put (pas.zip ((ws.map wordBytes).flatten)) sc (.die s.leader) none))

/-- The record of a slot becomes a launch, unless the queue and slot count name one that is still there and was taken since the queue
was last enabled (R98, R99). -/
def distribute (s : State) (q : Nat) (wq : WorkQueue) (w : List Word) : State :=
  let src : LaunchSrc := .queue q wq.head.toNat
  if s.launches.any (fun l => l.2.seen && !l.2.done && l.2.src == src) then s
  else
    let part := wq.part.getD 63
    let mask := (parseRecord w).mask
    let l := (mkLaunch w src part wq.asid wq.prio mask (recordStatus s part w mask)).preset
    { s with launches := tset s.launches s.nextLaunch l, nextLaunch := s.nextLaunch + 1 }

def State.setQueue (s : State) (q : Nat) (w : WorkQueue) : State := { s with queues := tset s.queues q w }

/-- Records from head to tail are taken one by one; each advances head and its mirror (R98). -/
def takeRecords (q : Nat) : Nat → State → State
  | 0, s => s
  | n + 1, s =>
    let wq := tget s.queues {} q
    let slot := (wq.base.toNat + 256 * (wq.head.toNat % 2 ^ wq.log)) % 2 ^ 32
    match translateRun s s.leader wq.asid .load (vaRange slot 256) [] with
    | (.inr _, s) => s
    | (.inl pas, s) =>
      if pas.any (fun p => s.ms.owned (p / 64)) then s
      else
        let w := wordsOf 64 (pas.map (s.ms.byteAt (.die s.leader)))
        let s' := distribute s q wq w
        let head := wq.head + 1
        match leaderWrite (s'.setQueue q { wq with head }) wq.asid wq.heada.toNat [head] .H with
        | none => s
        | some s => takeRecords q n s

/-- A die that can lead: passed self-test, not fenced or lost (R99). -/
def State.healthy (s : State) (die : Nat) : Bool := !(s.die die).lost && !(s.die die).failed

/-- WQ_TAIL_STORE (R98): the leading dispatcher reads the tail of an enabled queue, and its new records. -/
def execWqTailStore (q : Nat) (s : State) : Out :=
  match tfind s.queues q with
  | none => .next s
  | some wq =>
    if !wq.en || !s.healthy s.leader then .next s
    else match leaderWord s wq.asid wq.taila with
    | .wait => .next s
    | .bad s => .next s
    | .word tail s =>
      let n := (tail - wq.head).toNat
      if 2 ^ wq.log < n then .next (s.setQueue q { wq with err := true, en := false }) else .next (takeRecords q n s)

/-- Head of a queue as its mirror gives it; a free value where the mirror cannot be read, of which no rule speaks (DESIGN CHOICE,
log 82). None while the mirror's line is owned. -/
def readHead (s : State) (q : Nat) : Option State :=
  let wq := tget s.queues {} q
  match leaderWord s wq.asid wq.heada with
  | .wait => none
  | .word w s => some (s.setQueue q { wq with head := w })
  | .bad s => some ({ s with fresh := s.fresh + 1 }.setQueue q { wq with head := Config.freeWord s.fresh })

/-- An address space that a supervisor may name: one of its partition's, or any for a service core (R27). -/
def State.ownsAsid (s : State) (k asid : Nat) : Bool :=
  (s.core k).priv == Priv.service || tget s.ms.asidPart 63 asid == s.corePart k

/-- The launches taken from a queue before its head was read afresh are no second copies of what it takes from now on (R98). -/
def State.forgetSlots (s : State) (q : Nat) : State :=
  { s with launches := s.launches.map (fun (l : Nat × Launch) => match l.2.src with
      | .queue n _ => if n = q then (l.1, { l.2 with seen := false }) else l
      | .child _ _ _ _ => l) }

/-- A write of WQCTL (R97, R98). A queue enabled in an address space of another partition would run its launches there: PRIVILEGE
(R27; DESIGN CHOICE, log 36). -/
def writeWqctl (k : Nat) (v : Word) (s : State) : CsrOut :=
  let q := (s.core k).sup.wqsel
  let wq := tget s.queues {} q
  if wf v 0 4 < 4 ∨ 12 < wf v 0 4 then .trap 0x02 0 0
  else
    let en := v.getLsbD 7
    let s' := s.setQueue q { wq with
      asid := wf v 16 16, err := wq.err && !v.getLsbD 8, en, prio := wf v 4 3, log := wf v 0 4 }
    if en && !s.ownsAsid k (wf v 16 16) then .trap 0x06 0 0
    else if en && !wq.en then
      match readHead (s'.forgetSlots q) q with
      | some s => .ok s
      | none => .wait
    else .ok s'

/-- WQCTL_WRITE (R98). -/
def execWqctlWrite (k : Nat) (v : Word) (s : State) : Out := (writeWqctl k v s).out k 0x884 s

/-! Dispatchers (R99 to R101, R431). -/

/-- Part numbers that uncompleted launches hold on a die (R431). -/
def partTaken (s : State) (die n : Nat) : Bool :=
  s.launches.any (fun l => !l.2.done && (tfind l.2.parts die).any (fun p => p.handle == 0xFF00 + n))

/-- LAUNCH_PART_RECEIVE (R99, R431): a die of the mask takes its part of the launch, with its handle; one that comes back after it had
left keeps the handle it had. -/
def execLaunchPartReceive (l die : Nat) (s : State) : Out :=
  match tfind s.launches l with
  | none => .next s
  | some x =>
    let old := tfind x.parts die
    if x.done || x.refused || x.status != 0 || x.mask / 2 ^ die % 2 == 0 || old.any (!·.left) || (s.die die).lost then .next s
    else
      let own := match x.src with
        | .child d h _ _ => if d = die then some h else none
        | .queue _ _ => none
      let h := match own.or (old.map (·.handle)) with
        | some h => some h
        | none => (firstFree (fun n => !partTaken s die n) 255).map (0xFF00 + ·)
      match h with
      | none => .next s
      | some handle =>
        .next (s.updLaunch l (fun x => { x with parts := tset x.parts die {
          handle, clusters := s.placeClusters x.part die x.clustersReq,
          landings := List.replicate (x.flights.length - 1) [], waitSince := s.ck } }))

/-- The part of a launch on a die has a core of its own. -/
def State.runsOn (s : State) (l die : Nat) : Bool :=
  s.cores.any (fun c => coreDie c.1 == die && c.2.launch == some l)

/-- LAUNCH_STARVATION_TIMEOUT (R100): no core on the die for 2^26 ck. -/
def execLaunchStarvationTimeout (l die : Nat) (s : State) : Out :=
  match tfind s.launches l with
  | none => .next s
  | some x =>
    match tfind x.parts die with
    | none => .next s
    | some p =>
      if x.done || p.left || s.runsOn l die || s.ck < p.waitSince + 2 ^ 26 then .next s
      else .next (s.updLaunch l (fun x => { x with parts := tset x.parts die { p with starved := true } }))

/-- The lowest healthy die leads; a new leader reads every enabled queue's head from its mirror (R99). None while a mirror's line is
owned. -/
def elect (s : State) : Option State :=
  match firstFree s.healthy Config.dies with
  | none => some s
  | some d =>
    if d = s.leader then some s
    else ((s.queues.filter (fun q => q.2.en)).map (·.1)).foldl (fun t q => t.bind (fun s => readHead s q)) (some { s with leader := d })

/-- LEADER_ELECTION (R99). -/
def execLeaderElection (s : State) : Out := .next ((elect s).getD s)

/-- HEARTBEAT_TIMEOUT (R99): a dispatcher that has missed a lost leader's heartbeat for 2^20 ck starts an election. -/
def execHeartbeatTimeout (die : Nat) (s : State) : Out :=
  if s.healthy die && !s.healthy s.leader && (s.die die).heartbeat + 2 ^ 20 ≤ s.ck then
    .next ((elect (s.updDie die (fun d => { d with heartbeat := s.ck }))).getD s)
  else .next s

/-- DIE_SET_REQUEST (R101): a new die mask, pending until the next MARK. -/
def execDieSetRequest (l mask : Nat) (s : State) : Out :=
  match tfind s.launches l with
  | none => .next s
  | some x => if x.done || x.refused || mask % 256 = 0 then .next s else .next (s.updLaunch l (fun x => { x with pendMask := some (mask % 256) }))

/-- WITHDRAWN_DIE_LEAVE (R101): a withdrawn die whose landing instances are empty, and that runs no task of the launch and has none to
place again, leaves it; its handle stays taken until the launch completes (R431). -/
def execWithdrawnDieLeave (l die : Nat) (s : State) : Out :=
  match tfind s.launches l with
  | none => .next s
  | some x =>
    match tfind x.parts die with
    | none => .next s
    | some p =>
      if x.mask / 2 ^ die % 2 = 1 || p.landings.any (fun q => !q.isEmpty) || s.runsOn l die || x.again.any (·.die == die) then .next s
      else .next (s.updLaunch l (fun x => { x with parts := tset x.parts die { p with left := true, assigned := [] } }))

/-! Completion (R92, R183). -/

/-- Work of a launch that is still in flight at a core: stores not landed, commands not completed. -/
def Core.pendingOf (c : Core) (l : Nat) : Bool :=
  c.out.any (fun o => match o with
    | .entry e _ => e.launch == some l
    | .mark _ m => m == some l) ||
  [Engine.MX, .CP, .GL, .PS].any (fun e => (c.engineQueue e).any (fun q => q.launch == some l)) ||
  c.vec.seq.any (fun e => e.launch == some l) || c.acc.any (fun a => a.launch == some l)

/-- The conditions of the kernel boundary. -/
def boundaryReady (s : State) (l : Nat) (x : Launch) : Bool :=
  x.running == 0 && x.parts.all (fun p => p.2.landings.all (·.isEmpty)) &&
  (x.status != 0 || (x.tiles ≤ x.started.length && x.again.isEmpty)) &&
  !x.cores.any (fun k => (s.core k).pendingOf l) &&
  !s.dies.any (fun d => d.2.gal.cls.any (fun c => c.2.exitq.any (fun r => match r.land with
    | some (i, _) => i == l
    | none => false))) &&
  !s.launches.any (fun c => !c.2.done && match c.2.src with
    | .child _ _ _ p => p == l
    | .queue _ _ => false)

/-- A child notice enters q6 of a context; the slot that it frees when it is popped goes with it (R102, R150). -/
def Core.childNotice (c : Core) (die handle : Nat) (w : PWord) : Core :=
  { c with notices := c.notices ++ [(die, handle)] }.push 6 w

/-- The parent's q6 notice (R102): to the core or the saved context of the task, else dropped. -/
def childNotice (s : State) (die handle task status : Nat) : State :=
  let w : PWord := ⟨BitVec.ofNat 32 (handle + status * 65536), false⟩
  let slot := handle % 256
  let put (noticed : Bool) (s : State) : State := s.updDie die (fun d =>
    { d with children := tset d.children slot { (tget d.children {} slot) with launch := none, noticed } })
  let is (c : Core) : Bool := c.task.any (fun t => t.uid == task)
  match s.cores.find? (fun c => is c.2) with
  | some c => put true (s.updCore c.1 (·.childNotice die handle w))
  | none =>
    match s.saved.find? (fun x => is x.2.ctx) with
    | some x => put true { s with saved := tset s.saved x.1 { x.2 with ctx := x.2.ctx.childNotice die handle w } }
    | none => put false s

/-- KERNEL_BOUNDARY (R92, R183): the launch completes in one move, or its refusal is reported. -/
def execKernelBoundary (l : Nat) (s : State) : Out :=
  match tfind s.launches l with
  | none => .next s
  | some x =>
    if x.done || !boundaryReady s l x then .next s
    else
      let queue := match x.src with
        | .queue _ _ => true
        | .child _ _ _ _ => false
      let sc : Scope := if queue then .H else .P
      let s' := s.updMs (·.widen (fun e => e.launch == some l) sc)
      let s' := x.cores.foldl (fun s k => s.updCore k (fun c => { c with snap := [] })) s'
      let s' := if x.doneAddr = 0 then some s'
        else leaderWrite s' x.asid x.doneAddr.toNat [BitVec.ofNat 32 x.status, x.ident] sc
      match s' with
      | none => .next s
      | some s =>
        let s := s.updLaunch l (fun x => { x with done := true })
        match x.src with
        | .child die h task _ => .next (childNotice s die h task x.status)
        | .queue _ _ => .next s

/-! Cancellation. -/

/-- Stores that a context has published and not landed stay with a core. -/
def Core.inherit (c ctx : Core) : Core :=
  { c with
    out := c.out ++ ctx.out, goPend := c.goPend ++ ctx.goPend,
    cnt := { c.cnt with ST := c.cnt.ST + ctx.cnt.ST, RM := c.cnt.RM + ctx.cnt.RM } }

/-- LAUNCH_CANCEL (R91, R178, R199): the launch's tasks are ended as aborted and its landings emptied; it completes with status
ABORTED. -/
def execLaunchCancel (l : Nat) (s : State) : Out :=
  match tfind s.launches l with
  | none => .next s
  | some x =>
    if x.done || x.status != 0 then .next s
    else
      let s := s.updLaunch l (fun x => { x with
        status := 4, again := [], parts := x.parts.map (fun (p : Nat × DiePart) => (p.1, { p.2 with landings := p.2.landings.map (fun _ => []) })) })
      let gone := s.saved.filter (fun e => e.2.ctx.launch == some l)
      let s := { s with saved := s.saved.filter (fun e => e.2.ctx.launch != some l) }
      let s := gone.foldl (fun s e => freeSlots (s.updCore e.2.core (·.inherit e.2.ctx)) e.2.ctx.notices) s
      let s := s.updLaunch l (fun x => { x with running := x.running - gone.length })
      .next ((s.cores.filter (fun c => c.2.launch == some l)).foldl (fun s c => abortTask s c.1) s)

end Sys2Proof.Machine
end

