-- ==== Sys2Proof/Machine/MatrixOps.lean ====
section
/-!
DEFINITION. Sys2Proof/Machine/MatrixOps.lean: what the matrix unit computes: geometry and addresses (R271 to R273), operand
elements and block sums (R75 to R77, R290, R291), partial checks (R278), accumulator checks (R279).
-/
namespace Sys2Proof.Machine
open Sys2Proof

/-! Geometry. -/

abbrev MG := Vector Word 10

def MG.fmt (g : MG) : Nat := wf g[0] 0 4
def MG.swz (g : MG) : Nat := wf g[0] 4 3
def MG.chk (g : MG) : Nat := wf g[7] 1 2
def MG.sat (g : MG) : Bool := g[7].getLsbD 0
/-- The accumulator that MG7.ACC selects: acc1. -/
def MG.acc1 (g : MG) : Bool := g[7].getLsbD 3

/-- Bytes of a 64-element run (R272). -/
def runBytes (fmt : Nat) : Nat := [128, 128, 64, 64, 32, 48, 72].getD fmt 0
/-- The shared-exponent format of a code. -/
def seFmt : Nat → Option SEFmt
  | 4 => some .se2 | 5 => some .se4 | 6 => some .se7 | _ => none

/-- GEOMETRY of R271. -/
def geometryBad (g : MG) (scac : Bool) : Bool :=
  6 < MG.fmt g || 2 < MG.swz g || MG.chk g == 3 || g[0].toNat / 2 ^ 7 != 0 || g[7].toNat / 2 ^ 4 != 0 || g[9].toNat / 2 ^ 20 != 0 ||
  g[1].toNat % 8 != 0 || g[4].toNat % 8 != 0 || wf g[2] 0 16 % 8 != 0 || wf g[5] 0 16 % 8 != 0 ||
  (MG.swz g == 1 && (g[4].toNat % 256 != 0 || wf g[5] 0 16 % 256 != 0)) ||
  (MG.swz g == 2 && (g[4].toNat % 512 != 0 || wf g[5] 0 16 % 512 != 0)) ||
  g[8].toNat % 4 != 0 || g[9].toNat % 4 != 0 || (scac && MG.fmt g < 4)

/-- N breaks its limits (R290). -/
def badN (n : Word) : Bool := n.toNat % 16 != 0 || n.toNat < 16 || 512 < n.toNat
/-- MDRN's row range breaks its limits (R295). -/
def badRows (b : Word) : Bool := b.getLsbD 7 || b.toNat / 2 ^ 16 != 0 || wf b 8 8 == 0 || 128 < wf b 0 7 + wf b 8 8

/-- The swizzle of R273. -/
def swizzle (swz o j : Nat) : Nat :=
  match swz with
  | 1 => o ^^^ (j % 16 * 16)
  | 2 => o ^^^ (j % 16 * 32)
  | _ => o

def bodyA (g : MG) (s x : Nat) : List Nat := vaRange (g[1].toNat + x * wf g[2] 0 16 + s * runBytes (MG.fmt g)) (runBytes (MG.fmt g))
def scaleA (g : MG) (s x : Nat) : List Nat := vaRange (g[3].toNat + x * wf g[2] 16 16 + 4 * s) 4
def bodyB (g : MG) (s j : Nat) : List Nat :=
  (List.range (runBytes (MG.fmt g))).map (fun o =>
    (g[4].toNat + j * wf g[5] 0 16 + swizzle (MG.swz g) (s * runBytes (MG.fmt g) + o) j) % 2 ^ 32)
def scaleB (g : MG) (s j : Nat) : List Nat := vaRange (g[6].toNat + j * wf g[5] 16 16 + 4 * s) 4

/-- The operand addresses of an MMUL (R272): A bodies, A scales, B bodies, B scales. -/
def operandAddrs (g : MG) (idx : List Nat) (n s : Nat) : List Nat :=
  let rows := (List.range 128).map (fun i => idx.getD i 0)
  let cols := List.range n
  (rows.map (bodyA g s)).flatten ++ (if 4 ≤ MG.fmt g then (rows.map (scaleA g s)).flatten else []) ++
  (cols.map (bodyB g s)).flatten ++ (if 4 ≤ MG.fmt g then (cols.map (scaleB g s)).flatten else [])

/-- INDEX_RANGE (R272): MFADDR of the lowest row, or failing any row the lowest column, with a body byte outside the stash. -/
def indexRange (c : Core) (g : MG) (idx : List Nat) (n s : Nat) : Option Word :=
  match (List.range 128).find? (fun i => !(bodyA g s (idx.getD i 0)).all c.inWindow) with
  | some i => some (BitVec.ofNat 32 (0xFFFF0000 + i))
  | none => ((List.range n).find? (fun j => !(bodyB g s j).all c.inWindow)).map (fun j => BitVec.ofNat 32 (j * 65536 + 0xFFFF))

/-- Destination bytes of an MDRN (R295). -/
def drainAddrs (g : MG) (n : Nat) (b : Word) : List Nat :=
  ((List.range (wf b 8 8)).map (fun r =>
    vaRange (g[8].toNat + (wf b 0 7 + r) * wf g[9] 0 20) (4 * n))).flatten

/-! Matrices. -/

def matGet (m : Mat) (i j : Nat) : Word := (m.getD i []).getD j 0
/-- Columns 0 to n-1 of all 128 rows replaced. -/
def matSet (m : Mat) (n : Nat) (f : Nat → Nat → Word) : Mat :=
  (List.range 128).map (fun i => (List.range n).map (f i) ++ (m.getD i []).drop n)
def matFlip (m : Mat) (i j bit : Nat) : Mat :=
  m.mapIdx (fun r row => if r = i then row.mapIdx (fun q w => if q = j then w ^^^ (1 <<< bit : Word) else w) else row)
/-- Keys 512 i + j of elements. -/
def keysOf (n : Nat) (p : Nat → Nat → Bool) : List Nat :=
  ((List.range 128).map (fun i => ((List.range n).filter (p i)).map (512 * i + ·))).flatten
/-- Poisoned elements after columns 0 to n-1 were formed. -/
def keysSet (old : List Nat) (n : Nat) (p : Nat → Nat → Bool) : List Nat := old.filter (fun k => n ≤ k % 512) ++ keysOf n p

/-! Operands. -/

/-- The operand bytes of an MMUL, split (R272). -/
structure Operands where
  a : List (List (Byte × Bool))
  sa : List (List (Byte × Bool))
  b : List (List (Byte × Bool))
  sb : List (List (Byte × Bool))

def chunks (bs : List (Byte × Bool)) (off len count : Nat) : List (List (Byte × Bool)) :=
  (List.range count).map (fun i => (bs.drop (off + i * len)).take len)

def splitOperands (fmt n : Nat) (bs : List (Byte × Bool)) : Operands :=
  let C := runBytes fmt
  let sc := if 4 ≤ fmt then 4 else 0
  { a := chunks bs 0 C 128, sa := chunks bs (128 * C) sc 128,
    b := chunks bs (128 * C + 128 * sc) C n, sb := chunks bs (128 * C + 128 * sc + n * C) sc n }

/-- K block kb of a list of 64 elements. -/
def kblock {α : Type} (l : List α) (kb : Nat) : List α := (l.drop (16 * kb)).take 16

/-- Elements of a BF16 or FP16 run. -/
def fpRun (fmt : Nat) (r : List (Byte × Bool)) : List FV :=
  (List.range 64).map (fun k => (if fmt = 0 then bf16 else fp16).decode (takeNat r (2 * k) 2))
where takeNat (r : List (Byte × Bool)) (off n : Nat) : Nat := bytesToNat (((r.drop off).take n).map (·.1))

/-- The integer of a shared-exponent element (R77). -/
def seInt (f : SEFmt) (field mu E : Nat) : Int :=
  if E = 0 ∨ E = 255 then 0
  else
    let v : Int := (field % 2 ^ seM f * (if mu = 1 then 1 else 2) : Nat)
    if field / 2 ^ seM f % 2 = 1 then -v else v

/-- Elements of an integer or shared-exponent run. -/
def intRun (fmt : Nat) (r sc : List (Byte × Bool)) : List Int :=
  match seFmt fmt with
  | none => r.map (fun x => if fmt = 2 then x.1.toInt else (x.1.toNat : Int))
  | some f =>
    ((List.range 4).map (fun kb =>
      let u := seUnpack f (((r.drop (kb * seBytes f)).take (seBytes f)).map (·.1))
      (List.range 16).map (fun k => seInt f (u.2.getD k 0) (u.1.getD (k / 2) 0) ((sc.getD kb (0, false)).1.toNat)))).flatten

def dotInt (a b : List Int) : Int := (a.zip b).foldl (fun t p => t + p.1 * p.2) 0
def dotFV (a b : List FV) : FV := sumFV .rne ((a.zip b).map (fun p => p.1.mul p.2))

/-- A K block of a run, its scale byte included, holds poison. -/
def runPoison (C : Nat) (r sc : List (Byte × Bool)) (kb : Nat) : Bool :=
  ((r.drop (kb * (C / 4))).take (C / 4)).any (·.2) || (sc.getD kb (0, false)).2

/-! Partial checks (R278). -/

/-- rowchk and colchk of a block. -/
def partChk (a b : List (List Int)) : PartChk :=
  let sumAt (l : List (List Int)) : List Int := (List.range 16).map (fun k => l.foldl (fun t r => t + r.getD k 0) 0)
  let sa := sumAt a
  let sb := sumAt b
  { row := b.map (dotInt sa), col := a.map (dotInt sb) }

/-- What the check of one partial set finds: it passes, an element is wrong by a difference, or it fails with MFADDR. -/
inductive PartRes where
  | pass | fix (i j : Nat) (by' : Int) | fail (addr : Word)

/-- MFADDR of a failing check (R266, R279). -/
def failAddr (cols rows : List Nat) : Word :=
  let one (l : List Nat) : Nat := match l with
    | [x] => x
    | _ => 0xFFFF
  BitVec.ofNat 32 (one cols * 65536 + one rows)

def checkPart (p : Mat) (ch : PartChk) (n chk : Nat) : PartRes :=
  let dr := (List.range n).map (fun j => ((List.range 128).foldl (fun t i => t + (matGet p i j).toInt) 0) - ch.row.getD j 0)
  let dc := (List.range 128).map (fun i => ((List.range n).foldl (fun t j => t + (matGet p i j).toInt) 0) - ch.col.getD i 0)
  let cols := (List.range n).filter (fun j => dr.getD j 0 != 0)
  let rows := (List.range 128).filter (fun i => dc.getD i 0 != 0)
  match cols, rows with
  | [], [] => .pass
  | [j], [i] => if chk = 2 ∧ dr.getD j 0 = dc.getD i 0 then .fix i j (dr.getD j 0) else .fail (failAddr [j] [i])
  | _, _ => .fail (failAddr cols rows)

/-- The check of the four partial sets: the sets with corrections made, how many, and MFADDR of the first failure. -/
def checkParts (pp : List Mat) (ch : List PartChk) (n chk : Nat) : List Mat × Nat × Option Word :=
  if chk = 0 then (pp, 0, none)
  else
    (List.range 4).foldl (fun r kb =>
      let p := pp.getD kb []
      match checkPart p (ch.getD kb {}) n chk with
      | .pass => (r.1 ++ [p], r.2.1, r.2.2)
      | .fix i j d => (r.1 ++ [p.mapIdx (fun x row => if x = i then row.mapIdx (fun y w => if y = j then w - BitVec.ofInt 32 d else w)
          else row)], r.2.1 + 1, r.2.2)
      | .fail a => (r.1 ++ [p], r.2.1, if r.2.2.isSome then r.2.2 else some a)) (([] : List Mat), 0, none)

/-! Accumulators. -/

def add64 (c : BitVec 64) (t : FV) : BitVec 64 := BitVec.ofNat 64 (fp64.encode .rne (sumFV .rne [fp64.decode c.toNat, t]))
def FV.abs : FV → FV
  | .nan => .nan
  | .inf _ => .inf false
  | .fin _ m e => .fin false m e

/-- Block additions of FP32 accumulators, each rounded once, with their terms in the check vectors (R75, R77, R279). -/
def Accum.addFP (a : Accum) (n : Nat) (terms : Nat → Nat → List FV) : Accum :=
  let t := (List.range 128).map (fun i => (List.range n).map (terms i))
  let at' (i j : Nat) : List FV := (t.getD i []).getD j []
  let row (f : FV → FV) (old : List (BitVec 64)) : List (BitVec 64) :=
    (List.range 128).map (fun i => (List.range n).foldl (fun c j => (at' i j).foldl (fun c x => add64 c (f x)) c) (old.getD i 0))
  let col (f : FV → FV) (old : List (BitVec 64)) : List (BitVec 64) :=
    (List.range 512).map (fun j => if j < n then
      (List.range 128).foldl (fun c i => (at' i j).foldl (fun c x => add64 c (f x)) c) (old.getD j 0) else old.getD j 0)
  { a with
    el := matSet a.el n (fun i j => (at' i j).foldl (fun v x => roundFP32 .rne (sumFV .rne [f32 v, x])) (matGet a.el i j)),
    rowC := row id a.rowC, rowM := row FV.abs a.rowM, colC := col id a.colC, colM := col FV.abs a.colM, count := a.count + 4 }

/-- One addition of R76: the value, and whether the exact result left the INT32 range. -/
def addI32 (sat : Bool) (v : Word) (p : Int) : Word × Bool :=
  let x := v.toInt + p
  if x < -2147483648 then (if sat then 0x80000000 else BitVec.ofInt 32 x, true)
  else if 2147483647 < x then (if sat then 0x7FFFFFFF else BitVec.ofInt 32 x, true)
  else (BitVec.ofInt 32 x, false)

/-- Block additions of INT32 accumulators in ascending order (R76), with the exact check sums of R279. -/
def Accum.addInt (a : Accum) (n : Nat) (sat : Bool) (terms : Nat → Nat → List Int) : Accum × Bool :=
  let r := (List.range 128).map (fun i => (List.range n).map (fun j =>
    (terms i j).foldl (fun (v : Word × Bool) p => let x := addI32 sat v.1 p; (x.1, v.2 || x.2)) (matGet a.el i j, false)))
  let tot (i j : Nat) : Word := BitVec.ofInt 32 ((terms i j).foldl (· + ·) 0)
  ({ a with
     el := matSet a.el n (fun i j => ((r.getD i []).getD j (0, false)).1),
     rowI := (List.range 128).map (fun i => (List.range n).foldl (fun c j => c + tot i j) (a.rowI.getD i 0)),
     colI := (List.range 512).map (fun j => if j < n then (List.range 128).foldl (fun c i => c + tot i j) (a.colI.getD j 0)
       else a.colI.getD j 0),
     count := a.count + 4 },
   r.any (fun row => row.any (·.2)))

/-- m1 2^e1 at most m2 2^e2. -/
def dyLe (m1 : Nat) (e1 : Int) (m2 : Nat) (e2 : Int) : Bool :=
  let q := min e1 e2
  m1 * 2 ^ (e1 - q).toNat ≤ m2 * 2 ^ (e2 - q).toNat

/-- |S - C| at most (a + 2) 2^-24 M (R279); a line that holds an infinity or a NaN passes. -/
def lineOk (els : List Word) (c m : BitVec 64) (count : Nat) : Bool :=
  let xs := els.map f32
  if xs.any (fun x => x.isNaN || x.isInf true || x.isInf false) then true
  else match sumFV .rne (xs ++ [(fp64.decode c.toNat).neg]), fp64.decode m.toNat with
  | .fin _ d e, .fin _ x f => dyLe d e ((count + 2) * x) (f - 24)
  | _, _ => true

/-- The test of R279 on rows 0 to 127 and columns 0 to n-1: not tested, or MFADDR of a failure. -/
inductive AccTest where
  | untested | pass | fail (cols rows : List Nat)

def accTest (g : MG) (a : Accum) (ovf : Bool) (n : Nat) : AccTest :=
  let int := MG.fmt g = 2 ∨ MG.fmt g = 3
  if MG.chk g = 0 ∨ (int ∧ MG.sat g ∧ ovf) then .untested
  else
    let row (i : Nat) : List Word := (List.range 512).map (matGet a.el i)
    let col (j : Nat) : List Word := (List.range 128).map (fun i => matGet a.el i j)
    let okR (i : Nat) : Bool := if int then (row i).foldl (· + ·) 0 == a.rowI.getD i 0
      else lineOk (row i) (a.rowC.getD i 0) (a.rowM.getD i 0) a.count
    let okC (j : Nat) : Bool := if int then (col j).foldl (· + ·) 0 == a.colI.getD j 0
      else lineOk (col j) (a.colC.getD j 0) (a.colM.getD j 0) a.count
    let rows := (List.range 128).filter (fun i => !okR i)
    let cols := (List.range n).filter (fun j => !okC j)
    if rows.isEmpty && cols.isEmpty then .pass else .fail cols rows

/-- The word that MCHK writes (R296). -/
def AccTest.word : AccTest → Word
  | .untested => 0x80000000
  | .pass => 0
  | .fail cols rows =>
    let a := (failAddr cols rows).toNat
    BitVec.ofNat 32 (2 ^ 30 + min (a / 65536) 0x3FFF * 65536 + a % 65536)

/-! Injection (R269). -/

/-- The element that MINJ names, where it is armed for a target that is formed over n columns. -/
def injects (inj : Word) (target n : Nat) : Option (Nat × Nat × Nat) :=
  if inj.getLsbD 31 && wf inj 28 3 == target && wf inj 12 9 < n then some (wf inj 21 7, wf inj 12 9, wf inj 0 5) else none

end Sys2Proof.Machine
end

