-- ==== Sys2Proof/Machine/Matrix.lean ====
section
/-!
DEFINITION. Sys2Proof/Machine/Matrix.lean: the matrix instructions at the core (R271, R285 to R297), and the unit's moves:
accept, operand reads, arbitration, completion (R175 to R177, R275, R277, R281, R282).
-/
namespace Sys2Proof.Machine
open Sys2Proof

/-! At the core. -/

/-- The unit's part as the running task sees it (R265): empty while an ended task's commands still leave the queue. -/
def MatCore.view (m : MatCore) : MatCore := if m.clear then m.fresh else m

/-- MG0 to MG9 as the next command will find them: queued MGEOs counted (R271). -/
def MatCore.ahead (m : MatCore) : MG :=
  (m.queue.filter (fun q => !q.dead)).foldl (fun (g : MG) q => match q.instr with
    | .mgeo _ _ => if h : q.b.toNat < 10 then g.set q.b.toNat q.a else g
    | _ => g) m.view.mg

/-- A matrix instruction: its operand checks, then an engine issue at K (R285). A failed check gives a cause and address. -/
def matIssue (i : Instr) (u : Uses) (s : State) (check : Vals → MG → Option (Nat × Word)) : Out :=
  offered i u s <| gate i u s fun v s =>
    match check v (s.core s.cur).mat.ahead with
    | some (cause, addr) => .next (raiseD s cause (instrWord i) addr)
    | none => engineIssue i u .MX v s []

/-- GEOMETRY where a condition holds. -/
def geoIf (b : Bool) : Option (Nat × Word) := if b then some (0x30, 0) else none

/-- `MGEO` (R288). -/
def execMgeo (a b : Src) (s : State) : Out :=
  matIssue (.mgeo a b) { a, b, engs := [.MX], moves := true } s fun v _ => geoIf (9 < v.b.toNat)
/-- `MIDX` (R289). -/
def execMidx (a : Src) (s : State) : Out :=
  matIssue (.midx a) { a, engs := [.MX], moves := true } s fun v _ => if v.a.toNat % 4 ≠ 0 then some (0x04, v.a) else none
/-- `MMUL` (R290). -/
def execMmul (a b : Src) (s : State) : Out :=
  matIssue (.mmul a b) { a, b, engs := [.MX], moves := true } s fun v g =>
    geoIf (badN v.a || v.b.toNat / 2 ^ 16 != 0 || geometryBad g false)
/-- `MZERO` (R293). -/
def execMzero (a : Src) (s : State) : Out :=
  matIssue (.mzero a) { a, engs := [.MX], moves := true } s fun v _ => geoIf (v.a == 0 || v.a.toNat / 4 != 0)
/-- `MSCAC` (R294). -/
def execMscac (s : State) : Out :=
  matIssue .mscac { engs := [.MX], moves := true } s fun _ g => geoIf (geometryBad g true)
/-- `MDRN` (R295). -/
def execMdrn (a b : Src) (s : State) : Out :=
  matIssue (.mdrn a b) { a, b, engs := [.MX], moves := true } s fun v g => geoIf (badN v.a || badRows v.b || geometryBad g false)
/-- `MCHK` (R296): it issues while d is still owed by an earlier producer (R297). -/
def execMchk (d : Dst) (a : Src) (s : State) : Out :=
  matIssue (.mchk d a) { a, dst := d, engs := [.MX], moves := true, late := true } s fun v g => geoIf (badN v.a || geometryBad g false)

/-! Accept and operand reads. -/

/-- The unit accepts the command that core k offers (R275, R282, R285): it takes the next sequence number (R298); an MDRN
takes its destination lines, and MCHK's d is marked empty. -/
def matAccept (s : State) (k : Nat) (q : Cmd) : State :=
  let c := s.core k
  let m := c.mat
  let enqueue (s : State) (wr : Option (List Nat)) : State :=
    finishOffer s k (fun c =>
      let c := ({ c with mat := { c.mat with
          queue := c.mat.queue ++ [{ q with seq := m.seq, wr }], seq := (m.seq + 1) % 65536 } } : Core).bump .MX 1
      match q.instr with
      | .mchk d _ => c.produce { op := .engine .MX, d, b := q.a, pc := q.pc, instr := q.word, issuedAt := s.ck }
      | _ => c)
  if !c.acceptable .MX || m.clear then s
  else match q.instr with
  | .mdrn _ _ =>
    match engineTake s .MX k m.seq q.asid (drainAddrs m.ahead q.a.toNat q.b) with
    | .wait => s
    | .cause _ _ _ s => enqueue s none
    | .ok pas s => enqueue s (some pas)
  | _ => enqueue s none

/-- The head command of the queue is replaced, and a page it was held on is done with. -/
def MatCore.setHead (m : MatCore) (q : Cmd) : MatCore := { m with queue := q :: m.queue.drop 1, rearmed := none }

/-- A command leaves the queue; the unit clears its state behind an ended task's last one (R265). -/
def MatCore.settle (m : MatCore) : MatCore := if m.clear && m.queue.isEmpty then m.fresh else m

def tileFn : Instr → Nat
  | .mmul _ _ => 2 | .mscac => 4 | .mdrn _ _ => 5 | .mchk _ _ => 6 | _ => 0

/-- The token of a command enters q0 (R277). -/
def Core.pushToken (c : Core) (q : Cmd) (corr ovf fault : Bool) : Core :=
  if q.dead || tileFn q.instr = 0 then c
  else c.push 0 ⟨BitVec.ofNat 32 (q.seq + tileFn q.instr * 2 ^ 16 + (if corr then 2 ^ 24 else 0) + (if ovf then 2 ^ 25 else 0) +
    (if fault then 2 ^ 26 else 0)), false⟩

/-- A cause met by the head command (R281): a page cause is held; any other completes it with a faulted token. -/
def matCause (s : State) (k : Nat) (q : Cmd) (corr : Bool) (cause : Nat) (detail addr : Word) : State :=
  let flt : FaultRec := { cause, f1 := q.seq, f2 := 0, addr }
  let w : Waiting := ⟨cause, if cause = 0x60 then detail else BitVec.ofNat 32 (q.seq * 256 + cause), addr⟩
  let s := engineCauseAt s k .MX q flt w
  if isPage cause then s
  else
    let s := s.updCore k (fun c => let c := c.pushToken q corr false true; { c with mat := c.mat.settle })
    s.count (coreDie k) 0x102 k (if cause = 0x32 then 1 else 0)

/-- Engine reads of the command at its turn (R175, R274, R289, R290); a drain held on a page takes its lines (R295). -/
def matRead (s : State) (k : Nat) : State :=
  let c := s.core k
  let m := c.mat
  match m.queue.head? with
  | none => s
  | some q =>
    if q.started || q.rd.isSome || q.wr.isSome || !engineReady s k .MX q.asid then s
    else
      let read (addrs : List Nat) : State :=
        match engineRead s .MX k q.seq q.asid q.pc addrs with
        | .wait => s
        | .cause cause detail va s => matCause s k q false cause detail (BitVec.ofNat 32 va)
        | .ok bs s => s.updCore k (fun c => { c with mat := c.mat.setHead { q with rd := some bs } })
      match q.instr with
      | .midx _ => read (vaRange q.a.toNat 256)
      | .mmul _ _ =>
        match indexRange c m.mg m.idx q.a.toNat q.b.toNat with
        | some a => matCause s k q false 0x31 0 a
        | none => read (operandAddrs m.mg m.idx q.a.toNat q.b.toNat)
      | .mdrn _ _ =>
        match engineTake s .MX k q.seq q.asid (drainAddrs m.mg q.a.toNat q.b) with
        | .wait => s
        | .cause cause detail va s => matCause s k q false cause detail (BitVec.ofNat 32 va)
        | .ok pas s => s.updCore k (fun c => { c with mat := c.mat.setHead { q with wr := some pas } })
      | _ => s

/-! Arbitration (R275). -/

/-- A tile of core k is ready for the array. -/
def tileReady (s : State) (k : Nat) : Bool :=
  match (s.core k).mat.queue.head? with
  | none => false
  | some q => engineReady s k .MX q.asid && (match q.instr with
    | .mmul _ _ => q.rd.isSome
    | .mdrn _ _ => q.wr.isSome
    | .mscac | .mchk _ _ => true
    | _ => false)

/-- A tile of the cluster is on the array. -/
def arrayBusy (s : State) (c : Nat) : Bool :=
  (List.range 8).any (fun i => ((s.core (c * 8 + i)).mat.queue.head?).any (·.started))

/-- The head command of core k waits for lines that another command owns (R177). -/
def matWaits (s : State) (k : Nat) : Bool :=
  let m := (s.core k).mat
  let waits {α : Type} (r : EAccess α) : Bool := match r with
    | .wait => true
    | _ => false
  m.queue.head?.any (fun q => match q.instr, q.rd, q.wr with
    | .midx _, none, _ => waits (engineRead s .MX k q.seq q.asid q.pc (vaRange q.a.toNat 256))
    | .mmul _ _, none, _ => waits (engineRead s .MX k q.seq q.asid q.pc (operandAddrs m.mg m.idx q.a.toNat q.b.toNat))
    | .mdrn _ _, _, none => waits (engineTake s .MX k q.seq q.asid (drainAddrs m.mg q.a.toNat q.b))
    | _, _, _ => false)

/-- Core k has a tile queued: one that is not held for a page, which is accepted afresh later (R281), nor behind lines that another
command owns, which must end first (R177). -/
def tileQueued (s : State) (k : Nat) : Bool :=
  let m := (s.core k).mat
  m.queue.any (fun q => tileFn q.instr != 0) && m.queue.head?.any (fun q => engineReady s k .MX q.asid) && !matWaits s k

/-- The core that the arbiter serves next: the last one while its weight allows, else the next in ascending order that has a tile
queued. -/
def nextTile (s : State) (c : Nat) : Option Nat :=
  let x := s.cluster c
  let queued (i : Nat) : Bool := tileQueued s (c * 8 + i)
  if queued x.lastCore && x.inRow < wf x.mweight (3 * x.lastCore) 3 + 1 then some x.lastCore
  else ((List.range 8).map (fun i => (x.lastCore + 1 + i) % 8)).find? queued

/-- MATRIX_TILE_START (R275): the array of cluster c takes the tile of its core k, whose turn it is. -/
def execMatrixTileStart (c k : Nat) (s : State) : Out :=
  if arrayBusy s c || nextTile s c != some k || !tileReady s (c * 8 + k) then .next s
  else
    let j := c * 8 + k
    let s := s.updCore j (fun x => match x.mat.queue.head? with
      | some q => { x with mat := { x.mat with queue := { q with started := true } :: x.mat.queue.drop 1 } }
      | none => x)
    .next (s.updCluster c (fun x => { x with inRow := (if x.lastCore = k then x.inRow + 1 else 1), lastCore := k }))

/-! Completion. -/

def MatCore.acc (m : MatCore) (one : Bool) : Accum := if one then m.acc1 else m.acc0
def MatCore.setAcc (m : MatCore) (one : Bool) (a : Accum) : MatCore := if one then { m with acc1 := a } else { m with acc0 := a }
def MatCore.ovf (m : MatCore) (one : Bool) : Bool := if one then m.ovf1 else m.ovf0

/-- An armed injection into the accumulator just formed (R269). -/
def MatCore.injectAcc (m : MatCore) (one : Bool) (n : Nat) : MatCore :=
  match injects m.inj (if one then 5 else 4) n with
  | some (i, j, b) =>
    { m.setAcc one { (m.acc one) with el := matFlip (m.acc one).el i j b } with inj := m.inj &&& 0x7FFFFFFF }
  | none => m

/-- A word that differs from an element's: what a parity error leaves there. -/
def wrongWord (old free : Word) : Word := if free = old then old ^^^ 1 else free

/-- A parity error of an element (R280): its word is wrong. With CHK = 10 a check of the partial set counts it as a wrong element; with
another CHK, and in an accumulator, whose test never corrects (R279), the element is poisoned too. Sets 0 to 3 are the partials, 4 and 5
the accumulators. -/
def MatCore.parity (m : MatCore) (target i j : Nat) (free : Word) : MatCore :=
  let key := 512 * i + j
  let put (el : Mat) : Mat := matSet el 512 (fun a b => if a = i ∧ b = j then wrongWord (matGet el i j) free else matGet el a b)
  let mark (p : List Nat) : List Nat := if p.contains key then p else key :: p
  if target < 4 then
    { m with
      pp := m.pp.mapIdx (fun x p => if x = target then put p else p),
      ppPoison := if MG.chk m.mg = 2 then m.ppPoison else m.ppPoison.mapIdx (fun x p => if x = target then mark p else p) }
  else
    let a := m.acc (target == 5)
    m.setAcc (target == 5) { a with el := put a.el, poison := mark a.poison }

/-- An armed injection into the partial sets just formed. -/
def MatCore.injectParts (m : MatCore) (n : Nat) : MatCore :=
  (List.range 4).foldl (fun m kb =>
    match injects m.inj kb n with
    | some (i, j, b) => { m with pp := m.pp.mapIdx (fun x p => if x = kb then matFlip p i j b else p), inj := m.inj &&& 0x7FFFFFFF }
    | none => m) m

/-- What a tile makes of the unit's state: corrections, an overflow flag set, MFADDR of a failed check. -/
structure TileRes where
  m : MatCore
  corr : Bool := false
  ovf : Bool := false
  fail : Option Word := none
  /-- elements put right (R318) -/
  fixed : Nat := 0

/-- MMUL on its operand bytes (R290, R291). -/
def mmulRes (m : MatCore) (n : Nat) (bs : List (Byte × Bool)) : TileRes :=
  let g := m.mg
  let fmt := MG.fmt g
  let C := runBytes fmt
  let o := splitOperands fmt n bs
  let one := MG.acc1 g
  let bad (i j kb : Nat) : Bool :=
    runPoison C (o.a.getD i []) (o.sa.getD i []) kb || runPoison C (o.b.getD j []) (o.sb.getD j []) kb
  let anyBad (i j : Nat) : Bool := (List.range 4).any (bad i j)
  if fmt < 2 then
    let a := o.a.map (fpRun fmt)
    let b := o.b.map (fpRun fmt)
    let t (i j : Nat) : List FV := (List.range 4).map (fun kb => dotFV (kblock (a.getD i []) kb) (kblock (b.getD j []) kb))
    let old := m.acc one
    let acc := { old.addFP n t with poison := keysSet old.poison n (fun i j => old.poison.contains (512 * i + j) || anyBad i j) }
    { m := (m.setAcc one acc).injectAcc one n }
  else
    let a := (o.a.zip o.sa).map (fun p => intRun fmt p.1 p.2)
    let b := (o.b.zip o.sb).map (fun p => intRun fmt p.1 p.2)
    let pp := (List.range 4).map (fun kb => matSet (m.pp.getD kb []) n (fun i j =>
      BitVec.ofInt 32 (dotInt (kblock (a.getD i []) kb) (kblock (b.getD j []) kb))))
    let m : MatCore := { m with
      pp, np := n,
      ppChk := (List.range 4).map (fun kb => partChk (a.map (kblock · kb)) (b.map (kblock · kb))),
      ppPoison := (List.range 4).map (fun kb => keysSet (m.ppPoison.getD kb []) n (fun i j => bad i j kb)) }
    let m := m.injectParts n
    if 4 ≤ fmt then
      let sc (l : List (List (Byte × Bool))) : List (List Nat) := l.map (fun r => r.map (fun x => x.1.toNat))
      { m := { m with la := sc o.sa, lb := sc o.sb ++ m.lb.drop n } }
    else
      let r := checkParts m.pp m.ppChk n (MG.chk g)
      let m : MatCore := { m with pp := r.1, corr := min (m.corr + r.2.1) 0xFFFFFFFF }
      match r.2.2 with
      | some f => { m, corr := r.2.1 != 0, fail := some f, fixed := r.2.1 }
      | none =>
        let old := m.acc one
        let x := old.addInt n (MG.sat g) (fun i j => (List.range 4).map (fun kb => (matGet (m.pp.getD kb []) i j).toInt))
        let acc := { x.1 with poison := keysSet old.poison n (fun i j => old.poison.contains (512 * i + j) || anyBad i j) }
        let m := (m.setAcc one acc).injectAcc one n
        { m := (if x.2 then (if one then { m with ovf1 := true } else { m with ovf0 := true }) else m),
          corr := r.2.1 != 0, ovf := x.2, fixed := r.2.1 }

/-- MSCAC (R77, R294). -/
def mscacRes (m : MatCore) : TileRes :=
  let g := m.mg
  let one := MG.acc1 g
  let n := m.np
  if n = 0 then { m }
  else
    let r := checkParts m.pp m.ppChk n (MG.chk g)
    let m : MatCore := { m with pp := r.1, corr := min (m.corr + r.2.1) 0xFFFFFFFF }
    match r.2.2 with
    | some f => { m, corr := r.2.1 != 0, fail := some f, fixed := r.2.1 }
    | none =>
      let w : Nat := match seFmt (MG.fmt g) with
        | some f => seM f
        | none => 1
      let t (i j : Nat) : List FV := (List.range 4).map (fun kb =>
        let ea := (m.la.getD i []).getD kb 0
        let eb := (m.lb.getD j []).getD kb 0
        if ea = 255 ∨ eb = 255 then .nan
        else
          let p := (matGet (m.pp.getD kb []) i j).toInt
          f32 (roundFP32 .rne (.fin (p < 0) p.natAbs ((ea : Int) + eb - 256 - 2 * ((w : Int) - 1)))))
      let old := m.acc one
      let acc := { old.addFP n t with poison := keysSet old.poison n (fun i j =>
        old.poison.contains (512 * i + j) || m.ppPoison.any (·.contains (512 * i + j))) }
      { m := (m.setAcc one acc).injectAcc one n, corr := r.2.1 != 0, fixed := r.2.1 }

/-- A tile's completion move: the new state, MCHK's result, the token, or the fault (R176, R277, R281); corrections are counted (R318). -/
def tileDone (s : State) (k : Nat) (q : Cmd) (r : TileRes) (poison : Bool) : State :=
  let s := consume s k q.pc poison
  let s := (s.updCore k (fun c => { c with mat := r.m })).count (coreDie k) 0x101 k r.fixed
  match r.fail with
  | some a => matCause s k q r.corr 0x32 0 a
  | none => s.updCore k (fun c =>
      let c := popCmd c .MX
      ({ c with mat := c.mat.settle } : Core).pushToken q r.corr r.ovf false)

/-- MDRN (R280, R295): rows written at P, ownership released; a poisoned element poisons its line. -/
def drainDone (s : State) (k : Nat) (q : Cmd) (pas : List Nat) : State :=
  let m := (s.core k).mat
  let g := m.mg
  let n := q.a.toNat
  match accTest g (m.acc (MG.acc1 g)) (m.ovf (MG.acc1 g)) n with
  | .fail cols rows => matCause s k q false 0x32 0 (failAddr cols rows)
  | _ =>
    let acc := m.acc (MG.acc1 g)
    let els := ((List.range (wf q.b 8 8)).map (fun r => (List.range n).map (fun j => (wf q.b 0 7 + r, j)))).flatten
    let bs := (els.map (fun e =>
      (wordBytes (matGet acc.el e.1 e.2)).map (fun x => (x, acc.poison.contains (512 * e.1 + e.2))))).flatten
    let s := engineWrite s .MX k q.launch ((pas.zip bs).map (fun p => (p.1, p.2.1, p.2.2)))
    let s := s.updMs (·.release .MX k q.seq)
    let s := if bs.any (·.2) && !q.dead then pendImp s k 0x70 q.pc 0 else s
    s.updCore k (fun c =>
      let c := popCmd c .MX
      ({ c with mat := c.mat.settle } : Core).pushToken q false false false)

/-- The unit's part of ENGINE_COMPLETE: the command at its turn completes where its work is done. -/
def matComplete (s : State) (k : Nat) : State :=
  let m := (s.core k).mat
  let pop (s : State) (f : MatCore → MatCore) : State := s.updCore k (fun c =>
    let c := popCmd { c with mat := f c.mat } .MX
    { c with mat := c.mat.settle })
  match m.queue.head? with
  | none => s
  | some q =>
    if !engineReady s k .MX q.asid then s
    else match q.instr with
    | .mgeo _ _ => pop s (fun m => if h : q.b.toNat < 10 then { m with mg := m.mg.set q.b.toNat q.a } else m)
    | .midx _ =>
      match q.rd with
      | some bs =>
        pop (consume s k q.pc (bs.any (·.2)))
          (fun m => { m with idx := (List.range 128).map (fun i => bytesToNat (((bs.drop (2 * i)).take 2).map (·.1))) })
      | none => s
    | .mzero _ => pop s (fun m =>
        let m := if q.a.getLsbD 0 then { m with acc0 := {} } else m
        if q.a.getLsbD 1 then { m with acc1 := {} } else m)
    | .mmul _ _ =>
      match q.started, q.rd with
      | true, some bs => (tileDone s k q (mmulRes m q.a.toNat bs) (bs.any (·.2))).tally (coreDie k) 0x103 k (128 * q.a.toNat * 64)
      | _, _ => s
    | .mscac => if q.started then tileDone s k q (mscacRes m) false else s
    | .mdrn _ _ =>
      match q.started, q.wr with
      | true, some pas => drainDone s k q pas
      | _, _ => s
    | .mchk _ _ =>
      if !q.started then s
      else
        let t := accTest m.mg (m.acc (MG.acc1 m.mg)) (m.ovf (MG.acc1 m.mg)) q.a.toNat
        let s := s.updCore k (fun c => engineResult c s.ck .MX [t.word])
        match t with
        | .fail cols rows => matCause s k q false 0x32 0 (failAddr cols rows)
        | _ => tileDone s k q { m := (s.core k).mat } false
    | _ => s

end Sys2Proof.Machine
end

