-- ==== Sys2Proof/Machine/CsrOps.lean ====
section
/-!
DEFINITION. Sys2Proof/Machine/CsrOps.lean: the numbers, privileges and values of the CSRs (R50, R53, R82 to R86, R97, R185, R186,
R196, R197, R201, R209, R214 to R216, R223, R266 to R269, R315, R316, R340 to R343, R370, R371, R389, R405, R412, R414, R418,
R430). Write-only fields read 0.
-/
namespace Sys2Proof.Machine
open Sys2Proof

/-- A word from fields: value and lowest bit. -/
def fields (l : List (Nat × Nat)) : Word := BitVec.ofNat 32 (l.foldl (fun a f => a + f.1 * 2 ^ f.2) 0)
def bit (b : Bool) : Nat := if b then 1 else 0

/-- Handle by which a task's die knows its launch, and its flight (R82, R431). -/
def taskInfo (s : State) (k : Nat) : Word :=
  match (s.core k).task with
  | none => 0
  | some t =>
    let h := ((tfind s.launches t.launch).bind (fun l => tfind l.parts (coreDie k))).map (·.handle)
    fields [(h.getD 0, 8), (t.flight % 8, 0)]

def Core.femask (c : Core) : Word := (c.regs.full ||| 1).zeroExtend 32
def Core.qcount0 (c : Core) : Word := fields ((List.range 4).map (fun n => ((c.regs.q[n]?.getD []).length, 8 * n)))
def Core.qcount1 (c : Core) : Word := fields ((List.range 3).map (fun n => ((c.regs.q[n + 4]?.getD []).length, 8 * n)))
def Core.lstat (c : Core) : Word := fields [(bit c.loop0.active, 0), (bit c.loop1.active, 1)]
def Core.rankId (c : Core) : Word :=
  match c.rank with
  | some r => fields [(1, 31), (r, 0)]
  | none => 0
def Core.upStat (c : Core) : Word := fields [(bit c.up.en, 1), (bit c.up.inH, 0)]
def Core.impCause (c : Core) : Word :=
  match c.tr.imp with
  | [] => 0
  | r :: _ => fields [(1, 31), (min c.tr.imp.length 255, 16), (r.cause, 0)]
/-- Stash window length in bytes (R370). -/
def Core.stlen (c : Core) : Nat := Config.sramBytes - (256 + 128 * c.cache) * 1024

/-- Core CSRs, 0x000 to 0x0FF (R82 to R86). -/
def coreCsr (s : State) (k n : Nat) : Option Word :=
  let c := s.core k
  match n with
  | 0x000 => some (fields [(s.corePart k, 10), (k % 1024, 0)])
  | 0x001 => some (taskInfo s k)
  | 0x002 => some c.markin
  | 0x003 => some (BitVec.ofNat 32 s.ck)
  | 0x004 => some (BitVec.ofNat 32 (s.ck / 2 ^ 32))
  | 0x005 => some c.rankId
  | 0x008 => some c.femask
  | 0x009 => some c.qcount0
  | 0x00A => some c.qcount1
  | 0x010 => some c.loop0.lc
  | 0x011 => some c.loop0.ls
  | 0x012 => some c.loop0.le
  | 0x013 => some c.loop1.lc
  | 0x014 => some c.loop1.ls
  | 0x015 => some c.loop1.le
  | 0x016 => some c.lstat
  | 0x020 => some c.up.vec
  | 0x021 => some c.up.pc
  | 0x022 => some (BitVec.ofNat 32 c.up.cause)
  | 0x023 => some c.up.addr
  | 0x024 => some c.upStat
  | 0x030 => some (BitVec.ofNat 32 c.alignlim)
  | 0x040 => some (BitVec.ofNat 32 c.cache)
  | 0x041 => some (BitVec.ofNat 32 c.group)
  | _ => none

/-- Vector CSRs, 0x100 to 0x1FF (R223). -/
def vecCsr (c : Core) (n : Nat) : Option Word :=
  match n with
  | 0x100 => some (BitVec.ofNat 32 c.vec.grant)
  | 0x101 => some c.vec.stride
  | 0x102 => some (BitVec.ofNat 32 c.vec.lim)
  | 0x103 => some (fields [(bit (c.vec.waiting.any (·.cause != 0x22)), 9), (bit (c.vec.passes != 0), 8), (c.vec.seq.length, 0)])
  | 0x104 => some (BitVec.ofNat 32 c.vec.vlcNow)
  | 0x105 => some (c.fltWord .VX)
  | 0x106 => some c.vec.flt.addr
  | 0x108 => some (fields [(bit c.vec.fuse, 0)])
  | _ => none

/-- Matrix CSRs, 0x200 to 0x2FF (R266 to R269): the running task's own, MG0 to MG9 as its issued MGEOs leave them (R265, R271). -/
def matCsr (s : State) (k n : Nat) : Option Word :=
  let m := (s.core k).mat.view
  if 0x200 ≤ n ∧ n ≤ 0x209 then (s.core k).mat.ahead[n - 0x200]?
  else match n with
  | 0x210 => some (fields [(bit m.ovf1, 1), (bit m.ovf0, 0)])
  | 0x211 => some ((s.core k).fltWord .MX)
  | 0x212 => some m.flt.addr
  | 0x213 => some (BitVec.ofNat 32 m.corr)
  | 0x214 => some m.inj
  | 0x215 => some (BitVec.ofNat 32 (m.seq % 65536))
  | 0x218 => some (s.cluster (coreClu k)).mweight
  | _ => none

/-- Gallery CSRs, 0x300 to 0x3FF (R315): a class that the issuing partition does not own reads 0. -/
def galCsr (s : State) (k n : Nat) : Option Word :=
  let c := s.core k
  let g := (s.die (coreDie k)).gclass c.gal.clsel
  let own := g.ownValid && g.ownPart == s.corePart k
  match n with
  | 0x300 => some (BitVec.ofNat 32 c.gal.clsel)
  | 0x301 => some (if own then fields [(1, 31), (g.rlim, 29), (bit g.old, 28), (g.stages, 8), (g.gen % 256, 0)] else 0)
  | 0x302 => some (c.fltWord .GL)
  | 0x303 => some (if own then BitVec.ofNat 32 g.drop else 0)
  | 0x304 => some (if own then BitVec.ofNat 32 (sat32 g.limhit) else 0)
  | _ => none

/-- Ferry CSRs, 0x400 to 0x4FF (R340 to R342), but FGEVQ, whose read pops: what the issuing partition does not own reads 0. -/
def ferCsr (s : State) (k n : Nat) : Option Word :=
  let c := s.core k
  let d := s.die (coreDie k)
  let g := d.fgroup c.fer.gsel
  let grp (w : Word) : Option Word := some (if ownsGroup s k c.fer.gsel then w else 0)
  let blk (f : FBlock → Word) : Option Word :=
    some (match s.block (coreDie k) c.fer.bsel with
      | some b => if ownsGroup s k b.group then f b else 0
      | none => 0)
  match n with
  | 0x400 => some (BitVec.ofNat 32 c.fer.gsel)
  | 0x401 => grp (fields [(1, 31), (bit g.en, 30), (bit g.mode, 29), (g.ncount, 16), (g.period, 0)])
  | 0x402 => grp g.tag
  | 0x403 => some (BitVec.ofNat 32 c.fer.nbsel)
  | 0x404 => grp (tget g.nb 0 c.fer.nbsel)
  | 0x405 => some (BitVec.ofNat 32 d.fer.ftmo)
  | 0x407 => grp (BitVec.ofNat 32 (sat32 g.evlost))
  | 0x408 => some (BitVec.ofNat 32 c.fer.bsel)
  | 0x409 => blk fun b => fields [(1, 31), (bit b.qui, 30), (bit b.held.isSome, 29), (bit b.leave.isSome, 28), (b.group, 20), (b.boff, 14)]
  | 0x40A => blk fun b => BitVec.ofNat 32 b.pend
  | 0x40B => blk fun b => BitVec.ofNat 32 (b.pend / 2 ^ 32)
  | 0x40C => blk fun b => BitVec.ofNat 32 b.unc
  | 0x40D => blk fun b => BitVec.ofNat 32 (b.unc / 2 ^ 32)
  | 0x40E => blk fun b => BitVec.ofNat 32 b.gain
  | 0x40F => blk fun b => BitVec.ofNat 32 (b.gain / 2 ^ 32)
  | 0x410 => blk fun b => BitVec.ofNat 32 b.round
  | 0x411 => some (c.fltWord .PS)
  | 0x412 => some d.fer.finj
  | _ => none

/-- Memory CSRs, 0x500 to 0x5FF (R370). -/
def memCsr (c : Core) (n : Nat) : Option Word :=
  match n with
  | 0x500 => some (BitVec.ofNat 32 c.masid)
  | 0x501 => some c.stbase
  | 0x502 => some (BitVec.ofNat 32 c.stlen)
  | 0x503 => some (c.fltWord .CP)
  | 0x504 => some c.cpy.flt.addr
  | 0x505 => some c.cpy.crc
  | _ => none

def Core.isHalted (c : Core) : Bool :=
  match c.run with
  | .debug _ => true
  | _ => false

/-- Debug, trace and latency CSRs, 0x600 to 0x73F (R209, R214 to R216), but for DBGPC, DBGDATA and DBGMDATA. -/
def dbgCsr (c : Core) (n : Nat) : Option Word :=
  let d := c.dbg
  if 0x608 ≤ n ∧ n ≤ 0x60B then d.pa[n - 0x608]?
  else if 0x700 ≤ n ∧ n ≤ 0x73F then some (tget d.dlat 0 (n - 0x700))
  else match n with
  | 0x600 => some (fields [(d.reason, 8), (if c.isHalted then 2 else bit d.haltReq, 4), (bit d.step, 3), (bit d.arm, 0)])
  | 0x602 => some (fields [(bit (match (regsFrom 0 24)[d.sel]? with
      | some r => c.regs.isFull r
      | none => false), 31), (d.sel, 0)])
  | 0x60C => d.wa[0]?
  | 0x60D => d.wa[1]?
  | 0x610 => some d.maddr
  | 0x612 => some (fields [(bit d.icinv.isSome, 0)])
  | 0x620 => some (BitVec.ofNat 32 d.tracectl)
  | 0x630 => some (fields [(bit d.dlatctl, 0)])
  | 0x640 => some (fields [(bit d.sckEn, 0)])
  | 0x641 => some d.sckLo
  | 0x642 => some d.sckHi
  | _ => none

/-- BASIN (R197). -/
def Basin.word (b : Basin) : Word :=
  fields [(bit b.fenced, 31), (bit b.valid, 29), (b.rowhi, 11), (b.rowlo, 8), (b.colhi, 4), (b.collo, 0)]

/-- Supervisor CSRs, 0x800 to 0xBFF, but for RANKSET and BBDATA (R97, R185, R196, R197, R201, R371, R389, R405, R414, R418). -/
def supCsr (s : State) (k n : Nat) : Option Word :=
  let c := s.core k
  let r := c.sup
  let imp := c.tr.imp.head?
  let p := s.part (s.corePart k)
  let q := tget s.queues {} r.wqsel
  let g := tget p.ranges {} r.prsel
  let b := tget p.berths {} r.berthsel
  match n with
  | 0x800 => some c.tr.vec
  | 0x801 => some c.tr.pc
  | 0x802 => some (BitVec.ofNat 32 c.tr.cause)
  | 0x803 => some c.tr.addr
  | 0x804 => some c.tr.detail
  | 0x805 => some (fields [(bit c.tr.fromSup, 2), (bit c.tr.re, 1), (bit c.tr.double, 0)])
  | 0x806 => some c.tr.scr
  | 0x810 => some c.impCause
  | 0x811 => some ((imp.map (·.pc)).getD 0xFFFFFFFF)
  | 0x812 => some ((imp.map (·.addr)).getD 0)
  | 0x813 => some ((imp.map (·.src)).getD 0)
  | 0x814 => some 0
  | 0x880 => some (BitVec.ofNat 32 r.wqsel)
  | 0x881 => some q.base
  | 0x882 => some q.taila
  | 0x883 => some q.heada
  | 0x884 => some (fields [(q.asid, 16), (bit q.err, 8), (bit q.en, 7), (q.prio, 4), (q.log, 0)])
  | 0x890 => some (BitVec.ofNat 32 r.presel)
  | 0x891 => some r.prearea
  | 0x892 => some (fields [(r.preReason, 4), (r.preStatus, 2)])
  | 0x8C0 => some (BitVec.ofNat 32 r.basinsel)
  | 0x8C1 => some (tget (s.die (coreDie k)).basins {} r.basinsel).word
  | 0x8D0 => some c.stdef
  | 0x8D4 => some (BitVec.ofNat 32 r.asidsel)
  | 0x8D5 => some (tget s.ms.asidPt 0 r.asidsel)
  | 0x8D6 => some p.rankbase
  | 0x8D7 => some (BitVec.ofNat 32 p.ranklog)
  | 0x8D8 => some 0
  | 0x8D9 => some (BitVec.ofNat 32 r.ranksel)
  | 0x8DC => some (BitVec.ofNat 32 r.berthsel)
  | 0x8DD => some b.base
  | 0x8DE => some (BitVec.ofNat 32 b.log)
  | 0x8E0 => some (BitVec.ofNat 32 r.tiersel)
  | 0x8E1 => some (BitVec.ofNat 32 (p.soft.getD r.tiersel 0))
  | 0x8E2 => some (BitVec.ofNat 32 (p.hard.getD r.tiersel 0))
  | 0x8E3 => some (BitVec.ofNat 32 (occupancy s (s.corePart k) r.tiersel))
  | 0x8E4 => some (BitVec.ofNat 32 (p.tgrant.getD r.tiersel 0))
  | 0x8E5 => some (fields [(bit g.valid, 31), (r.prsel, 0)])
  | 0x8E6 => some g.lo
  | 0x8E7 => some g.hi
  | 0x8E8 => some p.storqBase
  | 0x8E9 => some p.storqCtl
  | 0x8F0 => some r.fckaddr
  | 0x8F1 => some (fields [(r.fckStatus, 29), (r.fckReason, 26), (r.fckblock, 0)])
  | 0x8F2 => some r.fckcrc
  | 0x8F8 => some p.polAddr
  | 0x8F9 => some (fields [(p.polStatus, 29), (p.polReason, 24), (p.polSeq, 0)])
  | 0x8FC => some (BitVec.ofNat 32 r.bbidx)
  | _ => none

/-- Service CSRs, 0xC00 to 0xFFF, of a die (R316, R343, R371, R412, R418, R430). -/
def svcCsr (s : State) (die n : Nat) : Option Word :=
  let d := s.die die
  let p := s.part d.partsel
  let gr := tget (s.part (wf d.pgsel 0 6)).ranges {} (wf d.pgsel 8 4)
  if 0xC10 ≤ n ∧ n ≤ 0xC17 then p.tkeyh[n - 0xC10]?
  else if 0xC40 ≤ n ∧ n ≤ 0xC47 then
    let g := d.gclass (n - 0xC40)
    some (fields [(bit g.ownValid, 31), (g.ownRsv, 22), (g.ownPart, 16), (g.stgmask, 0)])
  else if 0xC48 ≤ n ∧ n ≤ 0xC4F then some (d.gclass (n - 0xC48)).cwin
  else if 0xC68 ≤ n ∧ n ≤ 0xC6A then some (BitVec.ofNat 32 ((s.part (wf d.pgsel 0 6)).tgrant.getD (n - 0xC68) 0))
  else match n with
  | 0xC00 => some d.svctgt
  | 0xC01 => some d.bootstat
  | 0xC02 => some d.bistctl
  | 0xC03 => some d.bistres
  | 0xC04 => some d.remapCtl
  | 0xC08 => some (BitVec.ofNat 32 d.partsel)
  | 0xC09 => some (fields [(bit p.valid, 31), (bit p.debug, 30), (p.netasid, 0)])
  | 0xC0A => some (BitVec.ofNat 32 d.clusel)
  | 0xC0B => some (match (s.cluster d.clusel).part with
      | some o => fields [(1, 31), (o, 0)]
      | none => 0)
  | 0xC30 => some (BitVec.ofNat 32 s.pwrlim)
  | 0xC31 => some (fields [(s.clockStep, 16), (s.pwrstat, 0)])
  | 0xC32 => some (BitVec.ofNat 32 d.tjmax)
  | 0xC50 => some (BitVec.ofNat 32 d.fer.ownsel)
  | 0xC51 =>
    let g := d.fgroup d.fer.ownsel
    some (fields [(bit g.ownValid, 31), (g.ownPart, 16)])
  | 0xC52 => some d.fer.fid
  | 0xC60 => some (BitVec.ofNat 32 d.hallsel)
  | 0xC61 => some (BitVec.ofNat 32 (tget (s.part d.hallsel).hallways 0 die))
  | 0xC62 => some s.ms.rmapbase
  | 0xC64 => some d.pgsel
  | 0xC65 => some gr.lo
  | 0xC66 => some gr.hi
  | 0xC67 => some (fields [(bit gr.valid, 31)])
  | 0xC70 => some (fields [(bit s.viral, 1), (bit s.viralEn, 0)])
  | _ => none

/-- The value of a CSR that a read does not change. -/
def csrImage (s : State) (k n : Nat) : Option Word :=
  match n / 256 with
  | 0 => coreCsr s k n
  | 1 => vecCsr (s.core k) n
  | 2 => matCsr s k n
  | 3 => galCsr s k n
  | 4 => ferCsr s k n
  | 5 => memCsr (s.core k) n
  | 6 | 7 => dbgCsr (s.core k) n
  | 8 | 9 | 10 | 11 => supCsr s k n
  | _ => svcCsr s (coreDie k) n

/-! Reads. -/

/-- A read of a CSR: its value and the state it leaves, a trap, or a wait. -/
inductive CsrVal where
  | ok (w : Word) (s : State) | trap (cause : Nat) (detail addr : Word) | wait

/-- A value the spec leaves open. -/
def freeRead (s : State) : CsrVal := .ok (Config.freeWord s.fresh) { s with fresh := s.fresh + 1 }

/-- A read of DBGMDATA is a load at DBGMADDR (R209), by core k. -/
def readDbgmdata (k : Nat) (s : State) : CsrVal :=
  let c := s.core k
  let va := c.dbg.maddr.toNat
  if va % 4 ≠ 0 then .trap 0x04 0 c.dbg.maddr
  else match translate s (coreDie k) c.masid va .load with
  | (.bad cause detail, _) => .trap cause detail c.dbg.maddr
  | (.ok pa _, s) =>
    if s.ms.owned (pa / 64) then .wait
    else
      let r := readMove s k (s.core k).pc ((List.range 4).map (fun i => (va + i, pa + i)))
      .ok (wordOf r.1) (consume r.2.2 k (s.core k).pc r.2.1)

/-- Sealed black-box entries of a partition on a die, oldest first (R428). -/
def Die.sealed (d : Die) (p : Nat) : List TRec := d.bbox.filter (fun e => wf (e.getD 0 0) 16 12 == p)

/-- A read of BBDATA gives the next word of the selected entry, 0 past the last (R418). -/
def readBbdata (k : Nat) (s : State) : Word × State :=
  let r := (s.core k).sup
  let p := s.corePart k
  let w := match ((s.die (coreDie k)).sealed p)[r.bbidx]? with
    | some e => if p < Config.partitions then e.getD r.bbword 0 else 0
    | none => 0
  (w, s.updCore k (fun c => { c with sup := { c.sup with bbword := c.sup.bbword + 1 } }))

/-- The register that DBGSEL names. -/
def Core.dbgReg (c : Core) : Option XReg := (regsFrom 0 24)[c.dbg.sel]?

/-- A CSR that the table of some chapter assigns (R50). -/
def csrAssigned (s : State) (k n : Nat) : Bool :=
  (csrImage s k n).isSome || [0x406, 0x601, 0x603, 0x611, 0x8DA, 0x8FD].contains n

/-- Read of CSR n of core k, or of a service CSR of its die (R50, R161): DBGPC and DBGDATA hold a value only while the core is
halted (log 34). -/
def csrRead (k n : Nat) (s : State) : CsrVal :=
  let c := s.core k
  match n with
  | 0x406 => let r := readFgevq s k; .ok r.1 r.2
  | 0x601 => if c.isHalted then .ok c.pc s else freeRead s
  | 0x603 =>
    match c.dbgReg with
    | some r => if c.isHalted then .ok (c.regs.get r) s else freeRead s
    | none => freeRead s
  | 0x611 => readDbgmdata k s
  | 0x8DA => let r := rankEntry s (coreDie k) (s.corePart k) c.sup.ranksel; .ok (r.1.getD 0) r.2
  | 0x8FD => let r := readBbdata k s; .ok r.1 r.2
  | _ => match csrImage s k n with
    | some w => .ok w s
    | none => .trap 0x01 0 0

/-! Privilege. -/

def Priv.le : Priv → Priv → Bool
  | .task, _ => true
  | .supervisor, .task => false
  | .supervisor, _ => true
  | .service, .service => true
  | .service, _ => false

/-- Floor of a CSR's range (R53). -/
def csrFloor (n : Nat) : Priv :=
  if n < 0x600 then .task else if n < 0x700 then .supervisor else if n < 0x800 then .task else if n < 0xC00 then .supervisor
  else .service

/-- CSRs of task ranges that only the supervisor writes (R82, R215, R223, R266, R340). -/
def csrSupWrite (n : Nat) : Bool :=
  [0x040, 0x041, 0x102, 0x105, 0x108, 0x218, 0x401, 0x402, 0x404, 0x405].contains n || (0x700 ≤ n && n ≤ 0x73F)

/-- Lowest privilege of an access (R50, R53). -/
def csrNeed (n : Nat) (write : Bool) : Priv := if write && csrSupWrite n then .supervisor else csrFloor n

/-- The owner of a core's partition permits external debug (R209, R418); a core of no partition has no owner to ask. -/
def State.debugAdmits (s : State) (k : Nat) : Bool := Config.partitions ≤ s.corePart k || (s.part (s.corePart k)).debug

/-- The core whose CSR an access reaches (R53): a service access to 0x000 to 0xBFF goes to the core of SVCTGT, none while EN = 0. -/
def csrTarget (s : State) (k n : Nat) : Option Nat :=
  if (s.core k).priv != Priv.service || 0xC00 ≤ n then some k
  else
    let t := (s.die (coreDie k)).svctgt
    if t.getLsbD 31 then some (wf t 0 10) else none

end Sys2Proof.Machine
end

