-- ==== Sys2Proof/Machine/Preempt.lean ====
section
/-!
DEFINITION. Sys2Proof/Machine/Preempt.lean: pre-emption, save and restore (R201 to R207, R236, R283), supervisor notices (R371,
R384), imprecise records (R196), and what basins and a lost die end (R197 to R200).
-/
namespace Sys2Proof.Machine
open Sys2Proof

/-! Regions of whole pages: the bytes of a region that a save writes. -/

/-- Memory cut down to one page: what a party reads there is unchanged. -/
def MemSys.onPage (ms : MemSys) (page : Nat) : MemSys :=
  { ms with hist := ms.hist.filter (fun e => e.addr / 65536 == page), mem := ms.mem.filter (fun c => c.1 / 65536 == page) }

/-- Bytes written at P at consecutive offsets from an address, with D of their page (R376); no event where every party reads that byte
already. -/
def MemSys.fillRun (ms : MemSys) (o : Party) (pa len : Nat) (f : Nat → Byte) : MemSys :=
  let w := ms.onPage (pa / 65536)
  let changed := (List.range len).filter (fun i => w.hist.any (fun e => e.addr == pa + i) || memRead w.mem (pa + i) != f i)
  (ms.append (changed.map (fun i => (pa + i, f i))) .P o none).setDirty (pa / 65536)

/-- A party reads the given bytes there. -/
def MemSys.holds (ms : MemSys) (r : Party) (pa len : Nat) (f : Nat → Byte) : Bool :=
  let w := ms.onPage (pa / 65536)
  (List.range len).all (fun i => w.byteAt r (pa + i) == f i)

/-- Physical addresses of consecutive pages from a virtual address, or none. -/
def pagesAt (s : State) (die asid : Nat) (kind : AccKind) (va n : Nat) : Option (List Nat × State) :=
  match translateRun s die asid kind ((List.range n).map (fun i => (va + 65536 * i) % 2 ^ 32)) [] with
  | (.inl pas, s) => some (pas, s)
  | (.inr _, _) => none

/-- Byte i of a list of words by index. -/
def byteOfWord (f : Nat → Word) (i : Nat) : Byte := (wordBytes (f (i / 4))).getD (i % 4) 0

/-! Images (R203, R204, R236, R283). -/

/-- The live access whose first destination is xn. -/
def Core.accessOf (c : Core) (n : Nat) : Option Access :=
  c.acc.find? (fun a => !a.dead && a.d == (match (regsFrom 0 24)[n]? with
    | some r => .x r
    | none => .q7) && n != 0)

def Access.isReceive (a : Access) : Bool :=
  match a.op with
  | .recv _ | .recvb _ => a.st == .issued
  | _ => false

/-- Place of a pending receive among the core's, from 1 (R204). -/
def Core.receivePlace (c : Core) (n : Nat) : Nat :=
  ((c.acc.filter (fun a => !a.dead && a.isReceive)).findIdx (fun a => dstNum a.d == n)) + 1

/-- Word j of the access record of xn (R203). -/
def Core.accessWord (c : Core) (n j : Nat) : Word :=
  match c.accessOf n with
  | none => 0
  | some a => match j with
    | 0 => match a.op, a.st with
      | .recvb _, .recorded _ addr _ => addr
      | .recvb _, .rearmed _ _ va => BitVec.ofNat 32 va
      | _, _ => a.addr
    | 1 => a.instr
    | 2 => a.b
    | 3 => a.expected
    | 4 => match a.st with
      | .recorded cause _ _ => BitVec.ofNat 32 cause
      | _ => 0
    | 5 => if a.isReceive then BitVec.ofNat 32 (c.receivePlace n) else 0
    | _ => 0

def Core.causeMap (c : Core) : Word :=
  fields ((List.range 23).filterMap (fun i => if (c.accessOf (i + 1)).isSome then some (1, i + 1) else none))

/-- Word i of the save area of core k's context (R157, R203), but the two that the supervisor wrote and the check word. -/
def areaWord (s : State) (k : Nat) (i : Nat) : Word :=
  let c := s.core k
  if i < 23 then c.regs.x[i + 1]?.getD 0
  else if 64 ≤ i ∧ i < 176 then ((c.regs.q[(i - 64) / 16]?.getD []).getD ((i - 64) % 16) {}).w
  else if 192 ≤ i ∧ i < 376 then c.accessWord ((i - 192) / 8 + 1) ((i - 192) % 8)
  else match i with
  | 23 => c.femask
  | 24 => c.loop0.lc
  | 25 => c.loop0.ls
  | 26 => c.loop0.le
  | 27 => c.loop1.lc
  | 28 => c.loop1.ls
  | 29 => c.loop1.le
  | 30 => c.lstat
  | 31 => c.up.pc
  | 32 => c.pc
  | 33 => c.up.vec
  | 34 => c.upStat
  | 35 => BitVec.ofNat 32 c.alignlim
  | 36 => taskInfo s k
  | 37 => c.markin
  | 38 => c.qcount0
  | 39 => c.qcount1
  | 40 => c.causeMap
  | 41 => c.regs.poison.zeroExtend 32
  | 42 => c.impCause
  | 43 => c.stbase
  | 44 => c.rankId
  | _ => 0

/-- Element word of a matrix array: 512 i + j. -/
def matWord (m : Mat) (i : Nat) : Word := (m.getD (i / 512) []).getD (i % 512) 0

/-- Word i of the engine region (R236, R283); sequencer entries and check vectors have the device's own form. -/
def engineWord (c : Core) (seed i : Nat) : Word :=
  let v := c.vec
  let m := c.mat.view
  if i = 0 then BitVec.ofNat 32 v.grant
  else if i = 1 then v.stride
  else if i = 2 then BitVec.ofNat 32 v.vlcNow
  else if i = 3 then c.fltWord .VX
  else if i = 4 then v.flt.addr
  else if i = 5 then (vecCsr c 0x103).getD 0
  else if 0x40 ≤ i ∧ i < 0xC0 then Config.freeWord (seed + i)
  else if 0x100 ≤ i ∧ i < 0x1100 then ((v.v[(i - 0x100) / 256]?.getD []).getD ((i - 0x100) % 256) {}).w
  else if 0x1100 ≤ i ∧ i < 0x110A then m.mg[i - 0x1100]?.getD 0
  else if i = 0x110A then fields [(bit m.ovf1, 1), (bit m.ovf0, 0)]
  else if i = 0x110B then c.fltWord .MX
  else if i = 0x110C then m.flt.addr
  else if i = 0x110D then BitVec.ofNat 32 m.corr
  else if i = 0x110E then m.inj
  else if i = 0x110F then BitVec.ofNat 32 (m.seq % 65536)
  else if i = 0x1110 then fields [(m.acc1.count % 65536, 16), (m.acc0.count % 65536, 0)]
  else if 0x1140 ≤ i ∧ i < 0x1180 then
    fields [(m.idx.getD (2 * (i - 0x1140) + 1) 0, 16), (m.idx.getD (2 * (i - 0x1140)) 0, 0)]
  else if 0x1180 ≤ i ∧ i < 0x1200 then
    let r := m.la.getD (i - 0x1180) []
    fields ((List.range 4).map (fun b => (r.getD b 0 % 256, 8 * b)))
  else if 0x1200 ≤ i ∧ i < 0x1400 then
    let r := m.lb.getD (i - 0x1200) []
    fields ((List.range 4).map (fun b => (r.getD b 0 % 256, 8 * b)))
  else if 0x1400 ≤ i ∧ i < 0x3200 then Config.freeWord (seed + i)
  else if 0x4000 ≤ i ∧ i < 0x14000 then matWord m.acc0.el (i - 0x4000)
  else if 0x14000 ≤ i ∧ i < 0x24000 then matWord m.acc1.el (i - 0x14000)
  else if 0x24000 ≤ i then matWord (m.pp.getD ((i - 0x24000) / 0x10000) []) ((i - 0x24000) % 0x10000)
  else 0

/-- Pages of the engine region (R283). -/
def enginePages : Nat := 25

/-- Pages of the image region (R203). -/
def imagePages : Nat := 50

/-- Byte i of the image region, in the device's own form (R203): free values from a number on. -/
def imageByte (seed i : Nat) : Byte := byteOfWord (fun j => Config.freeWord (seed + 0x64000 + j)) i

/-- The engine and image regions of a saved context, as the save writes them and a restore finds them (R203, R236, R283). -/
def regionBytes (ctx : Core) (seed : Nat) (engine : Bool) (i : Nat) : Byte := if engine then byteOfWord (engineWord ctx seed) i else imageByte seed i

/-! Save. -/

/-- The core that PRESEL names lies in the partition of core k (R201). -/
def preTarget (s : State) (k : Nat) : Option Nat :=
  let t := (s.core k).sup.presel
  if s.corePart t = s.corePart k then some t else none

def setPre (s : State) (k status reason : Nat) : State :=
  s.updCore k (fun c => { c with sup := { c.sup with preStatus := status, preReason := reason } })

/-- A write of PRECTL.SAVE by core k (R201, R202): the addresses at 0x7F0 and 0x7F8 are read as the core's own reads. -/
def writeSave (k : Nat) (s : State) : CsrOut :=
  match preTarget s k with
  | none => .trap 0x06 0 0
  | some t =>
    let c := s.core k
    let area := c.sup.prearea
    if (s.core t).task.isNone then .ok (setPre s k 3 7)
    else if (s.core t).fenced then .ok (setPre s k 3 2)
    else if (s.core t).saveReq.isSome then .ok (setPre s k 3 1)
    else match translateRun s (coreDie k) c.masid .load (vaRange (area.toNat + 0x7F0) 16) [] with
    | (.inr (cause, detail, va), _) => .trap cause detail (BitVec.ofNat 32 va)
    | (.inl pas, s) =>
      match readBytes s k c.pc (area.toNat + 0x7F0) pas with
      | none => .wait
      | some (bs, _, s) =>
        let w := wordsOf 4 bs
        .ok ((setPre s k 1 0).updCore t (fun x => { x with
          saveReq := some ⟨k, area, c.masid, w.getD 0 0, w.getD 2 0⟩, woken := true }))

/-- PRECTL_SAVE (R202). -/
def execPrectlSave (k : Nat) (s : State) : Out := (writeSave k s).out k 0x892 s

/-- An access that holds a save back (R202): no pending receive, recorded or rearmed access does. -/
def Access.holdsSave (a : Access) : Bool :=
  !a.dead && match a.op, a.st with
  | _, .recorded _ _ _ | _, .rearmed _ _ _ => false
  | .recv _, .issued | .recvb _, .issued => false
  | _, _ => true

/-- The target has come to where its context can be saved (R202, R236). -/
def Core.saveReady (c : Core) : Bool :=
  c.priv == .task && c.run == .running && c.tr.imp.isEmpty && c.cnt.MX == 0 && c.cnt.CP == 0 && c.cnt.gl == 0 && c.cnt.PS == 0 &&
    (c.cnt.VX == 0 || (!c.vec.dead && (c.vec.waiting.isSome || c.vec.rearmed.isSome))) && !c.acc.any (·.holdsSave) &&
    c.vec.reneg.isNone && (match c.hand with
      | some (.sent _ _ _ _) => false
      | _ => true)

/-- The context that leaves: what it had offered is not kept, nor words fetched ahead. -/
def Core.saved (c : Core) : Core :=
  { c with
    acc := c.acc.filter (fun a => !a.dead), hand := none, pops := [], handPoison := false, fbuf := [], saveReq := none,
    recvq := if c.rank.isSome then [] else c.recvq }

/-- The core is free (R202): the grant is released; the outbound queue and the causes that wait have gone with the context. -/
def Core.afterSave (c : Core) : Core :=
  { c with
    task := none, run := .idle, standing := none, pubDone := false, hand := none, pops := [], fbuf := [], saveReq := none,
    buf := [], out := [], snap := [], cnt := { LD := (c.acc.filter (·.dead)).length }, goPend := [], acc := c.acc.filter (·.dead),
    discarded := [], pageWaits := [], arrived := none, recvq := [], rank := none,
    regs := { c.regs with q := Vector.replicate 7 [], held := [] },
    loop0 := { c.loop0 with active := false }, loop1 := { c.loop1 with active := false },
    notices := [], emptySince := none,
    vec := { c.vec.emptied with grant := 0, v := Vector.replicate 16 [] },
    mat := { c.mat with waiting := none, rearmed := none }, cpy := { c.cpy with waiting := none, rearmed := none },
    gal := { c.gal with slots := [], waiting := none, rearmed := none }, fer := { c.fer with waiting := none, rearmed := none } }

/-- SAVE_COMPLETE (R202 to R205): the context of core k, whose SAVE was asked for, is written to its area, engine region and
image region; a fenced core's save is refused (R207). -/
def execSaveComplete (k : Nat) (s : State) : Out :=
  let c := s.core k
  match c.saveReq with
  | none => .next s
  | some r =>
    if c.fenced ∨ c.task.isNone then
      .next ((setPre s r.asker 3 (if c.fenced then 2 else 7)).updCore k (fun c => { c with saveReq := none }))
    else if !c.saveReady then .next s
    else match pagesAt s (coreDie k) r.asid .store r.area.toNat 1 with
    | none => .next s
    | some (area, s) =>
      match pagesAt s (coreDie k) r.asid .store r.engine.toNat enginePages, pagesAt s (coreDie k) r.asid .store r.image.toNat imagePages with
      | some (engine, _), some (image, s) =>
        let base := area.getD 0 0
        let key := image.getD 0 0
        if (List.range 32).any (fun i => s.ms.owned (base / 64 + i)) ∨
            (engine ++ image).any (fun p => (List.range 1024).any (fun i => s.ms.owned (p / 64 + i))) ∨
            (tfind s.saved key).any (fun x => !x.ctx.out.isEmpty) then .next s
        else
          let seed := s.fresh
          let check := Config.checkWord seed
          let words (i : Nat) : Word := if i = 511 then check else areaWord s k i
          let s := s.updMs (fun m =>
            let m := m.fillRun (.core k) base 0x7F0 (byteOfWord words)
            let m := m.fillRun (.core k) (base + 0x7F4) 4 (fun _ => 0)
            let m := m.fillRun (.core k) (base + 0x7FC) 4 (fun i => byteOfWord words (0x7FC + i))
            let region (m : MemSys) (pas : List Nat) (e : Bool) : MemSys := (List.range pas.length).foldl (fun m p =>
              m.fillRun (.core k) (pas.getD p 0) 65536 (fun i => regionBytes c seed e (65536 * p + i))) m
            region (region m engine true) image false)
          let s := { s with
            fresh := seed + 0x12C000,
            saved := tset s.saved key { ctx := c.saved, core := k, check, seed } }
          let msgs := (c.recvq.map (·.2)).flatten
          let s := match c.rank with
            | some rank => s.updPart (s.corePart k) (fun p =>
                let b := tget p.berths {} rank
                { p with berths := tset p.berths rank { b with msgs := msgs ++ b.msgs } })
            | none => s
          .next (setPre ((s.bankLanes k).updCore k Core.afterSave) r.asker 2 0)
      | _, _ => .next s

/-! Restore. -/

/-- What an instruction word of an access record does. -/
def accOpOf (w : Word) : Option AccOp :=
  match decodeWord w with
  | .error _ => none
  | .ok i => match i with
    | .ldb _ _ _ => some (.load 1 true)
    | .ldbn _ _ _ => some (.load 1 false)
    | .ldh _ _ _ => some (.load 2 true)
    | .ldhn _ _ _ => some (.load 2 false)
    | .ldw _ _ _ => some (.load 4 false)
    | .swp _ _ _ o sc => some (.atomic .swp o sc)
    | .aadd _ _ _ o sc => some (.atomic .add o sc)
    | .aand _ _ _ o sc => some (.atomic .and o sc)
    | .aor _ _ _ o sc => some (.atomic .or o sc)
    | .axor _ _ _ o sc => some (.atomic .xor o sc)
    | .amin _ _ _ o sc => some (.atomic .min o sc)
    | .amax _ _ _ o sc => some (.atomic .max o sc)
    | .aminn _ _ _ o sc => some (.atomic .minn o sc)
    | .amaxn _ _ _ o sc => some (.atomic .maxn o sc)
    | .cas _ _ _ so fo sc => some (.cas so fo sc)
    | _ => none

/-- The access of a record of xn (R203, R204, R206): a cause keeps it recorded, no cause issues it afresh. -/
def recordAccess (ctx : Core) (w : Nat → Word) (n : XReg) : Option (Nat × Access) :=
  let g (j : Nat) : Word := w (192 + 8 * (n.val - 1) + j)
  let old := ctx.accessOf n.val
  let ch := (g 0).toNat / 2 ^ 24 % 16
  let recv := match decodeWord (g 1) with
    | .ok (.recv _ _) => some (AccOp.recv ch, 8)
    | .ok (.recvb _ _ _) => some (if g 5 ≠ 0 then AccOp.recvb ch else (old.map (·.op)).getD (.recvb ch), 1)
    | _ => none
  let op := match accOpOf (g 1) with
    | some o => some (o, 1)
    | none => recv
  op.map (fun o =>
    let cause := (g 4).toNat % 256
    let st : AccSt :=
      if cause ≠ 0 then .recorded cause (g 0) ((old.bind (fun a => match a.st with
        | .recorded _ _ d => some d
        | _ => none)).getD 0)
      else if g 5 ≠ 0 then .issued else .rearmed 0 true (g 0).toNat
    let addr := match o.1 with
      | .recvb _ => if g 5 ≠ 0 then g 0 else (old.map (·.addr)).getD (g 0)
      | _ => g 0
    ((g 5).toNat, {
      op := o.1, d := .x n, nregs := o.2, addr, old := (old.map (·.old)).getD [], b := g 2, expected := g 3, instr := g 1, st,
      bPoison := (old.map (·.bPoison)).getD false, pc := (old.map (·.pc)).getD 0, asid := ctx.masid, launch := ctx.launch }))

/-- Pending receives with d = x0, which no record names, with their places: the image region carries them (R203, R204). -/
def Core.plainReceives (c : Core) : List (Nat × Access) :=
  (((c.acc.filter (fun a => !a.dead && a.isReceive)).zipIdx).filter (fun a => a.1.d == .x 0)).map (fun a => (a.2 + 1, a.1))

/-- The accesses of an area: those without a place first, then the pending receives in their order. -/
def recordAccesses (ctx : Core) (w : Nat → Word) : List Access :=
  let rs := (regsFrom 1 23).filterMap (fun n => if (w 40).getLsbD n.val then recordAccess ctx w n else none) ++ ctx.plainReceives
  (rs.mergeSort (fun a b => a.1 ≤ b.1)).map (·.2)

/-- The core after a restore of a context with the words of its area (R206): the target keeps its identity and its supervisor's
registers. -/
def Core.restored (ctx t : Core) (w : Nat → Word) (ck : Nat) : Core :=
  let q (n : Nat) : List PWord :=
    let len := min (wf (w (38 + n / 4)) (8 * (n % 4)) 8) 16
    (List.range len).map (fun i => ⟨w (64 + 16 * n + i), ((ctx.regs.q[n]?.getD []).getD i {}).poison⟩)
  let acc := recordAccesses ctx w
  let ld := acc.countP (fun a => match a.st with
    | .rearmed _ _ _ => true
    | _ => false)
  let same := w 32 = ctx.pc
  { t with
    regs := {
      x := Vector.ofFn (fun (i : Fin 24) => if i.val = 0 then 0 else w (i.val - 1)),
      full := (w 23).truncate 24 ||| 1, poison := (w 41).truncate 24 &&& ~~~1,
      q := Vector.ofFn (fun (i : Fin 7) => q i.val), held := ctx.regs.held },
    pc := w 32, priv := .task, run := .running,
    standing := if same then ctx.standing else none, pubDone := same && ctx.pubDone, waitSince := ck, woken := false, freed := false,
    loop0 := ⟨w 24, w 25, w 26, (w 30).getLsbD 0⟩, loop1 := ⟨w 27, w 28, w 29, (w 30).getLsbD 1⟩,
    up := { ctx.up with pc := w 31, vec := w 33, en := (w 34).getLsbD 1, inH := (w 34).getLsbD 0 },
    alignlim := (w 35).toNat % 65536, markin := w 37, marked := ctx.marked, masid := ctx.masid, task := ctx.task, stbase := w 43,
    acc := t.acc ++ acc, buf := ctx.buf, out := t.out ++ ctx.out, snap := ctx.snap, goPend := t.goPend ++ ctx.goPend,
    cnt := { ctx.cnt with LD := t.cnt.LD + ld, ST := t.cnt.ST + ctx.cnt.ST, RM := t.cnt.RM + ctx.cnt.RM },
    notices := ctx.notices, pageWaits := ctx.pageWaits, discarded := ctx.discarded, arrived := ctx.arrived, recvq := ctx.recvq,
    vec := { ctx.vec with lim := t.vec.lim, fuse := t.vec.fuse }, mat := ctx.mat, cpy := ctx.cpy, gal := ctx.gal, fer := ctx.fer }

/-- No command of an ended task stands at the target's engines any more. -/
def Core.enginesQuiet (c : Core) : Bool :=
  c.mat.queue.isEmpty && c.cpy.queue.isEmpty && c.gal.queue.isEmpty && c.fer.queue.isEmpty && c.vec.seq.isEmpty

/-- A write of PRECTL.RESTORE by core k (R201, R206): refusals in the order of their REASON from 2. -/
def writeRestore (k : Nat) (s : State) : CsrOut :=
  match preTarget s k with
  | none => .trap 0x06 0 0
  | some t =>
    let c := s.core k
    let area := c.sup.prearea.toNat
    if (s.core t).fenced then .ok (setPre s k 3 2)
    else if !(s.core t).isFree then .ok (setPre s k 3 3)
    else if !(s.core t).enginesQuiet then .wait
    else match translateRun s (coreDie k) c.masid .load (vaRange area 2048) [] with
    | (.inr (cause, detail, va), _) => .trap cause detail (BitVec.ofNat 32 va)
    | (.inl pas, s) =>
      match readBytes s k c.pc area pas with
      | none => .wait
      | some (bs, _, s) =>
        let ws := wordsOf 512 bs
        let w (i : Nat) : Word := ws.getD i 0
        match pagesAt s (coreDie k) c.masid .load (w 510).toNat imagePages,
          pagesAt s (coreDie k) c.masid .load (w 508).toNat enginePages with
        | some (image, _), some (engine, s) =>
          match tfind s.saved (image.getD 0 0) with
          | none => .ok (setPre s k 3 4)
          | some x =>
            let whole (pas : List Nat) (e : Bool) : Bool := (List.range pas.length).all (fun p =>
              s.ms.holds (.core k) (pas.getD p 0) 65536 (fun i => regionBytes x.ctx x.seed e (65536 * p + i)))
            if x.check ≠ w 511 ∨ !(whole engine true && whole image false) then .ok (setPre s k 3 4)
            else if coreClu x.core ≠ coreClu t then .ok (setPre s k 3 5)
            else if grantFor s t x.ctx.vec.grant < x.ctx.vec.grant then .ok (setPre s k 3 6)
            else
              let s := { s with saved := terase s.saved (image.getD 0 0) }
              let s := s.updCore t (fun y => x.ctx.restored y w s.ck)
              let s := match (s.core t).launch with
                | some l => (s.assign t l).updLaunch l (fun x => { x with cores := if x.cores.contains t then x.cores else t :: x.cores })
                | none => s
              let s := if (w 44).getLsbD 31 then
                  bindRank s t (s.corePart t) (wf (w 44) 0 24) (BitVec.ofNat 32 (2 ^ 31 + s.pkg * 2 ^ 10 + t))
                else s
              .ok (setPre s k 2 0)
        | _, _ => .ok (setPre s k 3 4)

/-- PRECTL_RESTORE (R206). -/
def execPrectlRestore (k : Nat) (s : State) : Out := (writeRestore k s).out k 0x892 s

/-- A write of PRECTL (R201): SAVE before RESTORE. -/
def writePrectl (k : Nat) (v : Word) (s : State) : CsrOut :=
  if v.getLsbD 0 then writeSave k s else if v.getLsbD 1 then writeRestore k s else .ok s

/-! Notices and imprecise records. -/

/-- A write of NPUSH (R371, R384): a supervisor notice, KIND 4, to q5 of the core in PRESEL. -/
def writeNpush (k : Nat) (v : Word) (s : State) : CsrOut :=
  match preTarget s k with
  | none => .trap 0x06 0 0
  | some t => .ok (s.updCore t (·.push 5 (notice 4 0 0 (v.toNat % 65536))))

/-- NPUSH. -/
def execNpush (k : Nat) (v : Word) (s : State) : Out := (writeNpush k v s).out k 0x8D8 s

/-- A write of IMPPOP retires the oldest record (R196). -/
def popImp (k : Nat) (s : State) : State := s.updCore k (fun c => { c with tr := { c.tr with imp := c.tr.imp.drop 1 } })

/-- IMPPOP. -/
def execImppop (k : Nat) (s : State) : Out := .next (popImp k s)

/-! Basins (R197, R199). -/

/-- A core of a reset basin is idle (R199). -/
def Core.basinReset (c : Core) : Core :=
  { c with
    regs := Regs.reset, run := .idle, priv := .task, fenced := false, standing := none, pubDone := false, hand := none, pops := [],
    fbuf := [], buf := [], out := [], snap := [], goPend := [], acc := [], cnt := {}, held := [], dirty := [], recvq := [], rank := none,
    tr := { c.tr with imp := [], double := false }, saveReq := none, arrived := none, pageWaits := [], discarded := [], notices := [],
    emptySince := none, vec := { c.vec.emptied with grant := 0, v := Vector.replicate 16 [] } }

/-- RESET of a fenced basin of a die (R199). -/
def resetBasin (s : State) (die b : Nat) : State :=
  let x := tget (s.die die).basins {} b
  let s := (x.cores die).foldl (fun s k => ((replaceTask s k).bankLanes k).updCore k Core.basinReset) s
  s.updDie die (fun d => { d with basins := tset d.basins b { x with fenced := false } })

def Basin.overlaps (a b : Basin) : Bool :=
  a.valid && b.valid && a.rowlo ≤ b.rowhi && b.rowlo ≤ a.rowhi && a.collo ≤ b.colhi && b.collo ≤ a.colhi

/-- The basin's cores are all fenced: a core that was fenced outside every basin, or whose basin is no more, is reset through a basin
defined over it (R28, R199; DESIGN CHOICE, log 84). -/
def Basin.allFenced (s : State) (die : Nat) (b : Basin) : Bool := b.valid && (b.cores die).all (fun k => (s.core k).fenced)

/-- A write of BASIN by core k (R197). The conditions on the rectangle are those of a basin that is defined: a write with VALID = 0 is
refused for none of them (DESIGN CHOICE, log 84). -/
def writeBasin (k : Nat) (v : Word) (s : State) : CsrOut :=
  let die := coreDie k
  let i := (s.core k).sup.basinsel
  let d := s.die die
  let x := tget d.basins {} i
  let y : Basin := { fenced := x.fenced, valid := v.getLsbD 29, rowhi := wf v 11 3, rowlo := wf v 8 3, colhi := wf v 4 4, collo := wf v 0 4 }
  if x.fenced then
    if y ≠ x then .trap 0x06 0 0 else .ok (if v.getLsbD 30 then resetBasin s die i else s)
  else if y.valid ∧ (y.rowhi < y.rowlo ∨ y.colhi < y.collo ∨ d.basins.any (fun b => b.1 != i && b.2.overlaps y)) then .trap 0x02 0 0
  else if y.valid ∧ (y.cores die).any (fun j => s.corePart j != s.corePart k) then .trap 0x06 0 0
  else .ok (s.updDie die (fun d => { d with basins := tset d.basins i { y with fenced := y.allFenced s die } }))

/-- BASIN_DEFINE (R197). -/
def execBasinDefine (k : Nat) (v : Word) (s : State) : Out := (writeBasin k v s).out k 0x8C1 s

/-- BASIN_RESET (R199): of the basin that core k has selected, where it is fenced. -/
def execBasinReset (k : Nat) (s : State) : Out :=
  let i := (s.core k).sup.basinsel
  if (tget (s.die (coreDie k)).basins {} i).fenced then .next (resetBasin s (coreDie k) i) else .next s

/-! A lost die (R200). -/

/-- Lines homed elsewhere, the host among them, whose only modified copy stood in a core of the die: poisoned at home, with one final
event at P of bytes that are lost (R200, R404). -/
def loseDirty (s : State) (die : Nat) (line : Nat) : State :=
  if !s.ms.hostFrame (line / 1024) ∧ Config.homeDie (line / 1024) = die then s
  else
    let n := s.fresh
    { s with fresh := n + 64 }.updMs (fun m =>
      let m := m.append ((List.range 64).map (fun i => (line * 64 + i, (Config.freeWord (n + i)).truncate 8))) .P (.die die) none
      { m.poisonLine line with lostLines := if m.lostLines.contains line then m.lostLines else line :: m.lostLines })

/-- A core of a lost die: its task and what it held are gone. -/
def Core.lose (c : Core) : Core :=
  { c with
    task := none, run := .halted, standing := none, hand := none, pops := [], fbuf := [], buf := [], out := [], snap := [], goPend := [],
    acc := [], cnt := {}, held := [], dirty := [], recvq := [], rank := none, saveReq := none, arrived := none, notices := [],
    mat := { c.mat with queue := [] }, cpy := { c.cpy with queue := [], pend := [] }, gal := { c.gal with queue := [] },
    fer := { c.fer with queue := [] }, vec := { c.vec.emptied with grant := 0 } }

/-- A block of the launch that is bound to the die still has tiles to start. -/
def Launch.boundTo (x : Launch) (die : Nat) : Bool :=
  x.bound.any (fun b => unitDie ((x.levels[b.1]?.map (·.place)).getD 0) b.2.2 == die &&
    (List.range x.tiles).any (fun t => !x.started.contains t && x.blockAt b.1 (t / levelCols x.levels) (t % levelCols x.levels) == b.2.1))

/-- A launch after the loss of a die on which n of its tasks ran or were saved (R91, R105). It becomes LOST where something of it stood
on the die: a task, an item, a task to be placed again, a bound block with tiles to start, or its last die; it starts no more tiles, and
what is to be placed again is not (DESIGN CHOICE, log 81). Otherwise it goes on without the die. -/
def Launch.loseDie (x : Launch) (die n : Nat) : Launch :=
  let without (m : Nat) : Nat := if m / 2 ^ die % 2 = 1 then m - 2 ^ die else m
  let items := (tfind x.parts die).any (fun p => p.landings.any (fun q => !q.isEmpty))
  let hit := 0 < n || items || x.again.any (·.die == die) || x.boundTo die || (without x.mask == 0 && x.started.length < x.tiles)
  let y : Launch := { x with
    running := x.running - n, mask := without x.mask, pendMask := x.pendMask.map without,
    parts := x.parts.map (fun (p : Nat × DiePart) =>
      if p.1 = die then (p.1, { p.2 with landings := p.2.landings.map (fun _ => []), assigned := [] }) else p) }
  if x.done || x.refused || !hit || x.status = 4 then y else { y with status := 5, again := [] }

/-- Ranks whose cores lie on a die, as the entries of some die's ferry and the rank tables name them: partition and rank (R348). -/
def ranksAt (s : State) (die d : Nat) : List (Nat × Nat) :=
  ((s.die die).fer.groups.map (fun g => g.2.nb.filterMap (fun e =>
    if e.2.getLsbD 24 then
      match (rankEntry s die g.2.ownPart (wf e.2 0 24)).1 with
      | some w => if entryPkg w = s.pkg ∧ coreDie (entryCore w) = d then some (g.2.ownPart, wf e.2 0 24) else none
      | none => none
    else none))).flatten.eraseDups

/-- A lost die's gallery holds no record any more. -/
def Gallery.lose (g : Gallery) : Gallery :=
  { g with flight := [], cls := g.cls.map (fun (c : Nat × GClass) => (c.1, { c.2 with injq := [], exitq := [] })) }

/-- Loss of a die: launches with work there become LOST, ranks held there are dead to the ferries (R91, R200, R348). -/
def loseDie (s : State) (die : Nat) : State :=
  let ks := (s.coreNumbers.filter (fun k => coreDie k == die))
  let saved := s.saved.filter (fun x => coreDie x.2.core == die)
  let dirty := (ks.map (fun k => (s.core k).dirty.map (·.2))).flatten.eraseDups
  let s := dirty.foldl (fun s l => loseDirty s die l) s
  let s := ks.foldl (fun s k => freeSlots s (s.core k).notices) s
  let s := saved.foldl (fun s x => freeSlots s x.2.ctx.notices) s
  let s := { s with launches := s.launches.map (fun (l : Nat × Launch) => (l.1, l.2.loseDie die
    (ks.countP (fun k => (s.core k).launch == some l.1) + saved.countP (fun (x : Nat × Saved) => x.2.ctx.launch == some l.1)))) }
  let s := { s with saved := s.saved.filter (fun x => coreDie x.2.core != die) }
  let s := ks.foldl (fun s k => (s.bankLanes k).updCore k Core.lose) s
  let s := s.updMs (fun m => { m with
    own := m.own.filter (fun o => coreDie o.2.2.1 != die), tlb := m.tlb.filter (fun t => t.die != die) })
  let s := ((s.stopHeart die).updDie die (fun d => { d with lost := true, gal := d.gal.lose })).checkLink
  let s := (List.range Config.dies).foldl (fun s d =>
    if (s.die d).lost then s else (ranksAt s d die).foldl (fun s r => peerDead s d r.1 r.2) s) s
  fatal (blackBox s die 63 0x3003 (BitVec.ofNat 32 (die * 2 ^ 13)) 0)

/-- DIE_LOST (R200). -/
def execDieLost (die : Nat) (s : State) : Out :=
  if Config.dies ≤ die ∨ (s.die die).lost then .next s else .next (loseDie s die)

end Sys2Proof.Machine
end

