-- ==== Sys2Proof/Machine/Debug.lean ====
section
/-!
DEFINITION. Sys2Proof/Machine/Debug.lean: the debug module (R209 to R213) and the trace encoder's drain (R214, R318).
-/
namespace Sys2Proof.Machine
open Sys2Proof

/-- HALTREQ reaches a core (R210): it halts at its instruction boundary, which is at once but for a message that has left; what it
stood in starts afresh at the resume. A core without a task, and one that HALT has stopped, halts too (R159, R208). -/
def haltNow (s : State) (k : Nat) : State :=
  let c := s.core k
  let out := match c.hand with
    | some (.sent _ _ _ _) => true
    | _ => false
  if !c.isHalted && !out && !(s.die (coreDie k)).lost then s.setCore k (c.leave.haltDebug s.ck 1) else s

/-- HALTREQ: STATE reads halting until the core halts. -/
def haltReq (s : State) (k : Nat) : State :=
  if (s.core k).isHalted then s else haltNow (s.updCore k (fun c => { c with dbg := { c.dbg with haltReq := true } })) k

/-- A request of an external debugger, which the service core admits only with the permission of the core's owner (R209). -/
def debugRequest (s : State) (k : Nat) (t : State) : State := if s.debugAdmits k then t else s

/-- DBG_HALTREQ (R209, R210). -/
def execDbgHaltreq (k : Nat) (s : State) : Out := .next (debugRequest s k (haltReq s k))

/-- RESUMEREQ (R159, R210, R213): the fetch buffer is invalidated and a core that debug or HALT has stopped goes on at DBGPC; one
without a task, at task level, is free. -/
def resumeReq (s : State) (k : Nat) : State :=
  if ((s.core k).isHalted || (s.core k).run == .halted) && !(s.die (coreDie k)).lost then
    s.updCore k (fun c => { c with
      run := if c.task.isNone && c.priv == .task && !c.fenced then .idle else .running, fbuf := [],
      dbg := { c.dbg with stepping := c.dbg.step && c.dbg.arm } })
  else s

/-- DBG_RESUMEREQ. -/
def execDbgResumereq (k : Nat) (s : State) : Out := .next (debugRequest s k (resumeReq s k))

/-- A write of DBGCTL (R209): ARM and STEP, then the requests. -/
def writeDbgctl (k : Nat) (v : Word) (s : State) : State :=
  let s := s.updCore k (fun c => { c with dbg := { c.dbg with arm := v.getLsbD 0, step := v.getLsbD 3 } })
  let s := if v.getLsbD 1 then haltReq s k else s
  if v.getLsbD 2 then resumeReq s k else s

/-- A write of DBGDATA (R209): it makes the register full; ignored while the core runs. -/
def writeDbgdata (k : Nat) (v : Word) (s : State) : State :=
  match (s.core k).dbgReg with
  | some r => if (s.core k).isHalted then s.updCore k (fun c => { c with regs := c.regs.put r v false }) else s
  | none => s

/-- DBGDATA_WRITE. -/
def execDbgdataWrite (k : Nat) (v : Word) (s : State) : Out := .next (debugRequest s k (writeDbgdata k v s))

/-- What a read's move of its own leaves: the state, or the trap it takes. -/
def CsrVal.out (k csr : Nat) (s : State) : CsrVal → Out
  | .ok _ t => .next t
  | .trap cause detail addr => (CsrOut.trap cause detail addr).out k csr s
  | .wait => .next s

/-- DBGMDATA_READ (R209). -/
def execDbgmdataRead (k : Nat) (s : State) : Out := if s.debugAdmits k then (readDbgmdata k s).out k 0x611 s else .next s

/-- Publish(P) and drain as one (R169); none while a read or a landing must wait. -/
def publishDrain (s : State) (k : Nat) : Option State :=
  (performReads s k).bind (fun s =>
    let s := s.updCore k (·.seal .P)
    landAll ((s.core k).out.length + 1) s k)

/-- A write of DBGMDATA (R209): a store, Publish(P) and drain. -/
def writeDbgmdata (k : Nat) (v : Word) (s : State) : CsrOut :=
  let c := s.core k
  let va := c.dbg.maddr
  if va.toNat % 4 ≠ 0 then .trap 0x04 0 va
  else match translate s (coreDie k) c.masid va.toNat .store with
  | (.bad cause detail, _) => .trap cause detail va
  | (.ok pa host, s) =>
    if s.ms.owned (pa / 64) then .wait
    else match publishDrain (s.updCore k (fun c => (c.buffer va.toNat pa host (wordBytes v) false false).touch va.toNat pa)) k with
    | some s => .ok s
    | none => .wait

/-- DBGMDATA_WRITE. -/
def execDbgmdataWrite (k : Nat) (v : Word) (s : State) : Out :=
  if s.debugAdmits k then (writeDbgmdata k v s).out k 0x611 s else .next s

/-- A write of DBGICINV (R212): Publish(P) and drain, then the invalidation is under way. It waits for an earlier one. -/
def writeDbgicinv (k : Nat) (v : Word) (s : State) : CsrOut :=
  if (s.core k).dbg.icinv.isSome then .wait
  else match publishDrain s k with
  | some s => .ok (s.updCore k (fun c => { c with dbg := { c.dbg with icinv := some v } }))
  | none => .wait

/-- DBGICINV_WRITE. -/
def execDbgicinvWrite (k : Nat) (v : Word) (s : State) : Out :=
  if s.debugAdmits k then (writeDbgicinv k v s).out k 0x612 s else .next s

/-- DBGICINV_COMPLETE (R212): every cluster of the partition has invalidated the line, and every fetch buffer its words. -/
def execDbgicinvComplete (k : Nat) (s : State) : Out :=
  match (s.core k).dbg.icinv with
  | none => .next s
  | some a =>
    let line := a.toNat / 64
    let p := s.corePart k
    let s := { s with
      clusters := s.clusters.map (fun (c : Nat × Cluster) =>
        if c.2.part.getD 63 = p then (c.1, { c.2 with icache := c.2.icache.filter (fun l => l.2.1 != line) }) else c),
      cores := s.cores.map (fun (c : Nat × Core) =>
        if s.corePart c.1 = p then (c.1, { c.2 with fbuf := c.2.fbuf.filter (fun w => w.1 / 64 != line) }) else c) }
    .next (s.updCore k (fun c => { c with dbg := { c.dbg with icinv := none } }))

/-- TRACE_DRAIN (R214, R318): the encoder's oldest record enters class 0 of its die, where
it has room, as telemetry of kind trace. -/
def execTraceDrain (k : Nat) (s : State) : Out :=
  match (s.core k).dbg.trace with
  | [] => .next s
  | r :: rest =>
    if ((s.die (coreDie k)).inject0 []).isNone then .next s
    else .next (telemetry (s.updCore k (fun c => { c with dbg := { c.dbg with trace := rest } })) (coreDie k) 1 (s.corePart k) r.code k
      r.words)

end Sys2Proof.Machine
end

