-- ==== Sys2Proof/Machine/Accept.lean ====
section
/-!
DEFINITION. Sys2Proof/Machine/Accept.lean: acceptance, reads and completion of the engines' commands (R32, R172, R175, R176).
-/
namespace Sys2Proof.Machine
open Sys2Proof

/-- ENGINE_ACCEPT (R32, R172): the engine takes the command that core k offers, after the drain, where it has room. -/
def execEngineAccept (k : Nat) (s : State) : Out :=
  match (s.core k).hand with
  | some (.cmd .VX _) | some (.loop _ _ _) => .next (vecAccept s k)
  | some (.cmd .MX q) => .next (matAccept s k q)
  | some (.cmd .GL q) => .next (galAccept s k q)
  | some (.cmd .PS q) => .next (ferAccept s k q)
  | some (.cmd .CP q) => .next (cpyAccept s k q)
  | _ => .next s

/-- ENGINE_READ (R175): the engine's command for core k that stands at its turn reads its operand bytes, or takes its lines. -/
def execEngineRead (k : Nat) (e : Engine) (s : State) : Out :=
  match e with
  | .MX => .next (matRead s k)
  | .VX => .next (vecRead s k)
  | .CP => .next (cpyRead s k)
  | .GL => .next (galRead s k)
  | .PS => .next (ferRead s k)

/-- ENGINE_COMPLETE (R176): the engine's command for core k completes: its writes are events at P, its result enters its queue or
register, its counter falls. -/
def execEngineComplete (k : Nat) (e : Engine) (s : State) : Out :=
  match e with
  | .MX => .next (matComplete s k)
  | .VX => .next (vecComplete s k)
  | .CP => .next (cpyComplete s k)
  | .GL => .next (galComplete s k)
  | .PS => .next (ferComplete s k)

end Sys2Proof.Machine
end

