-- ==== Sys2Proof/Machine/Edge.lean ====
section
/-!
DEFINITION. Sys2Proof/Machine/Edge.lean: the quay fabric (R406 to R411) and the host link (R402 to R404).
-/
namespace Sys2Proof.Machine
open Sys2Proof

/-! The quay fabric. -/

def State.peer (s : State) (p : Nat) : Peer := tget s.peers {} p
def State.updPeer (s : State) (p : Nat) (f : Peer → Peer) : State := { s with peers := tset s.peers p (f (s.peer p)) }

/-- The end-to-end acknowledgement of a delivered packet (R409): 0 taken, 1 the berth is full, 2 the rank is not reached. A
package in viral state sends none (R412). -/
def acknowledge (s : State) (src seq ans : Nat) : State :=
  if s.viral then s else s.updPeer src (fun p => { p with acks := (seq, ans) :: p.acks })

/-- Delivery of a packet to a network interface or a ferry (R408): a rank that has moved is reached through this package's own
table, and one that has left the package is forwarded (R389). -/
def deliverPacket (s : State) (pk : Packet) : State :=
  let ack (a : Nat) (s : State) : State := acknowledge s pk.src pk.seq a
  match pk.body with
  | .message core rank words bulk =>
    match rankEntry s (coreDie core) (s.corePart core) rank with
    | (none, s) => ack 2 s
    | (some w, s) =>
      if entryPkg w = s.pkg then
        if (s.core (entryCore w)).fenced then ack 2 s
        else match acceptMsg s (s.corePart core) rank { words, bulk } with
        | some s => ack 0 s
        | none => ack 1 s
      else match sendPacket s (entryPkg w) (.message (entryCore w) rank words bulk) with
      | some (_, s) => ack 0 s
      | none => ack 1 s
  | .half core rank tag key seq round fid bind mass v poison =>
    match rankEntry s (coreDie core) (s.corePart core) rank with
    | (none, s) =>
      ack 0 (replyHalf s (coreDie core) { tag, key, seq, round, fid, bind, mass, v, poison } false)
    | (some w, s) =>
      if entryPkg w = s.pkg then
        ack 0 (s.updFerry (coreDie (entryCore w)) (fun f => { f with
          transit := f.transit ++ [.half { tag, key, seq, round, fid, bind, mass, v, poison }] }))
      else ack 0 (ferryPacket s (coreDie core) (entryPkg w) (.half (entryCore w) rank tag key seq round fid bind mass v poison))
  | .reply fid bind seq ok =>
    ack 0 (s.updFerry (fid.toNat % 8) (fun f => { f with transit := f.transit ++ [.reply bind seq ok] }))

/-- Held packets of a source that are next in sequence are delivered (R408). -/
def deliverHeld (src : Nat) : Nat → State → State
  | 0, s => s
  | n + 1, s =>
    let p := s.peer src
    match p.heldPk.find? (fun k => k.seq == p.expect) with
    | none => s
    | some pk =>
      let s := s.updPeer src (fun p => { p with heldPk := p.heldPk.erase pk, expect := (p.expect + 1) % 2 ^ 32 })
      deliverHeld src n (deliverPacket s pk)

/-- QUAY_PACKET_ARRIVAL (R408, R409): delivered in ascending sequence, or held for a gap; a repeat is acknowledged again; one too
far ahead is discarded. -/
def execQuayPacketArrival (p : Packet) (s : State) : Out :=
  let q := s.peer p.src
  let d := (p.seq % 2 ^ 32 + 2 ^ 32 - q.expect) % 2 ^ 32
  if 2 ^ 31 ≤ d then
    match q.acks.find? (fun a => a.1 == p.seq) with
    | some a => .next (acknowledge s p.src p.seq a.2)
    | none => .next s
  else if 4096 ≤ d ∨ q.heldPk.any (fun k => k.seq == p.seq) then .next s
  else .next (deliverHeld p.src 4097 (s.updPeer p.src (fun x => { x with heldPk := x.heldPk ++ [p] })))

/-- A send of core k that left as a packet is answered: done, BERTH_FULL or CHANNEL (R147, R180). -/
def answerSend (s : State) (k rank ch ans : Nat) : State :=
  if ans = 0 then finishOffer s k id else raiseOffer s k (if ans = 1 then 0x0B else 0x0A) (handOperand rank ch) 0

/-- Sends of cores that wait for a packet's answer. -/
def answerCores (s : State) (p seq ans : Nat) : State :=
  (s.cores.map (·.1)).foldl (fun s k => match (s.core k).hand with
    | some (.sent pkg n rank ch) => if pkg = p ∧ n = seq then answerSend s k rank ch ans else s
    | _ => s) s

/-- Gallery records that wait for a packet's answer at the head of an exit buffer (R309, R310). -/
def answerGalleries (s : State) (p seq ans : Nat) : State :=
  (List.range Config.dies).foldl (fun s d => (List.range 8).foldl (fun s c =>
    match ((s.die d).gclass c).exitq with
    | r :: rest =>
      if r.sent = some (p, seq) then
        endRecord (s.updClass d c (fun g => { g with exitq := rest })) d r (if ans = 0 then 1 else if ans = 1 then 6 else 4)
      else s
    | [] => s) s) s

/-- Packets that wait in a die's ferry leave as far as there is room (R408). -/
def flushFerry (s : State) (die : Nat) : State :=
  (s.die die).fer.outq.foldl (fun s p => ferryPacket s die p.1 p.2) (s.updFerry die (fun f => { f with outq := [] }))

/-- E2E_ACK_ARRIVAL (R409): the copy of a packet is dropped and its place freed, with what waited for the answer. -/
def execE2eAckArrival (peer seq ans : Nat) (s : State) : Out :=
  if !(s.peer peer).unacked.any (fun u => u.1.seq == seq) then .next s
  else
    let s := s.updPeer peer (fun p => { p with unacked := p.unacked.filter (fun u => u.1.seq != seq), lastAck := s.ck })
    let s := answerGalleries (answerCores s peer seq ans) peer seq ans
    .next ((List.range Config.dies).foldl flushFerry s)

/-- PACKET_RETRANSMIT_TIMEOUT (R409): sent again when no acknowledgement came within 2^18 ck. -/
def execPacketRetransmitTimeout (peer seq : Nat) (s : State) : Out :=
  let late (u : Packet × Nat) : Bool := u.1.seq == seq && u.2 + 2 ^ 18 ≤ s.ck
  if s.viral ∨ !(s.peer peer).unacked.any late then .next s
  else .next ((s.updPeer peer (fun p => { p with
    unacked := p.unacked.map (fun u => if late u then (u.1, s.ck) else u) })).tally 0 0x601 0 1)

/-- The die of the package's quay link n, and the link's number there: five links on each of dies 0 to 3, four on each of dies 4 to 7
(R14), numbered through in the dies' order (DESIGN CHOICE, log 63). -/
def linkPlace (n : Nat) : Nat × Nat := if n < 20 then (n / 5, n % 5) else (4 + (n - 20) / 4, (n - 20) % 4)

/-- The package's number of a die's quay link. -/
def linkNumber (die i : Nat) : Nat := if die < 4 then 5 * die + i else 20 + 4 * (die - 4) + i

/-- Quay links of a die (R14). -/
def dieLinks (die : Nat) : Nat := if die < 4 then 5 else 4

/-- LINK_REMOVED (R410): link n of the package leaves the adaptive tables. -/
def execLinkRemoved (n : Nat) (s : State) : Out :=
  if Config.quayLinks ≤ n ∨ !tget s.links true n then .next s
  else
    let l := linkPlace n
    let s := telemetry { s with links := tset s.links n false } l.1 2 63 0x2103 (Config.cores + l.1) [BitVec.ofNat 32 n]
    .next (blackBox s l.1 63 0x3004 (unitWord l.1 11 l.2) 0)

/-- LINK_RETURN (R410): only the service core returns a link to use. -/
def execLinkReturn (n : Nat) (s : State) : Out :=
  if Config.quayLinks ≤ n then .next s else .next { s with links := tset s.links n true }

/-- Ranks that entries of a die's ferry name and that lie on a package: partition and rank. -/
def ranksOn (s : State) (die peer : Nat) : List (Nat × Nat) :=
  ((s.die die).fer.groups.map (fun g => g.2.nb.filterMap (fun e =>
    if e.2.getLsbD 24 then
      match (rankEntry s die g.2.ownPart (wf e.2 0 24)).1 with
      | some w => if entryPkg w = peer then some (g.2.ownPart, wf e.2 0 24) else none
      | none => none
    else none))).flatten.eraseDups

/-- PACKAGE_LOST (R411): nothing sent to a package was acknowledged for 2^24 ck: what is queued for it goes, sends to it take
CHANNEL, ferry entries that name its ranks take DEAD. -/
def execPackageLost (peer : Nat) (s : State) : Out :=
  let p := s.peer peer
  if p.lost ∨ p.unacked.isEmpty ∨ s.ck < p.lastAck + 2 ^ 24 then .next s
  else
    let seqs := p.unacked.map (·.1.seq)
    let s := s.updPeer peer (fun p => { p with lost := true, unacked := [] })
    let s := seqs.foldl (fun s n => answerGalleries (answerCores s peer n 2) peer n 2) s
    let s := (List.range Config.dies).foldl (fun s d =>
      let s := s.updFerry d (fun f => { f with outq := f.outq.filter (·.1 != peer) })
      (ranksOn s d peer).foldl (fun s r => peerDead s d r.1 r.2) s) s
    .next (blackBox s 0 63 0x3005 (unitWord 0 14 0) (BitVec.ofNat 32 peer))

/-! The host link (R402 to R404). -/

/-- Bytes of data carried on the link enter its count (R318, log 68). -/
def State.carried (s : State) (n : Nat) : State := s.count 0 0x602 0 n

/-- An answer on the link; none once the link is lost (R404). -/
def answer (s : State) (msg : String) (line : Nat) (data : List Byte) : State :=
  if s.skovazDead then s else { s with answers := (msg, line, data) :: s.answers }.carried data.length

/-- Bytes of a line with its latest events, whatever their scope: what a modified line holds. -/
def MemSys.latest (ms : MemSys) (line : Nat) : List Byte :=
  (List.range 64).map (fun i => match ms.hist.find? (fun e => e.addr == line * 64 + i) with
    | some e => e.byte
    | none => memRead ms.mem (line * 64 + i))

/-- The device holds a line modified (R403): an event narrower than H stands in its history. -/
def MemSys.modified (ms : MemSys) (line : Nat) : Bool := ms.hist.any (fun e => e.addr / 64 == line)

/-- Answer to a snoop (R402, R412): a modified line is forwarded, with `fwd`; another one is answered with `clean` or with
RspIHitI, as a copy is held or not, which the model leaves free. -/
def snoop (s : State) (line : Nat) (fwd clean : String) : State :=
  let p := s.linePoison line || s.viral
  if s.ms.modified line then
    answer s ((if s.viral then "RspIFwdM" else fwd) ++ (if p then " poisoned" else "")) line (s.ms.latest line)
  else if s.viral then answer s "RspIHitI" line []
  else
    answer { s with fresh := s.fresh + 1 } (if (Config.freeWord s.fresh).getLsbD 0 then clean else "RspIHitI") line []

/-- A host store's bytes enter the histories as events at H with the host as origin (R403). -/
def hostStore (s : State) (ws : List (Nat × Byte)) : State := (s.updMs (·.append ws .H .host none)).carried ws.length

def lineBytes (line : Nat) (data : List Byte) : List (Nat × Byte) :=
  (List.range (min data.length 64)).map (fun i => (line * 64 + i, data.getD i 0))

/-- SNP_INV (R403): the line leaves the device, and the host's store enters its history. -/
def execSnpInv (line : Nat) (data : List Byte) (s : State) : Out :=
  if s.skovazDead ∨ s.ms.owned line then .next s
  else
    let s := hostStore (snoop s line "RspIFwdM" "RspIHitSE") (lineBytes line data)
    .next { s with cores := s.cores.map (fun (c : Nat × Core) =>
      (c.1, { c.2 with dirty := c.2.dirty.filter (fun l => l.2 != line) })) }

/-- SNP_DATA (R402). -/
def execSnpData (line : Nat) (s : State) : Out :=
  if s.skovazDead then .next s else .next (snoop s line "RspSFwdM" "RspSHitSE")

/-- SNP_CUR (R402): the current value, with no change of the device's copy. -/
def execSnpCur (line : Nat) (s : State) : Out :=
  if s.skovazDead then .next s else .next (snoop s line "RspSFwdM" "RspSHitSE")

/-- The oldest landing at H that waits for the host: of core k, or of a context saved on it. -/
def Core.goDone (c : Core) : Core :=
  match c.goPend with
  | [] => c
  | p :: r =>
    { c with goPend := r, cnt := if p.remote then { c.cnt with RM := c.cnt.RM - 1 } else { c.cnt with ST := c.cnt.ST - 1 } }

/-- The host's completion of core k's oldest landing at H (R403): ST or RM falls; with an error its line is poisoned (R402). A remote
store's acknowledgement counts (R215). -/
def hostGo (s : State) (k : Nat) (err : Bool) : State :=
  let bad (c : Core) (s : State) : State := match c.goPend with
    | p :: _ =>
      let s := if err then s.updMs (·.poisonLine p.line) else s
      if p.remote then s.latencyAny k p.asid p.va p.issuedAt else s
    | [] => s
  if s.skovazDead then s
  else if !(s.core k).goPend.isEmpty then (bad (s.core k) s).updCore k Core.goDone
  else match s.saved.find? (fun x => x.2.core == k && !x.2.ctx.goPend.isEmpty) with
  | some (i, x) =>
    let s := bad x.ctx s
    { s with saved := tset s.saved i { x with ctx := x.ctx.goDone } }
  | none => s

/-- The data of core k's oldest landing at H goes to the host. -/
def pullData (s : State) (k : Nat) : State :=
  match (s.core k).goPend with
  | p :: _ => answer s "Data" p.line (s.ms.bytesAt .host (p.line * 64) 64)
  | [] => s

/-- GO (R403). -/
def execGo (k : Nat) (s : State) : Out := .next (hostGo s k false)

/-- GO_WRITE_PULL (R402): the data is pulled and the landing completes. -/
def execGoWritePull (k : Nat) (s : State) : Out := .next (hostGo (pullData s k) k false)

/-- WRITE_PULL (R402): the data is pulled; the completion is still to come. -/
def execWritePull (k : Nat) (s : State) : Out := .next (pullData s k)

/-- GO_ERR (R402): completion with an error; the request's data is poisoned (R194). -/
def execGoErr (k : Nat) (s : State) : Out := .next (hostGo s k true)

/-- MEM_RD (R402, R403): the latest event visible to the host. -/
def execMemRd (line : Nat) (s : State) : Out :=
  .next (answer s (if s.linePoison line then "MemData poisoned" else "MemData") line (s.ms.bytesAt .host (line * 64) 64))

/-- MEM_WR (R402, R403): a store of the host; WQ_TAIL_STORE follows on a tail line. -/
def execMemWr (line : Nat) (data : List Byte) (s : State) : Out :=
  if s.skovazDead ∨ s.ms.owned line then .next s
  else .next (answer (hostStore s (lineBytes line data)) "Cmp" line [])

/-- MEM_WR_PTL (R402, R403): the bytes whose mask bit is set. -/
def execMemWrPtl (line mask : Nat) (data : List Byte) (s : State) : Out :=
  if s.skovazDead ∨ s.ms.owned line then .next s
  else .next (answer (hostStore s ((lineBytes line data).filter (fun w => mask / 2 ^ (w.1 % 64) % 2 == 1))) "Cmp" line [])

/-- M2S_REFUSED (R402): answered without effect, and recorded as fault detail with its opcode and address (R318). -/
def execM2sRefused (req : M2SRequest) (rd : Bool) (s : State) : Out :=
  if s.skovazDead then .next s
  else .next (telemetry (answer s (if rd then "MemData poisoned" else "Cmp") (req.addr / 64) []) 0 2 63 0x2102 Config.cores
    [BitVec.ofNat 32 req.op, BitVec.ofNat 32 req.addr, BitVec.ofNat 32 (req.addr / 2 ^ 32)])

/-- SKOVAZ_LINK_LOST (R404): both halves, those of dies 0 and 4, fail, and the device answers nothing further. -/
def execSkovazLinkLost (s : State) : Out :=
  if s.skovazDead then .next s
  else .next (blackBox (blackBox { s with skovazDead := true } 0 63 0x3004 (unitWord 0 12 0) 0) 4 63 0x3004 (unitWord 4 12 0) 0)

end Sys2Proof.Machine
end

