-- ==== Sys2Proof/Machine/Service.lean ====
section
/-!
DEFINITION. Sys2Proof/Machine/Service.lean: boot and recovery (R420 to R422), self-test (R423), the spare cluster (R424),
partitions (R418, R419), disclosure policies (R425, R426), the black box (R427, R428), power and heat (R429), errors (R194, R412).
-/
namespace Sys2Proof.Machine
open Sys2Proof

/-! Boot. -/

/-- An image is accepted (R420): its signature, under the root key or an enrolled owner key, and its version. -/
def accepted (fw : Firmware) (img : Image) : Bool :=
  (Config.signatureVerifies img.name || fw.ownerKeys.any (Config.ownerVerifies img.name)) && fw.rollback ≤ img.version

/-- The image that die 0 chooses, its number in BOOTSTAT and the reason (R421), `i3c` being a recovery request over I3C at reset. The
recovery image is accepted like any other (R422). -/
def chooseImage (fw : Firmware) (i3c : Bool) : Option Image × Nat × Nat :=
  if fw.strapRecovery || i3c then (fw.recovery.filter (accepted fw), 2, 1)
  else match fw.slotA.filter (accepted fw), fw.slotB.filter (accepted fw) with
  | some a, some b => if a.version < b.version then (some b, 1, 0) else (some a, 0, 0)
  | some a, none => (some a, 0, 0)
  | none, some b => (some b, 1, 0)
  | none, none => (fw.recovery.filter (accepted fw), 2, 2)

/-- POWER_ON_RESET (R421): everything but flash, fuses and straps is at its reset value; an image is chosen, its minimum version
raises the rollback counter, the dies of the mask come through verification and self-test, every ferry gets its identity (R343),
and a leader is elected. -/
def execPowerOnReset (up : PowerUp) (s : State) : Out :=
  let c := chooseImage s.fw up.i3c
  let refused := [s.fw.slotA, s.fw.slotB].filter (fun i => i.any (fun i => !accepted s.fw i))
  let t : State := { State.reset with
    sched := s.sched, fresh := s.fresh, pkg := s.pkg, exported := s.exported, withheld := s.withheld, answers := s.answers,
    fw := { s.fw with booted := c.1.isSome, rollback := max s.fw.rollback ((c.1.map (·.minVersion)).getD 0) } }
  let t := (List.range Config.dies).foldl (fun t d => t.updDie d (fun x => { x with
    bootstat := fields [(c.2.2, 8), (c.2.1, 0)], bboxFlash := (s.die d).bboxFlash,
    fer := { x.fer with fid := BitVec.ofNat 32 (s.pkg * 8 + d) },
    failed := c.1.isNone || up.pass / 2 ^ d % 2 == 0 })) t
  let t := (List.range Config.dies).foldl (fun t d => blackBox t d 63 0x3001 (unitWord d 14 0) 0) t
  let t := refused.foldl (fun t _ => blackBox t 0 63 0x3007 (unitWord 0 14 0) 0) t
  let t := t.checkLink
  .next ((elect t).getD t)

/-- The recovery image runs (R422). -/
def State.inRecovery (s : State) : Bool := s.fw.booted && wf (s.die 0).bootstat 0 2 == 2

/-- RECOVERY_IMAGE_LOAD (R422): a new image for slot A (false) or B (true), accepted like any other. -/
def execRecoveryImageLoad (slot : Bool) (img : Image) (s : State) : Out :=
  if !s.inRecovery then .next s
  else if accepted s.fw img then
    .next { s with fw := if slot then { s.fw with slotB := some img } else { s.fw with slotA := some img } }
  else .next (blackBox s 0 63 0x3007 (unitWord 0 14 0) 0)

/-- RECOVERY_KEY_ENROL (R422): with the physical-presence strap, into one of four fuse entries. -/
def execRecoveryKeyEnrol (hash : Nat) (present : Bool) (s : State) : Out :=
  if s.inRecovery && present && s.fw.ownerKeys.length < 4 then
    .next { s with fw := { s.fw with ownerKeys := s.fw.ownerKeys ++ [hash] } }
  else .next s

/-! Self-test. -/

/-- A unit out of use (R423): a cluster with no task, a quay link that is removed, an LPDDR-6 group with no mapped frame (log 35:
no page of the package in that tier). -/
def outOfUse (s : State) (die kind index : Nat) : Bool :=
  let idle (c : Nat) : Bool := (List.range 8).all (fun n => (s.core ((die * 16 + c) * 8 + n)).task.isNone)
  match kind with
  | 0 => index < 128 && idle (index / 8)
  | 1 | 2 | 3 | 4 => index < 16 && idle index
  | 11 => index < dieLinks die && !tget s.links true (linkNumber die index)
  | 13 => (List.range Config.partitions).all (fun p => occupancy s p 1 == 0)
  | _ => false

/-- The end of a self-test: its record, and the record as telemetry of kind health (R423, R318). -/
def testRecord (s : State) (die : Nat) (w : Word) : State :=
  telemetry (s.updDie die (fun d => { d with bistres := w, bistctl := d.bistctl &&& 0xBFFFFFFF })) die 4 63 0x4001 (Config.cores + die) [w]

/-- A write of BISTCTL (R418, R423): GO starts a test of a unit that is out of use, or writes RESULT 3. -/
def writeBistctl (die : Nat) (v : Word) (s : State) : CsrOut :=
  let kind := wf v 8 5
  let index := wf v 0 8
  if (s.die die).bistctl.getLsbD 30 then .wait
  else
    let s := s.updDie die (fun d => { d with bistctl := v &&& 0x00001FFF })
    if !v.getLsbD 31 then .ok s
    else if outOfUse s die kind index then .ok (s.updDie die (fun d => { d with bistctl := d.bistctl ||| 0x40000000 }))
    else .ok (testRecord s die (fields [(die, 29), (kind, 24), (index, 16), (3, 0)]))

/-- BISTCTL_GO (R423). -/
def execBistctlGo (die : Nat) (v : Word) (s : State) : Out := (writeBistctl die v s).out (Config.cores + die) 0xC02 s

/-- BIST_COMPLETE (R423): the test that runs ends with TEST and RESULT 0 to 2 of `res`. -/
def execBistComplete (die : Nat) (res : Word) (s : State) : Out :=
  let c := (s.die die).bistctl
  if !c.getLsbD 30 ∨ 2 < wf res 0 8 then .next s
  else .next (testRecord s die (fields [(die, 29), (wf c 8 5, 24), (wf c 0 8, 16), (wf res 0 16, 0)]))

/-! The spare cluster (R424). -/

/-- Saved and restored on the spare (R202, R206): what it had offered is offered afresh, rearmed accesses go on afresh, messages of
its queues stand at the head of the rank's berth. -/
def remapCore (s : State) (k : Nat) : State :=
  let c := s.core k
  if c.task.isNone then s
  else
    let msgs : List Msg := (c.recvq.map (fun (q : Nat × List Msg) => q.2)).flatten
    let s := match c.rank with
      | some rank => s.updPart (s.corePart k) (fun p =>
          let b := tget p.berths {} rank
          { p with berths := tset p.berths rank { b with msgs := msgs ++ b.msgs } })
      | none => s
    let fresh (a : Access) : Access := match a.st with
      | .rearmed _ _ va => { a with st := .rearmed 0 true va }
      | _ => a
    s.setCore k ({ c with
      hand := none, pops := [], handPoison := false, fbuf := [], waitSince := s.ck, freed := false,
      recvq := (if c.rank.isSome then [] else c.recvq), held := [], dirty := [], acc := c.acc.map fresh } : Core)

/-- A write of REMAP (R418, R424): with GO, the logical cluster moves to the die's spare once its tasks can be saved, or is
refused. -/
def writeRemap (die : Nat) (v : Word) (s : State) : CsrOut :=
  let d := s.die die
  let n := wf v 0 4
  let put (s : State) (status : Nat) : State := s.updDie die (fun d => { d with remapCtl := fields [(status, 29), (n, 0)] })
  if !v.getLsbD 31 then .ok (put s (wf d.remapCtl 29 2))
  else if d.spareUsed ∨ d.spareBad then .ok (put s 3)
  else
    let c := die * 16 + n
    let ks := (List.range 8).map (fun i => c * 8 + i)
    let quiet (k : Nat) : Bool := (s.core k).saveReady || ((s.core k).task.isNone && (s.core k).enginesQuiet)
    if !ks.all quiet then .wait
    else
      let s := ks.foldl remapCore s
      let s := s.updCluster c (fun x => { x with icache := [] })
      .ok (put (s.updDie die (fun d => { d with spareUsed := true })) 2)

/-- REMAP_GO (R424). -/
def execRemapGo (die : Nat) (v : Word) (s : State) : Out := (writeRemap die v s).out (Config.cores + die) 0xC04 s

/-! Partitions (R418, R419). -/

/-- Cores of a partition's clusters that the package lists. -/
def State.partCores (s : State) (p : Nat) : List Nat := s.coreNumbers.filter (fun k => s.corePart k == p)

/-- Dissolution has to wait (R316, R343, R419): a task, what an ended one
has still in flight, a saved task, a record in a class, a bound block. -/
def dissolving (s : State) (p : Nat) : Bool :=
  (s.partCores p).any (fun k => (s.core k).task.isSome || !(s.core k).out.isEmpty || !(s.core k).enginesQuiet) || s.saved.any (fun x => s.corePart x.2.core == p) ||
    (List.range Config.dies).any (fun d =>
      (List.range 8).any (fun c => ((s.die d).gclass c).ownValid && ((s.die d).gclass c).ownPart == p && classBusy s d c) ||
      (s.die d).fer.groups.any (fun g => g.2.ownValid && g.2.ownPart == p && !(s.groupBlocks d g.1).isEmpty))

/-- The frame of an address lies in a partition's granted ranges. -/
def Partition.hasByte (p : Partition) (a : Nat) : Bool := p.grants (a / 65536)

/-- Dissolution (R419): local SRAM, gallery classes and ferry groups, the granted frames, keys; translations of the partition's
address spaces go with it. -/
def dissolve (s : State) (p : Nat) : State :=
  let x := s.part p
  let asids := (s.ms.asidPart.filter (fun a => a.2 == p)).map (·.1)
  let s := (s.partCores p).foldl (fun s k => s.updCore k (fun c => { c with held := [], dirty := [], snap := [] })) s
  let s := (List.range Config.dies).foldl (fun s d =>
    let s := (List.range 8).foldl (fun s c =>
      if ((s.die d).gclass c).ownValid && ((s.die d).gclass c).ownPart == p then
        match writeGown d c 0 s with
        | .ok s => s
        | _ => s
      else s) s
    s.updDie d (fun d => { d with
      fer := { d.fer with groups := d.fer.groups.filter (fun g => !(g.2.ownValid && g.2.ownPart == p)) },
      bbox := d.bbox.filter (fun e => wf (e.getD 0 0) 16 12 != p), bboxFlash := d.bboxFlash.filter (fun e => wf (e.getD 0 0) 16 12 != p) })) s
  let s := s.updMs (fun m => { m with
    mem := m.mem.filter (fun c => !x.hasByte c.1), hist := m.hist.filter (fun e => !x.hasByte e.addr),
    poison := m.poison.filter (fun l => !x.hasByte (l * 64)),
    tlb := m.tlb.filter (fun t => !asids.contains t.asid), asidPt := m.asidPt.filter (fun a => !asids.contains a.1),
    asidPart := m.asidPart.filter (fun a => a.2 != p) })
  let s := { s with queues := s.queues.filter (fun q => q.2.part != some p) }
  s.updPart p (fun _ => {})

/-- A write of PARTCTL (R418, R419): VALID = 1 needs a tenant key hash and gives the partition the address space of its berths and rank
tables, unless that is another partition's (R27); VALID = 0 dissolves the partition once it may. A package has the partitions 0 to 47
(R25): another number traps RESERVED_FIELD (DESIGN CHOICE, log 86). -/
def writePartctl (die : Nat) (v : Word) (s : State) : CsrOut :=
  let p := (s.die die).partsel
  let x := s.part p
  let owner := tget s.ms.asidPart 63 (wf v 0 16)
  if v.getLsbD 31 then
    if Config.partitions ≤ p then .trap 0x02 0 0
    else if owner ≠ p ∧ owner < Config.partitions then .trap 0x06 0 0
    else if x.tkeyh.all (· == 0) then .wait
    else .ok ((s.updMs (fun m => { m with asidPart := tset m.asidPart (wf v 0 16) p })).updPart p (fun x => { x with valid := true, debug := v.getLsbD 30, netasid := wf v 0 16, sealKey := true }))
  else if !x.valid then .ok (s.updPart p (fun x => { x with debug := v.getLsbD 30, netasid := wf v 0 16 }))
  else if dissolving s p then .wait
  else .ok ((dissolve s p).updPart p (fun x => { x with debug := v.getLsbD 30, netasid := wf v 0 16 }))

/-- PARTCTL_WRITE. -/
def execPartctlWrite (die : Nat) (v : Word) (s : State) : Out := (writePartctl die v s).out (Config.cores + die) 0xC09 s

/-- The basins of a die that take in a core of a cluster. -/
def basinsOver (s : State) (c : Nat) : List Nat :=
  ((s.die (c / 16)).basins.filter (fun b => (b.2.cores (c / 16)).any (fun k => k / 8 == c))).map (·.1)

/-- A write of CLUPART (R419): only for a cluster that holds no task and no grant. What its cores counted is their old owner's (R318).
The ranks its interfaces cached are those of the old owner's table (R389). No basin spans partitions (R28): a basin over a cluster that changes hands is undefined again (DESIGN CHOICE, log 84). A partition
number from 48 traps RESERVED_FIELD (R25; DESIGN CHOICE, log 86). -/
def writeClupart (die : Nat) (v : Word) (s : State) : CsrOut :=
  let c := (s.die die).clusel
  let ks := (List.range 8).map (fun n => c * 8 + n)
  let idle (k : Nat) : Bool := let x := s.core k; x.task.isNone && x.vec.grant == 0 && x.vec.heldLanes == 0
  let p := if v.getLsbD 31 then some (wf v 0 6) else none
  if v.getLsbD 31 && Config.partitions ≤ wf v 0 6 then .trap 0x02 0 0
  else if !ks.all idle then .wait
  else if (s.cluster c).part = p then .ok s
  else
    let s := ks.foldl State.bankCounts s
    let s := (basinsOver s c).foldl (fun s b => s.updDie (c / 16) (fun d => { d with basins := tset d.basins b {} })) s
    let s := ks.foldl (fun s k => if (s.core k).rankCache.isEmpty then s else s.updCore k (fun c => { c with rankCache := [] })) s
    .ok (s.updCluster c (fun x => { x with part := p }))

/-- CLUPART_WRITE. -/
def execClupartWrite (die : Nat) (v : Word) (s : State) : Out := (writeClupart die v s).out (Config.cores + die) 0xC0B s

/-! Disclosure policies (R425, R426). -/

/-- The rules of a policy: four words each. -/
def policyRules (w : List Word) : List (List Word) :=
  (List.range (min (w.getD 4 0).toNat 1024)).map (fun i => (w.drop (16 + 4 * i)).take 4)

def ruleOk (r : List Word) : Bool :=
  let act := wf (r.getD 2 0) 0 4
  let par := wf (r.getD 2 0) 8 24
  wf (r.getD 0 0) 16 12 == 0 && wf (r.getD 1 0) 16 16 == 0 && wf (r.getD 2 0) 4 4 == 0 && act < 4 && (act != 3 || par != 0)

/-- Format of a policy (R425). -/
def policyFormat (w : List Word) : Bool :=
  let g (i : Nat) : Nat := (w.getD i 0).toNat
  g 0 == 0x504C4448 && g 1 == 1 && g 2 < 48 && 1 ≤ g 3 && g 3 ≤ 0xFFFFFF && 1 ≤ g 4 && g 4 ≤ 1024 &&
    (List.range 11).all (fun i => g (5 + i) == 0) && (policyRules w).all ruleOk

/-- The outcome of an installation: 0, or the REASON of R426. -/
def policyReason (part : Partition) (p : Nat) (w : List Word) (bs : List Byte) : Nat :=
  if !Config.signatureVerifies (bytesToNat (bs ++ (part.tkeyh.map wordBytes).flatten)) then 1
  else if (w.getD 2 0).toNat ≠ p then 2
  else if (w.getD 3 0).toNat ≤ part.polSeq then 3
  else if !policyFormat w then 4
  else if !Config.policyFits (bytesToNat bs) then 5
  else 0

/-- The sets of class 0 of every die are committed, as GCMT does (R312, R319, R426); none while an old set is still read or a shadow write
has still to take effect. -/
def commitPolicy (s : State) : Option State :=
  let busy (d : Nat) : Bool := ((s.die d).gclass 0).old || (dieCores d).any (fun k => (s.core k).gal.queue.any (fun q =>
    isShadow q.instr && dCls q.a == 0 && !q.started))
  if (List.range Config.dies).any busy then none
  else some ((List.range Config.dies).foldl (fun s d => s.updDie d (·.commit 0)) s)

/-- A write of POLCTL by core k (R418, R426): GO reads the policy and installs it, or gives a REASON and changes nothing else; the
compiled set of class 0 is committed on every die. -/
def writePolctl (k : Nat) (v : Word) (s : State) : CsrOut :=
  let p := s.corePart k
  let part := s.part p
  let asid := (s.core k).masid
  if !v.getLsbD 31 then .ok s
  else
    let bytes (s : State) (at' n : Nat) : (List Byte ⊕ CsrOut) × State :=
      match translateRun s (coreDie k) asid .load (vaRange ((part.polAddr.toNat + at') % 2 ^ 32) n) [] with
      | (.inr (cause, detail, va), s) => (.inr (.trap cause detail (BitVec.ofNat 32 va)), s)
      | (.inl pas, s) =>
        if pas.any (fun a => s.ms.owned (a / 64)) then (.inr .wait, s) else (.inl (pas.map (s.ms.byteAt (.die (coreDie k)))), s)
    match bytes s 0 64 with
    | (.inr o, _) => o
    | (.inl head, s) =>
      let n := min (wordOf ((head.drop 16).take 4)).toNat 1024
      match bytes s 64 (16 * n + 1280) with
      | (.inr o, _) => o
      | (.inl rest, s) =>
        let bs := head ++ rest
        let w := wordsOf (16 + 4 * n) bs
        let reason := policyReason part p w bs
        if reason ≠ 0 then .ok (s.updPart p (fun x => { x with polStatus := 3, polReason := reason }))
        else match commitPolicy s with
        | none => .wait
        | some s =>
          let seq := (w.getD 3 0).toNat
          let s := s.updPart p (fun x => { x with
            polStatus := 2, polReason := 0, polSeq := seq, policy := policyRules w, polCount := [] })
          .ok (blackBox s (coreDie k) p 0x3009 (unitWord (coreDie k) 14 0) (BitVec.ofNat 32 seq))

/-- POLCTL_GO (R426). -/
def execPolctlGo (k : Nat) (v : Word) (s : State) : Out := (writePolctl k v s).out k 0x8F9 s

/-! The black box (R427, R428). -/

/-- BBDATA_READ (R418): core k's read. -/
def execBbdataRead (k : Nat) (s : State) : Out := .next (readBbdata k s).2

/-- BLACK_BOX_FLUSH (R427): every 2^30 ck; a fatal error and the loss of input power copy the ring in their own steps. -/
def execBlackBoxFlush (die : Nat) (s : State) : Out :=
  if (s.die die).lastFlush + 2 ^ 30 ≤ s.ck then .next (s.updDie die (·.flush s.ck)) else .next s

/-- INPUT_POWER_LOSS (R427): the hold-up power carries the copy of every ring. -/
def execInputPowerLoss (s : State) : Out := .next (flushBoxes s)

/-! Power and heat (R429). -/

/-- CLOCK_STEP (R429): one step of 150 MHz, slower (up) or faster, at most step 7, ordered by a die's service core for heat or
power. -/
def execClockStep (die : Nat) (up heat : Bool) (s : State) : Out :=
  if (up && s.clockStep == 7) || (!up && s.clockStep == 0) then .next s
  else
    let n := if up then s.clockStep + 1 else s.clockStep - 1
    let s := blackBox { s with clockStep := n } die 63 0x3008 (unitWord die 14 0) (BitVec.ofNat 32 n)
    .next (telemetry s die 4 63 0x4003 (Config.cores + die) [BitVec.ofNat 32 n, if heat then 2 else 1])

/-- JUNCTION_OVERHEAT (R429): a die at 110 °C is fenced as lost. -/
def execJunctionOverheat (die : Nat) (s : State) : Out :=
  if Config.dies ≤ die ∨ (s.die die).lost ∨ (s.die die).tjmax < 110 then .next s else .next (loseDie s die)

/-! Errors that no register receives (R194, R412). -/

/-- Lines from this number on name an element of core k's matrix storage (R280, log 25): partial set 0 to 3, accumulator 4 or 5, times
65,536, plus row times 512 plus column. -/
def arrayBase : Nat := 2 ^ 42

/-- UNCORRECTABLE_ERROR_DETECTED (R194, R280, R412): of a line, pending for the core k that last wrote it; of an element of core k's
partial sets or accumulators; in a hall directory or TLB (`dir`) it is fatal, and with VIRALCTL.EN = 0 fences the basin concerned. -/
def execUncorrectableErrorDetected (line k : Nat) (dir : Bool) (s : State) : Out :=
  if dir then .next (if s.viralEn then fatal s else fenceBasin (fatal s) k)
  else if arrayBase ≤ line then
    let n := line - arrayBase
    if 6 * 65536 ≤ n then .next s
    else .next ({ s with fresh := s.fresh + 1 }.updCore k (fun c => { c with
      mat := c.mat.parity (n / 65536) (n % 65536 / 512) (n % 512) (Config.freeWord s.fresh) }))
  else .next (pendImp (s.updMs (·.poisonLine line)) k 0x70 0xFFFFFFFF 0)

end Sys2Proof.Machine
end

