-- ==== Sys2Proof/Machine/Csr.lean ====
section
/-!
DEFINITION. Sys2Proof/Machine/Csr.lean: writes of the CSRs and the CSR instructions (R50, R53, R161), with the owners' rules for
each number (CsrOps.lean lists them).
-/
namespace Sys2Proof.Machine
open Sys2Proof

/-! Core CSRs. -/

/-- A write of FEMASK (R81, R82): the full bits are set directly; a recorded cause of a register set full is discarded (R109). -/
def writeFemask (k : Nat) (v : Word) (s : State) : State :=
  s.updCore k (fun c => { c with
    regs := { c.regs with full := (v.truncate 24 : BitVec 24) ||| 1 },
    acc := c.acc.filter (fun a => match a.st with
      | .recorded _ _ _ => !(regsFrom 1 23).any (fun n => a.owns n && v.getLsbD n.val)
      | _ => true) })

/-- FEMASK_WRITE (R81). -/
def execFemaskWrite (k : Nat) (v : Word) (s : State) : Out := .next (writeFemask k v s)

/-- A write of LSTAT (R82, R133): a level whose bit is cleared ends. -/
def writeLstat (k : Nat) (v : Word) (s : State) : State :=
  s.updCore k (fun c => { c with
    loop0 := { c.loop0 with active := v.getLsbD 0 }, loop1 := { c.loop1 with active := v.getLsbD 1 } })

/-- LSTAT_WRITE (R133). -/
def execLstatWrite (k : Nat) (v : Word) (s : State) : Out := .next (writeLstat k v s)

/-- A write of SRAMCFG (R85, R401): a change publishes at P and drains, writes back, invalidates, applies, and clears the snapshot;
it waits for the copy commands. -/
def writeSramcfg (k : Nat) (v : Word) (s : State) : CsrOut :=
  let n := wf v 0 4
  if 8 < n then .trap 0x02 0 0
  else if n = (s.core k).cache then .ok s
  else if (s.core k).cnt.CP ≠ 0 then .wait
  else match publishDrain s k with
  | none => .wait
  | some s => .ok (s.updCore k (fun c => { c.acquire s.ck with dirty := [], held := [], cache := n }))

/-- SRAMCFG_WRITE (R85). -/
def execSramcfgWrite (k : Nat) (v : Word) (s : State) : Out := (writeSramcfg k v s).out k 0x040 s

/-- An address register whose low two bits must be 0 (R82, R185). -/
def aligned4 (v : Word) (t : State) : CsrOut := if v.toNat % 4 ≠ 0 then .trap 0x04 0 v else .ok t

def writeCore (k n : Nat) (v : Word) (s : State) : CsrOut :=
  let upd (f : Core → Core) : State := s.updCore k f
  match n with
  | 0x008 => .ok (writeFemask k v s)
  | 0x010 => .ok (upd fun c => { c with loop0 := { c.loop0 with lc := v } })
  | 0x011 => aligned4 v (upd fun c => { c with loop0 := { c.loop0 with ls := v } })
  | 0x012 => aligned4 v (upd fun c => { c with loop0 := { c.loop0 with le := v } })
  | 0x013 => .ok (upd fun c => { c with loop1 := { c.loop1 with lc := v } })
  | 0x014 => aligned4 v (upd fun c => { c with loop1 := { c.loop1 with ls := v } })
  | 0x015 => aligned4 v (upd fun c => { c with loop1 := { c.loop1 with le := v } })
  | 0x016 => .ok (writeLstat k v s)
  | 0x020 => aligned4 v (upd fun c => { c with up := { c.up with vec := v } })
  | 0x021 => aligned4 v (upd fun c => { c with up := { c.up with pc := v } })
  | 0x024 => .ok (upd fun c => { c with up := { c.up with en := v.getLsbD 1, inH := v.getLsbD 0 } })
  | 0x030 => .ok (upd fun c => { c with alignlim := v.toNat % 65536 })
  | 0x040 => writeSramcfg k v s
  | 0x041 => .ok (upd fun c => { c with group := v.toNat % 256 })
  | _ => .ok s

/-! Engine CSRs. -/

/-- FAULT is cleared by writing 1 (R223, R268, R315, R342, R370). -/
def clearFault (s : State) (k : Nat) (e : Engine) (v : Word) : State :=
  if v.getLsbD 31 then s.updCore k (fun c => c.setFlt e { c.fltOf e with fault := false }) else s

def writeVec (k n : Nat) (v : Word) (s : State) : CsrOut :=
  let upd (f : VecCore → VecCore) : State := s.updCore k (fun c => { c with vec := f c.vec })
  match n with
  | 0x101 => aligned4 v (upd fun x => { x with stride := v })
  | 0x102 =>
    if v.toNat < 8 ∨ 256 < v.toNat ∨ v.toNat % 8 ≠ 0 then .trap 0x02 0 0 else .ok (upd fun x => { x with lim := v.toNat })
  | 0x105 => .ok (clearFault s k .VX v)
  | 0x108 => .ok (upd fun x => { x with fuse := v.getLsbD 0 })
  | _ => .ok s

/-- A write of MG0 to MG9, MSTAT, MCORR or MINJ (R269, R270): it waits until MX is 0. -/
def writeMatrix (k n : Nat) (v : Word) (s : State) : CsrOut :=
  let upd (f : MatCore → MatCore) : State := s.updCore k (fun c => { c with mat := f c.mat })
  if (s.core k).cnt.MX ≠ 0 then .wait
  else if h : 0x200 ≤ n ∧ n ≤ 0x209 then
    .ok (upd fun m => { m with mg := m.mg.set (n - 0x200) (if n = 0x209 then v &&& 0x000FFFFF else v) (by omega) })
  else if n = 0x210 then
    .ok (upd fun m => { m with ovf0 := m.ovf0 && !v.getLsbD 0, ovf1 := m.ovf1 && !v.getLsbD 1 })
  else if n = 0x213 then .ok (upd fun m => { m with corr := v.toNat })
  else if n = 0x214 then
    if 6 ≤ wf v 28 3 then .trap 0x02 0 0 else .ok (upd fun m => { m with inj := v &&& 0xFFFFF01F })
  else .ok s

/-- MATRIX_CSR_WRITE (R270). -/
def execMatrixCsrWrite (k : Nat) (csr : BitVec 12) (v : Word) (s : State) : Out :=
  (writeMatrix k csr.toNat v s).out k csr.toNat s

def writeMat (k n : Nat) (v : Word) (s : State) : CsrOut :=
  match n with
  | 0x211 => .ok (clearFault s k .MX v)
  | 0x212 | 0x215 => .ok s
  | 0x218 => .ok (s.updCluster (coreClu k) (fun c => { c with mweight := v &&& 0x00FFFFFF }))
  | _ => writeMatrix k n v s

def writeGal (k n : Nat) (v : Word) (s : State) : CsrOut :=
  match n with
  | 0x300 => .ok (s.updCore k (fun c => { c with gal := { c.gal with clsel := v.toNat % 8 } }))
  | 0x302 => .ok (clearFault s k .GL v)
  | _ => .ok s

/-- A write of FGCTL (R341): the period of a group starts at the write that makes it free-running; a write while a round is under way
takes effect at its boundary (R345). -/
def writeFgctl (k : Nat) (v : Word) (s : State) : CsrOut :=
  if 64 < wf v 16 7 ∨ wf v 0 16 < 8 then .trap 0x02 0 0
  else .ok (s.updGroup (coreDie k) (s.core k).fer.gsel (fun g => { g with
    en := v.getLsbD 30, mode := v.getLsbD 29, ncount := wf v 16 7, period := wf v 0 16,
    due := if (g.en && g.mode) || s.ck < g.due || !(v.getLsbD 30 && v.getLsbD 29) then g.due else s.ck + wf v 0 16 * 256 }))

/-- Low or high word of a 64-bit account. -/
def setHalf (x : Nat) (high : Bool) (v : Word) : Nat :=
  if high then v.toNat * 2 ^ 32 + x % 2 ^ 32 else x / 2 ^ 32 * 2 ^ 32 + v.toNat

/-- Writes of the ferry's CSRs (R340 to R342): to a group or bound block that the partition does not own, GROUP_NOT_OWNED. -/
def writeFer (k n : Nat) (v : Word) (s : State) : CsrOut :=
  let die := coreDie k
  let f := (s.core k).fer
  let upd (g : FerCore → FerCore) : CsrOut := .ok (s.updCore k (fun c => { c with fer := g c.fer }))
  let blk (g : FBlock → FBlock) : CsrOut := match s.block die f.bsel with
    | none => .ok s
    | some b => if ownsGroup s k b.group then .ok (s.setBlock die f.bsel (g b)) else .trap 0x50 0 0
  let grp (o : CsrOut) : CsrOut := if ownsGroup s k f.gsel then o else .trap 0x50 0 0
  match n with
  | 0x400 => upd fun x => { x with gsel := v.toNat % 256 }
  | 0x401 => grp (writeFgctl k v s)
  | 0x402 => writeFgtag k v s
  | 0x403 => upd fun x => { x with nbsel := v.toNat % 64 }
  | 0x404 => writeFnb k v s
  | 0x405 => if wf v 0 24 = 0 then .trap 0x02 0 0 else .ok (s.updFerry die (fun x => { x with ftmo := wf v 0 24 }))
  | 0x406 | 0x407 => grp (.ok s)
  | 0x408 => upd fun x => { x with bsel := v.toNat % 4096 }
  | 0x409 | 0x40A | 0x40B | 0x410 => blk id
  | 0x40C => blk fun b => { b with unc := setHalf b.unc false v }
  | 0x40D => blk fun b => { b with unc := setHalf b.unc true v }
  | 0x40E => blk fun b => { b with gain := setHalf b.gain false v }
  | 0x40F => blk fun b => { b with gain := setHalf b.gain true v }
  | 0x411 => .ok (clearFault s k .PS v)
  | 0x412 =>
    if (s.block die (wf v 0 12)).any (fun b => !ownsGroup s k b.group) then .trap 0x50 0 0
    else .ok (s.updFerry die (fun x => { x with finj := v &&& 0xC0000FFF }))
  | _ => .ok s

def writeMem (k n : Nat) (v : Word) (s : State) : CsrOut :=
  match n with
  | 0x501 => writeStbase k v s
  | 0x503 => .ok (clearFault s k .CP v)
  | _ => .ok s

/-! Debug CSRs (R209, R214 to R216). -/

def writeDbg (k n : Nat) (v : Word) (s : State) : CsrOut :=
  let upd (f : Debug → Debug) : CsrOut := .ok (s.updCore k (fun c => { c with dbg := f c.dbg }))
  if 0x608 ≤ n ∧ n ≤ 0x60B then upd fun d => { d with pa := d.pa.setIfInBounds (n - 0x608) (v &&& 0xFFFFFFFD) }
  else if 0x700 ≤ n ∧ n ≤ 0x73F then
    if n ≤ 0x72E then upd fun d => { d with dlat := tset d.dlat (n - 0x700) v } else .ok s
  else match n with
  | 0x600 => .ok (writeDbgctl k v s)
  | 0x601 => .ok (if (s.core k).isHalted then s.updCore k (fun c => { c with pc := v }) else s)
  | 0x602 => upd fun d => { d with sel := v.toNat % 32 }
  | 0x603 => .ok (writeDbgdata k v s)
  | 0x60C => upd fun d => { d with wa := d.wa.set 0 v }
  | 0x60D => upd fun d => { d with wa := d.wa.set 1 v }
  | 0x610 => upd fun d => { d with maddr := v }
  | 0x611 => writeDbgmdata k v s
  | 0x612 => writeDbgicinv k v s
  | 0x620 => upd fun d => { d with tracectl := v.toNat % 16 }
  | 0x630 => upd fun d => { d with dlatctl := v.getLsbD 0 }
  | 0x640 => upd fun d => { d with sckEn := v.getLsbD 0 }
  | 0x641 => upd fun d => { d with sckLo := v }
  | 0x642 => upd fun d => { d with sckHi := v }
  | _ => .ok s

/-! Supervisor CSRs. -/

/-- The access is the service core's, which reaches the CSRs of the core in SVCTGT (R53). -/
def State.byService (s : State) : Bool := (s.core s.cur).priv == Priv.service

/-- A work queue of a partition, or one that the service core assigns to it as it selects it for one of its cores (R26, R97; DESIGN
CHOICE, log 36); none for any other. -/
def claimQueue (s : State) (p q : Nat) : Option State :=
  let w := tget s.queues {} q
  if w.part = some p then some s
  else if w.part.isNone && s.byService && p < Config.partitions then some (s.setQueue q { w with part := some p })
  else none

/-- The same of an address space (R27, R371, log 36). -/
def claimAsid (s : State) (p a : Nat) : Option State :=
  let o := tget s.ms.asidPart 63 a
  if o = p then some s
  else if o = 63 && s.byService && p < Config.partitions then some (s.updMs (fun m => { m with asidPart := tset m.asidPart a p }))
  else none

def orPrivilege (o : Option State) (f : State → CsrOut) : CsrOut :=
  match o with
  | some s => f s
  | none => .trap 0x06 0 0

/-- A write of WQBASE, WQTAILA or WQHEADA (R97). -/
def writeQueue (k : Nat) (f : WorkQueue → WorkQueue) (s : State) : CsrOut :=
  let q := (s.core k).sup.wqsel
  orPrivilege (claimQueue s (s.corePart k) q) fun s =>
    let w := tget s.queues {} q
    if w.en then .trap 0x06 0 0 else .ok (s.setQueue q (f w))

/-- TIERHARD stays within the service grant and above TIERSOFT (R371, R430). -/
def writeTierhard (k : Nat) (v : Word) (s : State) : CsrOut :=
  let p := s.corePart k
  let t := (s.core k).sup.tiersel
  let x := s.part p
  if 2 < t then .ok s
  else if x.tgrant.getD t 0 < v.toNat ∨ v.toNat < x.soft.getD t 0 then .trap 0x02 0 0
  else .ok (s.updPart p (fun x => { x with hard := x.hard.set t v.toNat }))

def writeSup (k n : Nat) (v : Word) (s : State) : CsrOut :=
  let p := s.corePart k
  let upd (f : Core → Core) : CsrOut := .ok (s.updCore k f)
  let sup (f : SupRegs → SupRegs) : CsrOut := .ok (s.updCore k (fun c => { c with sup := f c.sup }))
  let part (f : Partition → Partition) : CsrOut := .ok (s.updPart p f)
  match n with
  | 0x800 => aligned4 v (s.updCore k fun c => { c with tr := { c.tr with vec := v } })
  | 0x801 => upd fun c => { c with tr := { c.tr with pc := v } }
  | 0x805 => upd fun c => { c with tr := { c.tr with re := v.getLsbD 1 } }
  | 0x806 => upd fun c => { c with tr := { c.tr with scr := v } }
  | 0x814 => .ok (popImp k s)
  | 0x880 => orPrivilege (claimQueue s p (v.toNat % 1024)) fun s =>
    .ok (s.updCore k (fun c => { c with sup := { c.sup with wqsel := v.toNat % 1024 } }))
  | 0x881 => writeQueue k (fun w => { w with base := v }) s
  | 0x882 => writeQueue k (fun w => { w with taila := v }) s
  | 0x883 => writeQueue k (fun w => { w with heada := v }) s
  | 0x884 => orPrivilege (claimQueue s p (s.core k).sup.wqsel) (writeWqctl k v)
  | 0x890 => if s.corePart (v.toNat % 1024) = p then sup fun r => { r with presel := v.toNat % 1024 } else .trap 0x06 0 0
  | 0x891 => if v.toNat % 2048 ≠ 0 then .trap 0x04 0 v else sup fun r => { r with prearea := v }
  | 0x892 => writePrectl k v s
  | 0x8C0 => sup fun r => { r with basinsel := v.toNat % 64 }
  | 0x8C1 => writeBasin k v s
  | 0x8D0 => if v.toNat % 65536 ≠ 0 then .trap 0x04 0 v else upd fun c => { c with stdef := v }
  | 0x8D4 => orPrivilege (claimAsid s p (v.toNat % 65536)) fun s =>
    .ok (s.updCore k (fun c => { c with sup := { c.sup with asidsel := v.toNat % 65536 } }))
  | 0x8D5 => orPrivilege (claimAsid s p (s.core k).sup.asidsel) fun s =>
    .ok (s.updMs (fun m => { m with asidPt := tset m.asidPt (s.core k).sup.asidsel v }))
  | 0x8D6 => if v.toNat % 65536 ≠ 0 then .trap 0x04 0 v else part fun x => { x with rankbase := v }
  | 0x8D7 => if v.toNat < 8 ∨ 24 < v.toNat then .trap 0x02 0 0 else part fun x => { x with ranklog := v.toNat }
  | 0x8D8 => writeNpush k v s
  | 0x8D9 => sup fun r => { r with ranksel := v.toNat % 2 ^ 24 }
  | 0x8DA => writeRankset k v s
  | 0x8DC => sup fun r => { r with berthsel := v.toNat % 2 ^ 24 }
  | 0x8DD => writeBerth k 0x8DD v s
  | 0x8DE => writeBerth k 0x8DE v s
  | 0x8E0 => sup fun r => { r with tiersel := v.toNat % 4 }
  | 0x8E1 => part fun x => { x with soft := x.soft.set (s.core k).sup.tiersel v.toNat }
  | 0x8E2 => writeTierhard k v s
  | 0x8E5 => sup fun r => { r with prsel := v.toNat % 16 }
  | 0x8E8 => part fun x => { x with storqBase := v }
  | 0x8E9 => writeStorqctl k v s
  | 0x8F0 => if v.toNat % 64 ≠ 0 then .trap 0x04 0 v else sup fun r => { r with fckaddr := v }
  | 0x8F1 => writeFckctl k v s
  | 0x8F8 => if v.toNat % 64 ≠ 0 then .trap 0x04 0 v else part fun x => { x with polAddr := v }
  | 0x8F9 => writePolctl k v s
  | 0x8FC => sup fun r => { r with bbidx := v.toNat % 4096, bbword := 0 }
  | _ => .ok s

/-! Service CSRs. -/

def writeSvc (die n : Nat) (v : Word) (s : State) : CsrOut :=
  let upd (f : Die → Die) : CsrOut := .ok (s.updDie die f)
  let fer (f : Ferry → Ferry) : CsrOut := .ok (s.updFerry die f)
  let d := s.die die
  let range (f : PRange → PRange) : CsrOut := .ok (s.updPart (wf d.pgsel 0 6) (fun x =>
    { x with ranges := tset x.ranges (wf d.pgsel 8 4) (f (tget x.ranges {} (wf d.pgsel 8 4))) }))
  if 0xC10 ≤ n ∧ n ≤ 0xC17 then .ok (s.updPart d.partsel (fun x => { x with tkeyh := x.tkeyh.set (n - 0xC10) v }))
  else if 0xC40 ≤ n ∧ n ≤ 0xC47 then writeGown die (n - 0xC40) v s
  else if 0xC48 ≤ n ∧ n ≤ 0xC4F then .ok (s.updClass die (n - 0xC48) (fun g => { g with cwin := v &&& 0xFF00FF00 }))
  else if 0xC68 ≤ n ∧ n ≤ 0xC6A then writeTgrant die (n - 0xC68) v s
  else match n with
  | 0xC00 => upd fun d => { d with svctgt := v &&& 0x800003FF }
  | 0xC02 => writeBistctl die v s
  | 0xC04 => writeRemap die v s
  | 0xC08 => upd fun d => { d with partsel := v.toNat % 64 }
  | 0xC09 => writePartctl die v s
  | 0xC0A => upd fun d => { d with clusel := v.toNat % 128 }
  | 0xC0B => writeClupart die v s
  | 0xC30 => if v.toNat < 1200 ∨ 3600 < v.toNat then .trap 0x02 0 0 else .ok { s with pwrlim := v.toNat }
  | 0xC50 => fer fun f => { f with ownsel := v.toNat % 256 }
  | 0xC51 => writeFgown die v s
  | 0xC52 => writeFerryid die v s
  | 0xC60 => upd fun d => { d with hallsel := v.toNat % 64 }
  | 0xC61 => .ok (s.updPart d.hallsel (fun x => { x with hallways := tset x.hallways die (v.toNat % 65536) }))
  | 0xC62 => .ok (s.updMs (fun m => { m with rmapbase := v }))
  | 0xC64 => upd fun d => { d with pgsel := v &&& 0xF3F }
  | 0xC65 => range fun r => { r with lo := v }
  | 0xC66 => range fun r => { r with hi := v }
  | 0xC67 => writePgctl die v s
  | 0xC70 => .ok { s with viralEn := v.getLsbD 0 }
  | _ => .ok s

/-- Write of CSR n of core k, or of a service CSR of its die (R50): read-only CSRs and fields stay. -/
def csrWrite (k n : Nat) (v : Word) (s : State) : CsrOut :=
  match n / 256 with
  | 0 => writeCore k n v s
  | 1 => writeVec k n v s
  | 2 => writeMat k n v s
  | 3 => writeGal k n v s
  | 4 => writeFer k n v s
  | 5 => writeMem k n v s
  | 6 | 7 => writeDbg k n v s
  | 8 | 9 | 10 | 11 => writeSup k n v s
  | _ => writeSvc (coreDie k) n v s

/-! The instructions (R161). -/

/-- Accesses of a window onto a queue or an address space that is not the partition's are refused as its selection is (log 36). -/
def csrHidden (s : State) (k n : Nat) : Bool :=
  let p := s.corePart k
  (0x881 ≤ n && n ≤ 0x884 && (claimQueue s p (s.core k).sup.wqsel).isNone) || (n == 0x8D5 && (claimAsid s p (s.core k).sup.asidsel).isNone)

/-- WQBASE, WQTAILA and WQHEADA are not written while the selected queue's EN is 1 (R97). -/
def csrLocked (s : State) (k n : Nat) (write : Bool) : Bool :=
  write && 0x881 ≤ n && n ≤ 0x883 && (tget s.queues {} (s.core k).sup.wqsel).en

/-- The service core reaches a debug module only where the owner of the core's partition permits it: PRIVILEGE (R209; DESIGN CHOICE,
log 83). -/
def csrForbidden (s : State) (k n : Nat) : Bool := s.byService && 0x600 ≤ n && n ≤ 0x612 && !s.debugAdmits k

/-- CSRs whose access publishes, reads memory or stores. -/
def csrMoves (n : Nat) : Bool := [0x040, 0x611, 0x612, 0x892, 0x8DA, 0x8F9].contains n

/-- What a CSR instruction meets before its operands (R49, R50, R53): a number that is assigned to nothing, or one above the
level. -/
def csrRefused (s : State) (n : Nat) (write : Bool) : Option (Nat × Word) :=
  match csrTarget s s.cur n with
  | none => some (0x01, 0)
  | some t =>
    if !csrAssigned s t n then some (0x01, 0)
    else if !(csrNeed n write).le (s.core s.cur).priv || csrHidden s t n || csrLocked s t n write || csrForbidden s t n then
      some (0x06, BitVec.ofNat 32 n)
    else none

/-- One indivisible access (R161): the old value to d, and, for a write, the new value to the CSR. -/
def csrAccess (i : Instr) (u : Uses) (d : Dst) (csr : BitVec 12) (f : Option (Word → Word → Word)) (s : State) : Out :=
  let n := csr.toNat
  match csrRefused s n f.isSome with
  | some (cause, detail) => .next (deliver s s.cur cause detail 0 (s.core s.cur).pc)
  | none => gate i u s fun v s =>
    let k := s.cur
    let t := (csrTarget s k n).getD k
    let trap (cause : Nat) (detail addr : Word) : Out := .next (raiseD s cause (csrDetail (some i) n cause detail) addr)
    match csrRead t n s with
    | .trap cause detail addr => trap cause detail addr
    | .wait => .next (stand i s)
    | .ok old s' =>
      let fin (s : State) : Out := .next (retireNext u (s.updCore k (fun c => c.writeDst s.ck d old v.poison)) v.poison)
      match f with
      | none => fin s'
      | some f => match csrWrite t n (f old v.a) s' with
        | .ok s' => fin s'
        | .trap cause detail addr => trap cause detail addr
        | .wait => .next (stand i s)

/-- `CSRR` (R161). -/
def execCsrr (d : Dst) (csr : BitVec 12) (s : State) : Out :=
  csrAccess (.csrr d csr) { dst := d, moves := csrMoves csr.toNat } d csr none s

/-- `CSRW` (R161). -/
def execCsrw (d : Dst) (a : Src) (csr : BitVec 12) (s : State) : Out :=
  csrAccess (.csrw d a csr) { a, dst := d, moves := csrMoves csr.toNat, csr := true } d csr (some fun _ a => a) s

/-- `CSRS` (R161). -/
def execCsrs (d : Dst) (a : Src) (csr : BitVec 12) (s : State) : Out :=
  csrAccess (.csrs d a csr) { a, dst := d, moves := csrMoves csr.toNat, csr := true } d csr (some fun o a => o ||| a) s

/-- `CSRC` (R161). -/
def execCsrc (d : Dst) (a : Src) (csr : BitVec 12) (s : State) : Out :=
  csrAccess (.csrc d a csr) { a, dst := d, moves := csrMoves csr.toNat, csr := true } d csr (some fun o a => o &&& ~~~a) s

/-! Words that are not instructions. -/

/-- A word of a CSR instruction (R161) whose number is assigned to nothing for the core that issues it. -/
def namesNoCsr (s : State) (w : Word) : Bool :=
  wf w 26 6 == 0x2F && wf w 12 3 < 4 && match csrTarget s s.cur (wf w 0 12) with
    | some t => !csrAssigned s t (wf w 0 12)
    | none => true

/-- The cause that a word which is no instruction takes (R48, R49). One that names an unassigned CSR beside a malformed field takes
ILLEGAL_OP, the first of R49's order, where R48 lets the first check that fails settle it (DESIGN CHOICE, log 85). -/
def wordCause (s : State) (w : Word) : Option Nat :=
  match decodeWord w with
  | .ok _ | .error .short => none
  | .error .illegalOp => some 0x01
  | .error .reservedField => some (if namesNoCsr s w then 0x01 else 0x02)
  | .error .queueWrite => some (if namesNoCsr s w then 0x01 else 0x0C)

/-- ILLEGAL_WORD (R48, R49): the word at which core `cur` stands is no instruction; it takes its cause, and nothing is executed. -/
def execIllegalWord (w : Word) (s : State) : Out :=
  match wordCause s w with
  | some cause => .next (deliver s s.cur cause 0 0 (s.core s.cur).pc)
  | none => .next s

end Sys2Proof.Machine
end

