-- ==== Sys2Proof/Machine/Integer.lean ====
section
/-!
DEFINITION. Sys2Proof/Machine/Integer.lean: register and immediate integer instructions (R110 to R120) and the divides
(R114), with the event that completes a divide.
-/
namespace Sys2Proof.Machine
open Sys2Proof

/-- Operands of format R with two sources. -/
def uses3 (d : Dst) (a b : Src) : Uses := { a, b, dst := d }
/-- Operands with one source. -/
def uses2 (d : Dst) (a : Src) : Uses := { a, dst := d }

/-- `ADD` (R110). -/
def execAdd (d : Dst) (a b : Src) (s : State) : Out :=
  compute (.add d a b) (uses3 d a b) s fun v => v.a + v.b

/-- `SUB` (R110). -/
def execSub (d : Dst) (a b : Src) (s : State) : Out :=
  compute (.sub d a b) (uses3 d a b) s fun v => v.a - v.b

/-- `AND` (R110). -/
def execAnd (d : Dst) (a b : Src) (s : State) : Out :=
  compute (.and d a b) (uses3 d a b) s fun v => v.a &&& v.b

/-- `OR` (R110). -/
def execOr (d : Dst) (a b : Src) (s : State) : Out :=
  compute (.or d a b) (uses3 d a b) s fun v => v.a ||| v.b

/-- `XOR` (R110). -/
def execXor (d : Dst) (a b : Src) (s : State) : Out :=
  compute (.xor d a b) (uses3 d a b) s fun v => v.a ^^^ v.b

/-- `ANDN` (R110). -/
def execAndn (d : Dst) (a b : Src) (s : State) : Out :=
  compute (.andn d a b) (uses3 d a b) s fun v => v.a &&& ~~~v.b

/-- `SLL` (R111). -/
def execSll (d : Dst) (a b : Src) (s : State) : Out :=
  compute (.sll d a b) (uses3 d a b) s fun v => v.a <<< shAmt v.b

/-- `SRL` (R111). -/
def execSrl (d : Dst) (a b : Src) (s : State) : Out :=
  compute (.srl d a b) (uses3 d a b) s fun v => v.a >>> shAmt v.b

/-- `SRA` (R111). -/
def execSra (d : Dst) (a b : Src) (s : State) : Out :=
  compute (.sra d a b) (uses3 d a b) s fun v => v.a.sshiftRight (shAmt v.b)

/-- `SLT` (R112). -/
def execSlt (d : Dst) (a b : Src) (s : State) : Out :=
  compute (.slt d a b) (uses3 d a b) s fun v => b32 (ltS v.a v.b)

/-- `SLTN` (R112). -/
def execSltn (d : Dst) (a b : Src) (s : State) : Out :=
  compute (.sltn d a b) (uses3 d a b) s fun v => b32 (ltU v.a v.b)

/-- `MIN` (R112). -/
def execMin (d : Dst) (a b : Src) (s : State) : Out :=
  compute (.min d a b) (uses3 d a b) s fun v => if ltS v.a v.b then v.a else v.b

/-- `MAX` (R112). -/
def execMax (d : Dst) (a b : Src) (s : State) : Out :=
  compute (.max d a b) (uses3 d a b) s fun v => if ltS v.a v.b then v.b else v.a

/-- `MINN` (R112). -/
def execMinn (d : Dst) (a b : Src) (s : State) : Out :=
  compute (.minn d a b) (uses3 d a b) s fun v => if ltU v.a v.b then v.a else v.b

/-- `MAXN` (R112). -/
def execMaxn (d : Dst) (a b : Src) (s : State) : Out :=
  compute (.maxn d a b) (uses3 d a b) s fun v => if ltU v.a v.b then v.b else v.a

/-- `MUL` (R113). -/
def execMul (d : Dst) (a b : Src) (s : State) : Out :=
  compute (.mul d a b) (uses3 d a b) s fun v => v.a * v.b

/-- `MULH` (R113). -/
def execMulh (d : Dst) (a b : Src) (s : State) : Out :=
  compute (.mulh d a b) (uses3 d a b) s fun v => mulhS v.a v.b

/-- `MULHN` (R113). -/
def execMulhn (d : Dst) (a b : Src) (s : State) : Out :=
  compute (.mulhn d a b) (uses3 d a b) s fun v => mulhU v.a v.b

/-- `CLZ` (R115). -/
def execClz (d : Dst) (a : Src) (s : State) : Out :=
  compute (.clz d a) (uses2 d a) s fun v => clz v.a

/-- `POP` (R115). -/
def execPop (d : Dst) (a : Src) (s : State) : Out :=
  compute (.pop d a) (uses2 d a) s fun v => popCount v.a

/-- `BEXT` (R116). -/
def execBext (d : Dst) (a b : Src) (s : State) : Out :=
  compute (.bext d a b) (uses3 d a b) s fun v => bitExtract v.a v.b

/-- `BINS` (R116): d is read as a source too, always blocking. -/
def execBins (d : XReg) (a b : Src) (s : State) : Out :=
  compute (.bins d a b) { a, b, ds := [d], dst := some (.x d) } s fun v => bitInsert (v.ds.getD 0 0) v.a v.b

/-- `ADDI` (R117). -/
def execAddi (d : Dst) (a : Src) (imm : BitVec 15) (s : State) : Out :=
  compute (.addi d a imm) (uses2 d a) s fun v => v.a + sext imm

/-- `ANDI` (R117). -/
def execAndi (d : Dst) (a : Src) (imm : BitVec 15) (s : State) : Out :=
  compute (.andi d a imm) (uses2 d a) s fun v => v.a &&& zext imm

/-- `ORI` (R117). -/
def execOri (d : Dst) (a : Src) (imm : BitVec 15) (s : State) : Out :=
  compute (.ori d a imm) (uses2 d a) s fun v => v.a ||| zext imm

/-- `XORI` (R117). -/
def execXori (d : Dst) (a : Src) (imm : BitVec 15) (s : State) : Out :=
  compute (.xori d a imm) (uses2 d a) s fun v => v.a ^^^ zext imm

/-- `SLTI` (R117). -/
def execSlti (d : Dst) (a : Src) (imm : BitVec 15) (s : State) : Out :=
  compute (.slti d a imm) (uses2 d a) s fun v => b32 (ltS v.a (sext imm))

/-- `SLTNI` (R117). -/
def execSltni (d : Dst) (a : Src) (imm : BitVec 15) (s : State) : Out :=
  compute (.sltni d a imm) (uses2 d a) s fun v => b32 (ltU v.a (sext imm))

/-- `SLLI` (R118). -/
def execSlli (d : Dst) (a : Src) (n : BitVec 5) (s : State) : Out :=
  compute (.slli d a n) (uses2 d a) s fun v => v.a <<< n.toNat

/-- `SRLI` (R118). -/
def execSrli (d : Dst) (a : Src) (n : BitVec 5) (s : State) : Out :=
  compute (.srli d a n) (uses2 d a) s fun v => v.a >>> n.toNat

/-- `SRAI` (R118). -/
def execSrai (d : Dst) (a : Src) (n : BitVec 5) (s : State) : Out :=
  compute (.srai d a n) (uses2 d a) s fun v => v.a.sshiftRight n.toNat

/-- `LUI` (R119). -/
def execLui (d : Dst) (imm : BitVec 21) (s : State) : Out :=
  compute (.lui d imm) { dst := some d } s fun _ => zext imm <<< 11

/-- `MULI` (R120). -/
def execMuli (d : Dst) (a : Src) (imm : BitVec 15) (s : State) : Out :=
  compute (.muli d a imm) (uses2 d a) s fun v => v.a * sext imm

/-- A divide issues: it marks d empty and is outstanding until its completion event; it counts in no counter (R114). -/
def divide (i : Instr) (d : Dst) (a b : Src) (s : State) (f : Word → Word → Word) : Out :=
  gate i (uses3 d a b) s fun v s =>
    .next (retireNext (uses3 d a b) (s.updCore s.cur (fun c => c.produce
      { op := .divide (f v.a v.b), d, b := v.b, bPoison := v.poison, pc := c.pc, instr := instrWord i, issuedAt := s.ck }))
      v.poison)

/-- `DIV` (R114). -/
def execDiv (d : Dst) (a b : Src) (s : State) : Out := divide (.div d a b) d a b s divS

/-- `DIVN` (R114). -/
def execDivn (d : Dst) (a b : Src) (s : State) : Out := divide (.divn d a b) d a b s divU

/-- `REM` (R114). -/
def execRem (d : Dst) (a b : Src) (s : State) : Out := divide (.rem d a b) d a b s remS

/-- `REMN` (R114). -/
def execRemn (d : Dst) (a b : Src) (s : State) : Out := divide (.remn d a b) d a b s remU

/-- DIVIDE_COMPLETE (R106, R114): the n-th outstanding producer of core k, a divide, writes its register. -/
def execDivideComplete (k n : Nat) (s : State) : Out :=
  match (s.core k).acc[n]? with
  | some a =>
    match a.op with
    | .divide v => .next (s.updCore k (fun c => c.finish s.ck n [v] a.bPoison))
    | _ => .next s
  | none => .next s

end Sys2Proof.Machine
end

