-- ==== Sys2Proof/Machine/Float.lean ====
section
/-!
DEFINITION. Sys2Proof/Machine/Float.lean: scalar FP32 instructions (R162 to R165).
-/
namespace Sys2Proof.Machine
open Sys2Proof

/-- `FADD` (R163). -/
def execFadd (d : Dst) (a b : Src) (rm : Rnd) (s : State) : Out :=
  compute (.fadd d a b rm) (uses3 d a b) s fun v => fpAdd rm v.a v.b
/-- `FSUB` (R163). -/
def execFsub (d : Dst) (a b : Src) (rm : Rnd) (s : State) : Out :=
  compute (.fsub d a b rm) (uses3 d a b) s fun v => fpSub rm v.a v.b
/-- `FMUL` (R163). -/
def execFmul (d : Dst) (a b : Src) (rm : Rnd) (s : State) : Out :=
  compute (.fmul d a b rm) (uses3 d a b) s fun v => fpMul rm v.a v.b
/-- `FFMA` (R163): d is read as the addend; one rounding. -/
def execFfma (d : XReg) (a b : Src) (rm : Rnd) (s : State) : Out :=
  compute (.ffma d a b rm) { a, b, ds := [d], dst := some (.x d) } s fun v => fpFma rm v.a v.b (v.ds.getD 0 0)
/-- `FMIN` (R164). -/
def execFmin (d : Dst) (a b : Src) (s : State) : Out := compute (.fmin d a b) (uses3 d a b) s fun v => fpMin v.a v.b
/-- `FMAX` (R164). -/
def execFmax (d : Dst) (a b : Src) (s : State) : Out := compute (.fmax d a b) (uses3 d a b) s fun v => fpMax v.a v.b
/-- `FEQ` (R164). -/
def execFeq (d : Dst) (a b : Src) (s : State) : Out := compute (.feq d a b) (uses3 d a b) s fun v => b32 (fpEq v.a v.b)
/-- `FLT` (R164). -/
def execFlt (d : Dst) (a b : Src) (s : State) : Out := compute (.flt d a b) (uses3 d a b) s fun v => b32 (fpLt v.a v.b)
/-- `FLE` (R164). -/
def execFle (d : Dst) (a b : Src) (s : State) : Out := compute (.fle d a b) (uses3 d a b) s fun v => b32 (fpLe v.a v.b)
/-- `FCVTW` (R165). -/
def execFcvtw (d : Dst) (a : Src) (rm : Rnd) (s : State) : Out :=
  compute (.fcvtw d a rm) (uses2 d a) s fun v => fcvtw rm v.a
/-- `FCVTF` (R165): to nearest even. -/
def execFcvtf (d : Dst) (a : Src) (s : State) : Out := compute (.fcvtf d a) (uses2 d a) s fun v => intToFP .rne v.a.toInt
/-- `FCVTFN` (R165). -/
def execFcvtfn (d : Dst) (a : Src) (rm : Rnd) (s : State) : Out :=
  compute (.fcvtfn d a rm) (uses2 d a) s fun v => intToFP rm v.a.toNat

end Sys2Proof.Machine
end

