-- ==== Sys2Proof/Machine/System.lean ====
section
/-!
DEFINITION. Sys2Proof/Machine/System.lean: deliberate traps, returns, RESUME, YIELD, HALT, trace marks (R154 to R160), words
that are not instructions (R48), and imprecise-error and breakpoint events (R195, R211).
-/
namespace Sys2Proof.Machine
open Sys2Proof

/-- `TRAP` (R155): TRDETAIL receives A. Its queue operand stays in its queue, for the trap is precise (R41). -/
def execTrap (a : Src) (s : State) : Out :=
  gate (.trap a) { a } s fun v s => .next (raiseD s 0x08 v.a 0)

/-- `BRK` (R155, R210). -/
def execBrk (s : State) : Out :=
  gate .brk {} s fun _ s => .next (debugStop s s.cur 2 0 0)

/-- `ERET` (R156, R198). A saved address that is not word-aligned is MISALIGNED at it (R36). -/
def execEret (s : State) : Out :=
  gate .eret { floor := .supervisor } s fun _ s =>
    let c := s.core s.cur
    if c.tr.pc.toNat % 4 ≠ 0 ∧ !c.fenced then .next (raise .eret s 0x04 c.tr.pc)
    else .next (stepStop (trapReturn (s.updCore s.cur (fun c =>
      { c with dbg := { c.dbg with retired := c.dbg.retired + 1 } })) s.cur) s.cur)

/-- `UPRET` (R156): IN := 0, continue at UPPC at task level. -/
def execUpret (s : State) : Out :=
  gate .upret {} s fun _ s => .next (retire {} s false (fun c =>
    { c with up := { c.up with inH := false }, pc := c.up.pc, priv := .task }))

/-! RESUME. -/

/-- The first saved address word of an area that is not word-aligned, in the order UPPC, LS0, LE0, LS1, LE1 (R157). -/
def badArea (w : List Word) : Option Word :=
  ([31, 25, 26, 28, 29].map (fun i => w.getD i 0)).find? (fun x => x.toNat % 4 ≠ 0)

/-- Registers that the saved mask fills. -/
def areaFills (w : List Word) : List XReg :=
  (regsFrom 1 23).filter (fun n => (w.getD 23 0).getLsbD n.val)

/-- The restore of a fibre (R157). -/
def Core.restoreArea (c : Core) (w : List Word) (poison : Bool) : Core :=
  let g (i : Nat) : Word := w.getD i 0
  { c with
    regs := (areaFills w).foldl (fun r n => r.put n (g (n.val - 1)) poison) c.regs,
    loop0 := ⟨g 24, g 25, g 26, (g 30).getLsbD 0⟩, loop1 := ⟨g 27, g 28, g 29, (g 30).getLsbD 1⟩,
    up := { c.up with pc := g 31, inH := false }, pc := g 31, priv := .task }

/-- `RESUME` (R157): the area is read by the read move; its checks come before anything is restored; the causes that wait at the
registers it fills are delivered at it (R49, R432), and a register with an outstanding producer is waited for (R41). -/
def execResume (a : Src) (s : State) : Out :=
  let i : Instr := .resume a
  let u : Uses := { a, moves := true }
  gate i u s fun v s =>
    let k := s.cur
    if v.a.toNat % 4 ≠ 0 then .next (raise i s 0x04 v.a)
    else match translateRun s (coreDie k) (s.core k).masid .load (vaRange v.a.toNat 128) [] with
    | (.inr (cause, detail, va), s) => .next (raiseD s cause (detailOr i cause detail) (BitVec.ofNat 32 va))
    | (.inl pas, s) =>
      match readBytes s k (s.core k).pc v.a.toNat pas with
      | none => .next (stand i s)
      | some (bs, p, s) =>
        let w := wordsOf 32 bs
        match badArea w with
        | some x => .next (raise i s 0x04 x)
        | none =>
          let c := s.core k
          match c.firstWaiting (c.registerEngines (areaFills w)) with
          | some (e, x) => .next (deliverEngine s k e x)
          | none =>
          match (areaFills w).findSome? (fun n => (c.recorded n).map (fun r => (n, r))) with
          | some (n, cause, addr, detail) =>
            .next (deliver (s.updCore k (·.rearm n)) k cause (detailOr i cause detail) addr c.pc)
          | none =>
            if (areaFills w).any (fun n => (c.owner n).isSome) then .next (stand i s)
            else .next (retire u s v.poison (fun c => c.restoreArea w (v.poison || p)))

/-! Waiting and stopping. -/

/-- `YIELD` (R158): until an entry or message arrives, a pre-emption is asked for, or A ck have passed. -/
def execYield (a : Src) (s : State) : Out :=
  let i : Instr := .yield a
  let u : Uses := { a }
  gate i u s fun v s =>
    let s := stand i s
    let c := s.core s.cur
    if c.woken ∨ c.saveReq.isSome ∨ c.waitSince + v.a.toNat ≤ s.ck then .next (retireNext u s v.poison)
    else .next s

/-- YIELD_TIMEOUT (R158): the YIELD in which core k stands has waited its ck. -/
def execYieldTimeout (k : Nat) (s : State) : Out :=
  match (s.core k).standing with
  | some (.yield a) => atCoreOut s k (execYield a)
  | _ => .next s

/-- `HALT` (R159): it retires, then the core issues no more. -/
def execHalt (s : State) : Out :=
  gate .halt { floor := .supervisor } s fun _ s => .next (retire {} s false (fun c => { c.advance with run := .halted }))

/-- `TMARK` (R160): a mark record; it never waits. -/
def execTmark (a b : Src) (s : State) : Out :=
  act (.tmark a b) { a, b } s fun v s =>
    s.updCore s.cur (fun c => c.trace s.ck 0x1001 (BitVec.ofNat 32 (v.a.toNat % 65536)) v.b)

/-! Causes that are delivered by themselves. -/

/-- IMPRECISE_ERROR_DELIVERY (R195): the oldest pending error of a core at task level is taken at the instruction at which
it stands. -/
def execImpreciseErrorDelivery (k : Nat) (s : State) : Out :=
  let c := s.core k
  if c.priv = .task ∧ c.run = .running ∧ !c.tr.imp.isEmpty then .next (deliverImp s k) else .next s

/-- QUEUE_HELD_DELIVERY (R22): the oldest held result of a queue enters it. -/
def execQueueHeldDelivery (k q : Nat) (s : State) : Out :=
  if h : q < 7 then
    let n : Fin 7 := ⟨q, h⟩
    let c := s.core k
    match c.regs.held.find? (fun x => x.1 == q) with
    | some e =>
      if c.regs.q[n].length < 16 then
        .next (s.setCore k { c with
          regs := { c.regs.setQ n (c.regs.q[n] ++ [e.2]) with held := c.regs.held.erase e }, woken := true })
      else .next s
    | none => .next s
  else .next s

/-- The address breakpoint that the PC matches (R209, R211). -/
def Core.breakpoint (c : Core) : Option Nat :=
  (List.range 4).find? (fun n =>
    let w := (c.dbg.pa.getD n 0).toNat
    w % 2 == 1 && w / 4 == c.pc.toNat / 4)

/-- ADDRESS_BREAKPOINT_MATCH (R189, R211): taken at fetch, before ILLEGAL_OP. -/
def execAddressBreakpointMatch (k : Nat) (s : State) : Out :=
  match (s.core k).breakpoint with
  | some n => .next (debugStop s k 3 (BitVec.ofNat 32 (1 + 4 * n)) 0)
  | none => .next s

end Sys2Proof.Machine
end

