-- ==== Sys2Proof/Machine/Dispatch.lean ====
section
/-!
DEFINITION. Sys2Proof/Machine/Dispatch.lean: one arm per constructor of Instr, each one direct call of its meaning.
-/
namespace Sys2Proof.Machine

def exec (i : Instr) (s : State) : Host.Outcome State Fault Refusal :=
  match i with
  | .add d a b => Sys2Proof.Machine.execAdd d a b s
  | .sub d a b => Sys2Proof.Machine.execSub d a b s
  | .and d a b => Sys2Proof.Machine.execAnd d a b s
  | .or d a b => Sys2Proof.Machine.execOr d a b s
  | .xor d a b => Sys2Proof.Machine.execXor d a b s
  | .andn d a b => Sys2Proof.Machine.execAndn d a b s
  | .sll d a b => Sys2Proof.Machine.execSll d a b s
  | .srl d a b => Sys2Proof.Machine.execSrl d a b s
  | .sra d a b => Sys2Proof.Machine.execSra d a b s
  | .slt d a b => Sys2Proof.Machine.execSlt d a b s
  | .sltn d a b => Sys2Proof.Machine.execSltn d a b s
  | .min d a b => Sys2Proof.Machine.execMin d a b s
  | .max d a b => Sys2Proof.Machine.execMax d a b s
  | .minn d a b => Sys2Proof.Machine.execMinn d a b s
  | .maxn d a b => Sys2Proof.Machine.execMaxn d a b s
  | .mul d a b => Sys2Proof.Machine.execMul d a b s
  | .mulh d a b => Sys2Proof.Machine.execMulh d a b s
  | .mulhn d a b => Sys2Proof.Machine.execMulhn d a b s
  | .div d a b => Sys2Proof.Machine.execDiv d a b s
  | .divn d a b => Sys2Proof.Machine.execDivn d a b s
  | .rem d a b => Sys2Proof.Machine.execRem d a b s
  | .remn d a b => Sys2Proof.Machine.execRemn d a b s
  | .clz d a => Sys2Proof.Machine.execClz d a s
  | .pop d a => Sys2Proof.Machine.execPop d a s
  | .bext d a b => Sys2Proof.Machine.execBext d a b s
  | .bins d a b => Sys2Proof.Machine.execBins d a b s
  | .addi d a imm => Sys2Proof.Machine.execAddi d a imm s
  | .andi d a imm => Sys2Proof.Machine.execAndi d a imm s
  | .ori d a imm => Sys2Proof.Machine.execOri d a imm s
  | .xori d a imm => Sys2Proof.Machine.execXori d a imm s
  | .slti d a imm => Sys2Proof.Machine.execSlti d a imm s
  | .sltni d a imm => Sys2Proof.Machine.execSltni d a imm s
  | .slli d a n => Sys2Proof.Machine.execSlli d a n s
  | .srli d a n => Sys2Proof.Machine.execSrli d a n s
  | .srai d a n => Sys2Proof.Machine.execSrai d a n s
  | .lui d imm => Sys2Proof.Machine.execLui d imm s
  | .muli d a imm => Sys2Proof.Machine.execMuli d a imm s
  | .ldb d a off => Sys2Proof.Machine.execLdb d a off s
  | .ldbn d a off => Sys2Proof.Machine.execLdbn d a off s
  | .ldh d a off => Sys2Proof.Machine.execLdh d a off s
  | .ldhn d a off => Sys2Proof.Machine.execLdhn d a off s
  | .ldw d a off => Sys2Proof.Machine.execLdw d a off s
  | .pref write a off => Sys2Proof.Machine.execPref write a off s
  | .stb a b off => Sys2Proof.Machine.execStb a b off s
  | .sth a b off => Sys2Proof.Machine.execSth a b off s
  | .stw a b off => Sys2Proof.Machine.execStw a b off s
  | .rstw a b off => Sys2Proof.Machine.execRstw a b off s
  | .swp d a b o scp => Sys2Proof.Machine.execSwp d a b o scp s
  | .aadd d a b o scp => Sys2Proof.Machine.execAadd d a b o scp s
  | .aand d a b o scp => Sys2Proof.Machine.execAand d a b o scp s
  | .aor d a b o scp => Sys2Proof.Machine.execAor d a b o scp s
  | .axor d a b o scp => Sys2Proof.Machine.execAxor d a b o scp s
  | .amin d a b o scp => Sys2Proof.Machine.execAmin d a b o scp s
  | .amax d a b o scp => Sys2Proof.Machine.execAmax d a b o scp s
  | .aminn d a b o scp => Sys2Proof.Machine.execAminn d a b o scp s
  | .amaxn d a b o scp => Sys2Proof.Machine.execAmaxn d a b o scp s
  | .cas d a b so fo scp => Sys2Proof.Machine.execCas d a b so fo scp s
  | .beq a b off => Sys2Proof.Machine.execBeq a b off s
  | .bne a b off => Sys2Proof.Machine.execBne a b off s
  | .blt a b off => Sys2Proof.Machine.execBlt a b off s
  | .bge a b off => Sys2Proof.Machine.execBge a b off s
  | .bltn a b off => Sys2Proof.Machine.execBltn a b off s
  | .bgen a b off => Sys2Proof.Machine.execBgen a b off s
  | .jal d imm => Sys2Proof.Machine.execJal d imm s
  | .jalr d a off => Sys2Proof.Machine.execJalr d a off s
  | .loop count level len => Sys2Proof.Machine.execLoop count level len s
  | .bes eng flag off => Sys2Proof.Machine.execBes eng flag off s
  | .bec eng flag off => Sys2Proof.Machine.execBec eng flag off s
  | .align => Sys2Proof.Machine.execAlign s
  | .phase o scp => Sys2Proof.Machine.execPhase o scp s
  | .waitc c a => Sys2Proof.Machine.execWaitc c a s
  | .arrive o scp a => Sys2Proof.Machine.execArrive o scp a s
  | .await o scp a b => Sys2Proof.Machine.execAwait o scp a b s
  | .sstep a => Sys2Proof.Machine.execSstep a s
  | .efence => Sys2Proof.Machine.execEfence s
  | .icsync a b => Sys2Proof.Machine.execIcsync a b s
  | .send a b eb n => Sys2Proof.Machine.execSend a b eb n s
  | .sendb a b eb => Sys2Proof.Machine.execSendb a b eb s
  | .recv d a => Sys2Proof.Machine.execRecv d a s
  | .recvb d a b => Sys2Proof.Machine.execRecvb d a b s
  | .migr a => Sys2Proof.Machine.execMigr a s
  | .launch d a => Sys2Proof.Machine.execLaunch d a s
  | .take d => Sys2Proof.Machine.execTake d s
  | .pass a b eb => Sys2Proof.Machine.execPass a b eb s
  | .tdone => Sys2Proof.Machine.execTdone s
  | .mark a => Sys2Proof.Machine.execMark a s
  | .trap a => Sys2Proof.Machine.execTrap a s
  | .eret => Sys2Proof.Machine.execEret s
  | .upret => Sys2Proof.Machine.execUpret s
  | .resume a => Sys2Proof.Machine.execResume a s
  | .yield a => Sys2Proof.Machine.execYield a s
  | .halt => Sys2Proof.Machine.execHalt s
  | .brk => Sys2Proof.Machine.execBrk s
  | .tmark a b => Sys2Proof.Machine.execTmark a b s
  | .csrr d csr => Sys2Proof.Machine.execCsrr d csr s
  | .csrw d a csr => Sys2Proof.Machine.execCsrw d a csr s
  | .csrs d a csr => Sys2Proof.Machine.execCsrs d a csr s
  | .csrc d a csr => Sys2Proof.Machine.execCsrc d a csr s
  | .fadd d a b rm => Sys2Proof.Machine.execFadd d a b rm s
  | .fsub d a b rm => Sys2Proof.Machine.execFsub d a b rm s
  | .fmul d a b rm => Sys2Proof.Machine.execFmul d a b rm s
  | .ffma d a b rm => Sys2Proof.Machine.execFfma d a b rm s
  | .fmin d a b => Sys2Proof.Machine.execFmin d a b s
  | .fmax d a b => Sys2Proof.Machine.execFmax d a b s
  | .feq d a b => Sys2Proof.Machine.execFeq d a b s
  | .flt d a b => Sys2Proof.Machine.execFlt d a b s
  | .fle d a b => Sys2Proof.Machine.execFle d a b s
  | .fcvtw d a rm => Sys2Proof.Machine.execFcvtw d a rm s
  | .fcvtf d a => Sys2Proof.Machine.execFcvtf d a s
  | .fcvtfn d a rm => Sys2Proof.Machine.execFcvtfn d a rm s
  | .vadd d a b xs => Sys2Proof.Machine.execVadd d a b xs s
  | .vsub d a b xs => Sys2Proof.Machine.execVsub d a b xs s
  | .vmul d a b xs => Sys2Proof.Machine.execVmul d a b xs s
  | .vfma d a b c xs => Sys2Proof.Machine.execVfma d a b c xs s
  | .vmin d a b xs => Sys2Proof.Machine.execVmin d a b xs s
  | .vmax d a b xs => Sys2Proof.Machine.execVmax d a b xs s
  | .vabs d a => Sys2Proof.Machine.execVabs d a s
  | .vneg d a => Sys2Proof.Machine.execVneg d a s
  | .vcmp c d a b xs => Sys2Proof.Machine.execVcmp c d a b xs s
  | .vsel d a b c => Sys2Proof.Machine.execVsel d a b c s
  | .vand d a b xs => Sys2Proof.Machine.execVand d a b xs s
  | .vor d a b xs => Sys2Proof.Machine.execVor d a b xs s
  | .vxor d a b xs => Sys2Proof.Machine.execVxor d a b xs s
  | .vshl d a b xs => Sys2Proof.Machine.execVshl d a b xs s
  | .vshr d a b xs => Sys2Proof.Machine.execVshr d a b xs s
  | .vshrA d a b xs => Sys2Proof.Machine.execVshrA d a b xs s
  | .viadd d a b xs => Sys2Proof.Machine.execViadd d a b xs s
  | .vimul d a b xs => Sys2Proof.Machine.execVimul d a b xs s
  | .vcvt k d a => Sys2Proof.Machine.execVcvt k d a s
  | .vrcp d a => Sys2Proof.Machine.execVrcp d a s
  | .vrsq d a => Sys2Proof.Machine.execVrsq d a s
  | .vexp2 d a => Sys2Proof.Machine.execVexp2 d a s
  | .vlog2 d a => Sys2Proof.Machine.execVlog2 d a s
  | .vtanh d a => Sys2Proof.Machine.execVtanh d a s
  | .vred r a => Sys2Proof.Machine.execVred r a s
  | .vmovCopy d a => Sys2Proof.Machine.execVmovCopy d a s
  | .vmovBroadcast d xs => Sys2Proof.Machine.execVmovBroadcast d xs s
  | .vmovIdx d => Sys2Proof.Machine.execVmovIdx d s
  | .vmovGet a xs => Sys2Proof.Machine.execVmovGet a xs s
  | .vqnt f d a => Sys2Proof.Machine.execVqnt f d a s
  | .vdq f d a => Sys2Proof.Machine.execVdq f d a s
  | .vld f d xs => Sys2Proof.Machine.execVld f d xs s
  | .vst f a xs => Sys2Proof.Machine.execVst f a xs s
  | .vgth f d a xs => Sys2Proof.Machine.execVgth f d a xs s
  | .vsct f a b xs => Sys2Proof.Machine.execVsct f a b xs s
  | .vredput a xs => Sys2Proof.Machine.execVredput a xs s
  | .vredget d xs => Sys2Proof.Machine.execVredget d xs s
  | .vclaim d a => Sys2Proof.Machine.execVclaim d a s
  | .vrel => Sys2Proof.Machine.execVrel s
  | .vyield d a => Sys2Proof.Machine.execVyield d a s
  | .vloop a n => Sys2Proof.Machine.execVloop a n s
  | .mgeo a b => Sys2Proof.Machine.execMgeo a b s
  | .midx a => Sys2Proof.Machine.execMidx a s
  | .mmul a b => Sys2Proof.Machine.execMmul a b s
  | .mzero a => Sys2Proof.Machine.execMzero a s
  | .mscac => Sys2Proof.Machine.execMscac s
  | .mdrn a b => Sys2Proof.Machine.execMdrn a b s
  | .mchk d a => Sys2Proof.Machine.execMchk d a s
  | .gtw a b => Sys2Proof.Machine.execGtw a b s
  | .gtd a b => Sys2Proof.Machine.execGtd a b s
  | .gcmt d a => Sys2Proof.Machine.execGcmt d a s
  | .ginj a b => Sys2Proof.Machine.execGinj a b s
  | .gtake a b => Sys2Proof.Machine.execGtake a b s
  | .gctr d a b => Sys2Proof.Machine.execGctr d a b s
  | .gbind a b => Sys2Proof.Machine.execGbind a b s
  | .psbind d a => Sys2Proof.Machine.execPsbind d a s
  | .psread a b => Sys2Proof.Machine.execPsread a b s
  | .psadd a b => Sys2Proof.Machine.execPsadd a b s
  | .psmass d a => Sys2Proof.Machine.execPsmass d a s
  | .psdis d a => Sys2Proof.Machine.execPsdis d a s
  | .psjoin a b => Sys2Proof.Machine.execPsjoin a b s
  | .psleave a b => Sys2Proof.Machine.execPsleave a b s
  | .psqui a b => Sys2Proof.Machine.execPsqui a b s
  | .psstep a => Sys2Proof.Machine.execPsstep a s
  | .psheld d a => Sys2Proof.Machine.execPsheld d a s
  | .cpy d a => Sys2Proof.Machine.execCpy d a s
  | .stfl a b => Sys2Proof.Machine.execStfl a b s
  | .stiv a b => Sys2Proof.Machine.execStiv a b s
  | .stfil a b => Sys2Proof.Machine.execStfil a b s
  | .tlbinv a b => Sys2Proof.Machine.execTlbinv a b s
  | .demote a b => Sys2Proof.Machine.execDemote a b s
  | .promote a => Sys2Proof.Machine.execPromote a s
  | .divideComplete k n => Sys2Proof.Machine.execDivideComplete k n s
  | .loadComplete k n dest => Sys2Proof.Machine.execLoadComplete k n dest s
  | .loadTranslationFault k n => Sys2Proof.Machine.execLoadTranslationFault k n s
  | .alignRelease k => Sys2Proof.Machine.execAlignRelease k s
  | .land k => Sys2Proof.Machine.execLand k s
  | .awaitTest k => Sys2Proof.Machine.execAwaitTest k s
  | .stepGenerationComplete l => Sys2Proof.Machine.execStepGenerationComplete l s
  | .messageArrival k => Sys2Proof.Machine.execMessageArrival k s
  | .receive k n => Sys2Proof.Machine.execReceive k n s
  | .berthMove k ch => Sys2Proof.Machine.execBerthMove k ch s
  | .itemPush k => Sys2Proof.Machine.execItemPush k s
  | .yieldTimeout k => Sys2Proof.Machine.execYieldTimeout k s
  | .illegalWord w => Sys2Proof.Machine.execIllegalWord w s
  | .impreciseErrorDelivery k => Sys2Proof.Machine.execImpreciseErrorDelivery k s
  | .rearmedAccessComplete k n => Sys2Proof.Machine.execRearmedAccessComplete k n s
  | .queueHeldDelivery k q => Sys2Proof.Machine.execQueueHeldDelivery k q s
  | .engineAccept k => Sys2Proof.Machine.execEngineAccept k s
  | .engineRead k e => Sys2Proof.Machine.execEngineRead k e s
  | .engineComplete k e => Sys2Proof.Machine.execEngineComplete k e s
  | .kernelBoundary l => Sys2Proof.Machine.execKernelBoundary l s
  | .launchPartReceive l die => Sys2Proof.Machine.execLaunchPartReceive l die s
  | .dispatchAssign k l => Sys2Proof.Machine.execDispatchAssign k l s
  | .launchStarvationTimeout l die => Sys2Proof.Machine.execLaunchStarvationTimeout l die s
  | .withdrawnDieLeave l die => Sys2Proof.Machine.execWithdrawnDieLeave l die s
  | .addressBreakpointMatch k => Sys2Proof.Machine.execAddressBreakpointMatch k s
  | .dbgicinvComplete k => Sys2Proof.Machine.execDbgicinvComplete k s
  | .prectlSave k => Sys2Proof.Machine.execPrectlSave k s
  | .saveComplete k => Sys2Proof.Machine.execSaveComplete k s
  | .prectlRestore k => Sys2Proof.Machine.execPrectlRestore k s
  | .traceDrain k => Sys2Proof.Machine.execTraceDrain k s
  | .routerReduce die level idx tag => Sys2Proof.Machine.execRouterReduce die level idx tag s
  | .vectorEntryComplete k => Sys2Proof.Machine.execVectorEntryComplete k s
  | .grantRenegotiation k => Sys2Proof.Machine.execGrantRenegotiation k s
  | .matrixTileStart c k => Sys2Proof.Machine.execMatrixTileStart c k s
  | .galleryAdmit die c => Sys2Proof.Machine.execGalleryAdmit die c s
  | .galleryStage die n => Sys2Proof.Machine.execGalleryStage die n s
  | .galleryLeave die n => Sys2Proof.Machine.execGalleryLeave die n s
  | .exitBufferRelease die c => Sys2Proof.Machine.execExitBufferRelease die c s
  | .galleryShadowWrite k => Sys2Proof.Machine.execGalleryShadowWrite k s
  | .galleryCommit die c => Sys2Proof.Machine.execGalleryCommit die c s
  | .galleryShadowCopyDone die c => Sys2Proof.Machine.execGalleryShadowCopyDone die c s
  | .galleryBindEffect die c => Sys2Proof.Machine.execGalleryBindEffect die c s
  | .ferryRound die g => Sys2Proof.Machine.execFerryRound die g s
  | .ferryHalfArrival die n => Sys2Proof.Machine.execFerryHalfArrival die n s
  | .ferryAckArrival die n => Sys2Proof.Machine.execFerryAckArrival die n s
  | .ferryRefusalArrival die n => Sys2Proof.Machine.execFerryRefusalArrival die n s
  | .ferryHalfTimeout die b => Sys2Proof.Machine.execFerryHalfTimeout die b s
  | .ferryHandover die b => Sys2Proof.Machine.execFerryHandover die b s
  | .ferryCheckpointCopyDone k => Sys2Proof.Machine.execFerryCheckpointCopyDone k s
  | .copyRowRead k => Sys2Proof.Machine.execCopyRowRead k s
  | .tierMove n copy => Sys2Proof.Machine.execTierMove n copy s
  | .tierMoveRelease n => Sys2Proof.Machine.execTierMoveRelease n s
  | .wqTailStore q => Sys2Proof.Machine.execWqTailStore q s
  | .leaderElection => Sys2Proof.Machine.execLeaderElection s
  | .heartbeatTimeout die => Sys2Proof.Machine.execHeartbeatTimeout die s
  | .dieSetRequest l mask => Sys2Proof.Machine.execDieSetRequest l mask s
  | .wqctlWrite k v => Sys2Proof.Machine.execWqctlWrite k v s
  | .femaskWrite k v => Sys2Proof.Machine.execFemaskWrite k v s
  | .sramcfgWrite k v => Sys2Proof.Machine.execSramcfgWrite k v s
  | .lstatWrite k v => Sys2Proof.Machine.execLstatWrite k v s
  | .stbaseWrite k v => Sys2Proof.Machine.execStbaseWrite k v s
  | .dbgHaltreq k => Sys2Proof.Machine.execDbgHaltreq k s
  | .dbgResumereq k => Sys2Proof.Machine.execDbgResumereq k s
  | .dbgdataWrite k v => Sys2Proof.Machine.execDbgdataWrite k v s
  | .dbgmdataRead k => Sys2Proof.Machine.execDbgmdataRead k s
  | .dbgmdataWrite k v => Sys2Proof.Machine.execDbgmdataWrite k v s
  | .dbgicinvWrite k v => Sys2Proof.Machine.execDbgicinvWrite k v s
  | .npush k v => Sys2Proof.Machine.execNpush k v s
  | .imppop k => Sys2Proof.Machine.execImppop k s
  | .basinDefine k v => Sys2Proof.Machine.execBasinDefine k v s
  | .basinReset k => Sys2Proof.Machine.execBasinReset k s
  | .dieLost die => Sys2Proof.Machine.execDieLost die s
  | .matrixCsrWrite k csr v => Sys2Proof.Machine.execMatrixCsrWrite k csr v s
  | .telemetryCounterSample die => Sys2Proof.Machine.execTelemetryCounterSample die s
  | .powerSample die watts temp => Sys2Proof.Machine.execPowerSample die watts temp s
  | .gownWrite die c v => Sys2Proof.Machine.execGownWrite die c v s
  | .fgevqRead k => Sys2Proof.Machine.execFgevqRead k s
  | .fnbWrite k v => Sys2Proof.Machine.execFnbWrite k v s
  | .fgtagWrite k v => Sys2Proof.Machine.execFgtagWrite k v s
  | .fgownWrite die v => Sys2Proof.Machine.execFgownWrite die v s
  | .ferryidWrite die v => Sys2Proof.Machine.execFerryidWrite die v s
  | .fckctlGo k v => Sys2Proof.Machine.execFckctlGo k v s
  | .demotionEngineStart die part tier => Sys2Proof.Machine.execDemotionEngineStart die part tier s
  | .storageRingStatus part n ok => Sys2Proof.Machine.execStorageRingStatus part n ok s
  | .storqctlWrite k v => Sys2Proof.Machine.execStorqctlWrite k v s
  | .berthWrite k csr v => Sys2Proof.Machine.execBerthWrite k csr v s
  | .berthReconfigApply part rank => Sys2Proof.Machine.execBerthReconfigApply part rank s
  | .ranksetWrite k v => Sys2Proof.Machine.execRanksetWrite k v s
  | .pgctlWrite die v => Sys2Proof.Machine.execPgctlWrite die v s
  | .tgrantWrite die n v => Sys2Proof.Machine.execTgrantWrite die n v s
  | .quayPacketArrival p => Sys2Proof.Machine.execQuayPacketArrival p s
  | .e2eAckArrival peer seq ans => Sys2Proof.Machine.execE2eAckArrival peer seq ans s
  | .packetRetransmitTimeout peer seq => Sys2Proof.Machine.execPacketRetransmitTimeout peer seq s
  | .linkRemoved n => Sys2Proof.Machine.execLinkRemoved n s
  | .packageLost peer => Sys2Proof.Machine.execPackageLost peer s
  | .snpInv line data => Sys2Proof.Machine.execSnpInv line data s
  | .snpData line => Sys2Proof.Machine.execSnpData line s
  | .snpCur line => Sys2Proof.Machine.execSnpCur line s
  | .go k => Sys2Proof.Machine.execGo k s
  | .goWritePull k => Sys2Proof.Machine.execGoWritePull k s
  | .writePull k => Sys2Proof.Machine.execWritePull k s
  | .goErr k => Sys2Proof.Machine.execGoErr k s
  | .memRd line => Sys2Proof.Machine.execMemRd line s
  | .memWr line data => Sys2Proof.Machine.execMemWr line data s
  | .memWrPtl line mask data => Sys2Proof.Machine.execMemWrPtl line mask data s
  | .m2sRefused req rd => Sys2Proof.Machine.execM2sRefused req rd s
  | .skovazLinkLost => Sys2Proof.Machine.execSkovazLinkLost s
  | .powerOnReset up => Sys2Proof.Machine.execPowerOnReset up s
  | .recoveryImageLoad slot img => Sys2Proof.Machine.execRecoveryImageLoad slot img s
  | .recoveryKeyEnrol hash present => Sys2Proof.Machine.execRecoveryKeyEnrol hash present s
  | .bistctlGo die v => Sys2Proof.Machine.execBistctlGo die v s
  | .bistComplete die res => Sys2Proof.Machine.execBistComplete die res s
  | .remapGo die v => Sys2Proof.Machine.execRemapGo die v s
  | .partctlWrite die v => Sys2Proof.Machine.execPartctlWrite die v s
  | .clupartWrite die v => Sys2Proof.Machine.execClupartWrite die v s
  | .polctlGo k v => Sys2Proof.Machine.execPolctlGo k v s
  | .bbdataRead k => Sys2Proof.Machine.execBbdataRead k s
  | .blackBoxFlush die => Sys2Proof.Machine.execBlackBoxFlush die s
  | .inputPowerLoss => Sys2Proof.Machine.execInputPowerLoss s
  | .clockStep die up heat => Sys2Proof.Machine.execClockStep die up heat s
  | .junctionOverheat die => Sys2Proof.Machine.execJunctionOverheat die s
  | .linkReturn n => Sys2Proof.Machine.execLinkReturn n s
  | .uncorrectableErrorDetected line k dir => Sys2Proof.Machine.execUncorrectableErrorDetected line k dir s
  | .launchCancel l => Sys2Proof.Machine.execLaunchCancel l s

end Sys2Proof.Machine
end

