-- ==== Sys2Proof/Machine/Issue.lean ====
section
/-!
DEFINITION. Sys2Proof/Machine/Issue.lean: one turn of the move sequence (R166, R167): the issue of an instruction (R36, R49,
R103, R144, R195, R202, R210, R211), an event, the passing of time; and the order taken where the schedule names none
(log 1).
-/
namespace Sys2Proof.Machine
open Sys2Proof

/-- The core an event of the table is about, where it names one. -/
def eventCore : Instr → Option Nat
  | .divideComplete k _ | .loadComplete k _ _ | .loadTranslationFault k _ | .alignRelease k | .land k
  | .awaitTest k | .messageArrival k | .receive k _ | .berthMove k _ | .itemPush k | .yieldTimeout k
  | .impreciseErrorDelivery k | .rearmedAccessComplete k _ | .queueHeldDelivery k _ | .engineAccept k
  | .engineRead k _ | .engineComplete k _ | .dispatchAssign k _ | .wqctlWrite k _ | .femaskWrite k _
  | .sramcfgWrite k _ | .lstatWrite k _ | .stbaseWrite k _ | .addressBreakpointMatch k | .dbgHaltreq k
  | .dbgResumereq k | .dbgdataWrite k _ | .dbgmdataRead k | .dbgmdataWrite k _ | .dbgicinvWrite k _
  | .dbgicinvComplete k | .prectlSave k | .saveComplete k | .prectlRestore k | .npush k _ | .imppop k
  | .basinDefine k _ | .basinReset k | .traceDrain k | .vectorEntryComplete k | .grantRenegotiation k
  | .matrixCsrWrite k _ _ | .galleryShadowWrite k | .fgevqRead k | .fnbWrite k _ | .fgtagWrite k _
  | .fckctlGo k _ | .ferryCheckpointCopyDone k | .copyRowRead k | .storqctlWrite k _ | .berthWrite k _ _
  | .ranksetWrite k _ | .go k | .goWritePull k | .writePull k | .goErr k | .polctlGo k _ | .bbdataRead k
  | .uncorrectableErrorDetected _ k _ => some k
  | .matrixTileStart c _ => some (8 * c)
  | _ => none

/-- The die an event of the table is about, where it names one. -/
def eventDie : Instr → Option Nat
  | .launchPartReceive _ die | .launchStarvationTimeout _ die | .heartbeatTimeout die
  | .withdrawnDieLeave _ die | .dieLost die | .routerReduce die _ _ _ | .galleryAdmit die _
  | .galleryStage die _ | .galleryLeave die _ | .exitBufferRelease die _ | .galleryCommit die _
  | .galleryShadowCopyDone die _ | .galleryBindEffect die _ | .telemetryCounterSample die
  | .powerSample die _ _ | .gownWrite die _ _ | .ferryRound die _ | .ferryHalfArrival die _
  | .ferryAckArrival die _ | .ferryRefusalArrival die _ | .ferryHalfTimeout die _ | .ferryHandover die _
  | .fgownWrite die _ | .ferryidWrite die _ | .demotionEngineStart die _ _ | .pgctlWrite die _
  | .tgrantWrite die _ _ | .bistctlGo die _ | .bistComplete die _ | .remapGo die _ | .partctlWrite die _
  | .clupartWrite die _ | .blackBoxFlush die | .clockStep die _ _ | .junctionOverheat die => some die
  | _ => none

/-- The core's instruction at its PC: fetched through the port (R377), decoded, and executed; a word that is none takes the
cause of its first failed check (R48). TRDETAIL of a cause met by the fetch itself is a free value: no word is there; a PC
that a debugger or a save area left misaligned is MISALIGNED here (R36, log 37). -/
def fetchIssue (s : State) (k : Nat) : Out :=
  let pc := (s.core k).pc
  let cause (t : State) (cause : Nat) (detail : Word) : Out :=
    let d := if cause = 0x60 then detail else Config.freeWord t.fresh
    .next (raiseD { t with fresh := t.fresh + 1 } cause d pc)
  if pc.toNat % 4 ≠ 0 then cause s 0x04 0
  else match fetchWord s k pc with
  | .wait => .next s
  | .cause c detail t => cause t c detail
  | .word w t =>
    match decodeWord w with
    | .ok i => exec i t
    | .error _ => exec (.illegalWord w) t

/-- A core issues: the instruction in which it stands (R138), or the next one, past an address breakpoint (R189, R211). A
core that a SAVE stops takes its imprecise errors first (R202); a YIELD sees the request (R158). -/
def issueAt (s : State) (k : Nat) : Out :=
  let c := s.core k
  if c.run ≠ .running then .next s
  else if c.dbg.haltReq then .next (haltNow s k)
  else
    let yields := match c.standing with
      | some (.yield _) => true
      | _ => false
    if c.saveReq.isSome ∧ c.priv = .task ∧ !yields then .next (if c.tr.imp.isEmpty then s else deliverImp s k)
    else match c.standing with
    | some i => exec i s
    | none =>
      if c.breakpoint.isSome then exec (.addressBreakpointMatch k) s
      else fetchIssue s k

/-- One ck passes and core k issues. -/
def issue (s : State) (k : Nat) : Out := issueAt { s with cur := k, ck := s.ck + 1 } k

/-- A cluster drops a line of its instruction cache. -/
def dropLine (s : State) (c line : Nat) : State :=
  s.updCluster c (fun x => { x with icache := x.icache.filter (fun l => l.2.1 != line) })

/-- A core writes a dirty line back (R372): its value stands in memory already; the line is dirty no more. -/
def writeBack (s : State) (k line : Nat) : State :=
  s.updCore k (fun c => { c with dirty := c.dirty.filter (fun l => l.1 != line) })

/-- Core numbers of the package: 1,024 cores, then a service core a die (R13, R27). -/
def hasCore (k : Nat) : Bool := k < Config.cores + Config.dies

/-- An event takes place at the parties it names. A word of R47 is no event: it is issued by a core. -/
def eventTurn (s : State) (i : Instr) : Out :=
  if !(eventCore i).all hasCore then .fault .noSuchCore
  else if !(eventDie i).all (· < Config.dies) then .fault .noSuchDie
  else if i.isWord then .next s
  else match i with
  | .illegalWord _ => .next s
  | i => exec i s

/-- One turn. -/
def runTurn (t : Turn) (s : State) : Out :=
  match t with
  | .core k => if hasCore k then issue s k else .fault .noSuchCore
  | .event i => eventTurn s i
  | .tick n => .next { s with ck := s.ck + n }
  | .prefetch k => if hasCore k then .next (if (s.core k).run = .running then prefetch s k else s) else .fault .noSuchCore
  | .icDrop c line => if hasCore (8 * c) then .next (dropLine s c line) else .fault .noSuchCore
  | .writeBack k line => if hasCore k then .next (writeBack s k line) else .fault .noSuchCore

/-! The order taken where the schedule names none: the first move of the device that changes anything, else the next running
core issues. -/

/-- Moves that a core's state offers. -/
def coreMoves (k : Nat) (c : Core) : List Instr :=
  (if c.out.isEmpty then [] else [.land k]) ++
  ((List.range c.acc.length).map (fun n => [.loadComplete k n 0, .loadTranslationFault k n, .divideComplete k n, .receive k n,
    .rearmedAccessComplete k n])).flatten ++
  (if c.regs.held.isEmpty then [] else (List.range 7).map (.queueHeldDelivery k)) ++
  (match c.hand with
    | none => []
    | some (.item _) => [.itemPush k]
    | some (.msg _ _ _) => [.messageArrival k]
    | some _ => [.engineAccept k]) ++
  (if c.vec.seq.isEmpty && c.vec.reneg.isNone then [] else [.engineRead k .VX, .vectorEntryComplete k, .grantRenegotiation k]) ++
  (if c.mat.queue.isEmpty then [] else [.engineRead k .MX, .matrixTileStart (k / 8) (k % 8), .engineComplete k .MX]) ++
  (if c.cpy.queue.isEmpty then [] else [.engineRead k .CP, .copyRowRead k, .engineComplete k .CP]) ++
  (if c.gal.queue.isEmpty then [] else [.engineRead k .GL, .galleryShadowWrite k, .engineComplete k .GL]) ++
  (if c.fer.queue.isEmpty then [] else [.engineRead k .PS, .engineComplete k .PS]) ++
  (match c.standing with
    | some .align => [.alignRelease k]
    | _ => []) ++
  (if c.saveReq.isSome then [.saveComplete k] else []) ++
  (if c.dbg.icinv.isSome then [.dbgicinvComplete k] else []) ++
  (if c.rank.isSome then (List.range 16).map (.berthMove k) else []) ++
  (if c.sup.fckStatus = 1 then [.ferryCheckpointCopyDone k] else [])

/-- Moves that a die's state offers. -/
def dieMoves (d : Nat) (x : Die) : List Instr :=
  x.rowRouter.map (fun r => .routerReduce d 1 (r.1 / 16) (r.1 % 16)) ++
  x.rootRouter.map (fun r => .routerReduce d 2 0 r.1) ++
  (if x.gal.flight.isEmpty then [] else [.galleryLeave d 0]) ++
  (List.range x.gal.flight.length).map (.galleryStage d) ++
  (x.gal.cls.map (fun c => [.galleryAdmit d c.1, .exitBufferRelease d c.1, .galleryCommit d c.1, .galleryShadowCopyDone d c.1,
    .galleryBindEffect d c.1])).flatten ++
  ((List.range x.fer.transit.length).map (fun n => [.ferryHalfArrival d n, .ferryAckArrival d n, .ferryRefusalArrival d n])).flatten ++
  x.fer.blocks.map (fun b => .ferryHandover d b.1)

/-- Moves that a launch's state offers. -/
def launchMoves (l : Nat) (x : Launch) : List Instr :=
  if x.done then []
  else (List.range Config.dies).map (.launchPartReceive l) ++
    (x.parts.map (fun p => (p.2.clusters.map (fun c => (List.range 8).map (fun n => .dispatchAssign (8 * c + n) l))).flatten)).flatten ++
    [.stepGenerationComplete l, .kernelBoundary l]

/-- Moves of the device that the state offers, in one order. -/
def State.moves (s : State) : List Instr :=
  (s.cores.map (fun c => coreMoves c.1 c.2)).flatten ++
  (s.clusters.map (fun c => c.2.router.map (fun r => .routerReduce (c.1 / 16) 0 (c.1 % 16) r.1))).flatten ++
  (s.dies.map (fun d => dieMoves d.1 d.2)).flatten ++
  ((List.range s.ms.moves.length).map (fun n => [.tierMove n ⟨0, false⟩, .tierMoveRelease n])).flatten ++
  (s.launches.map (fun l => launchMoves l.1 l.2)).flatten

/-- A move changes something. -/
def effective (s : State) (i : Instr) : Bool :=
  match exec i s with
  | .next t => t != s
  | _ => false

/-- The running core after `cur`, in turn. -/
def State.nextCore (s : State) : Nat :=
  let run := (s.cores.filter (fun c => c.2.run == .running)).map (·.1)
  match run.find? (s.cur < ·) with
  | some k => k
  | none => run.headD s.cur

/-- The turn taken where the schedule names none (log 1). -/
def State.defaultTurn (s : State) : Turn :=
  match s.moves.find? (effective s) with
  | some i => .event i
  | none => .core s.nextCore

/-! Placing an instruction where a core fetches (log 38): what a launch does for a whole program (R87, R95). -/

/-- A mapping of the page of an address for instruction fetch at the port that serves it, first in the TLB: page n on
frame n, W and X. -/
def mapFetch (m : MemSys) (k asid va : Nat) : MemSys :=
  let page := va / 65536
  { m with tlb := ⟨coreDie k, hallBank asid va % 4, asid, page, 0, page, 0, true, true, true, 0⟩ :: m.tlb }

/-- Bytes at consecutive physical addresses, as contents that every party sees. -/
def placeBytes (m : MemSys) (pa : Nat) (bs : List Byte) : MemSys :=
  { m with
    hist := m.hist.filter (fun e => !(pa ≤ e.addr && e.addr < pa + bs.length)),
    mem := (bs.zipIdx).foldl (fun x b => memWrite x (pa + b.2) b.1) m.mem }

/-- Core `cur`, or core 0, runs at task level and has its next turn; the word stands at its PC. -/
def placeWord (s : State) (w : Word) : State :=
  let k := if s.cur < Config.cores then s.cur else 0
  let s := s.updCore k (fun c => { c with run := .running, priv := .task, standing := none, hand := none, fbuf := [] })
  let pc := (s.core k).pc.toNat
  let asid := (s.core k).masid
  let s := s.updMs (fun m => placeBytes (mapFetch m k asid pc) pc (wordBytes w))
  let s := s.updCluster (coreClu k) (fun x => { x with icache := x.icache.filter (fun l => l.2.1 != pc / 64) })
  { s with cur := k, sched := .core k :: s.sched }

end Sys2Proof.Machine
end

