-- ==== Sys2Proof/Machine/Step.lean ====
section
/-!
DEFINITION. Sys2Proof/Machine/Step.lean: one step of the package (R166, R167), and a word placed where the next step fetches.
-/
namespace Sys2Proof.Machine

/-- One step: the next turn of the schedule, or where it names none the turn of `defaultTurn`; what every party sees is then
contents of memory (R30, R31). -/
def step (s : State) : Host.Outcome State Fault Refusal :=
  let r := match s.sched with
    | t :: rest => runTurn t { s with sched := rest }
    | [] => runTurn s.defaultTurn s
  match r with
  | .next t => .next t.settle
  | .fault f => .fault f
  | .refused x => .refused x

/-- The state in which the next step fetches and runs the instruction whose bits are `w`: bits above `nbits` are 0. -/
def State.withFetchWord (s : State) (nbits w : Nat) : State :=
  placeWord s (BitVec.ofNat 32 (w % 2 ^ nbits))

end Sys2Proof.Machine
end

