-- ==== Sys2Proof/Safety.lean ====
section
/-!
DEFINITION. Sys2Proof/Safety.lean: the terms in which claims speak of a run: states that a step leaves, when an instruction
executes normally, and what its completion does and leaves alone.
-/
namespace Sys2Proof.Machine
open Sys2Proof

/-! Runs. -/

/-- The form in which every step leaves the memory system: its contents canonical, and no event that every party sees
waiting in a history (R30, R31). -/
def State.settled (s : State) : Bool := Memory.wf s.ms.mem && s.ms.hist.all (fun e => e.scope != .H)

/-- A machine stopped: its step answers a fault or a refusal. -/
def stops (s : State) : Prop := ∀ t, step s ≠ .next t

/-- A state that steps lead to from another. -/
inductive Reaches : State → State → Prop where
  | refl (s : State) : Reaches s s
  | step (s t u : State) : Reaches s t → step t = .next u → Reaches s u

/-- A safe run from a state never stops. -/
def safe (s : State) : Prop := ∀ t, Reaches s t → ¬ stops t

/-! When an instruction executes normally. -/

/-- The level allows an instruction whose lowest level is `floor` (R29, R154). -/
def Priv.allows (p floor : Priv) : Bool :=
  match floor, p with
  | .task, _ => true
  | .supervisor, .task => false
  | .supervisor, _ => true
  | .service, .service => true
  | .service, _ => false

/-- Every load of the core has made its read (R170 item 2). -/
def Core.readsDone (c : Core) : Bool :=
  c.acc.all (fun a => match a.op, a.st, a.dead with
    | .load _ _, .issued, false => false
    | _, _, _ => true)

/-- The instruction with operands `u` at which core `cur` stands meets none of the causes of R49 and waits for nothing: its
level suffices and no check of its own denies it, no engine's cause is delivered at it, its sources are full and its queues hold the
entries it pops, no loop fault, no recorded cause, no outstanding producer of a register that it writes at its issue, and no receive or
atomic that it must wait for (R41, R49, R148, R170). -/
def State.passes (s : State) (u : Uses) : Bool :=
  let c := s.core s.cur
  c.priv.allows u.floor && !u.denied && (c.engineCause u).isNone && (c.emptiness u.srcs []).all (fun x => !x.2.2) && !c.loopFault u.loop &&
    u.order.all (fun n => (c.recorded n).isNone) && (u.late || u.dests.all (fun n => (c.owner n).isNone)) &&
    !(u.moves && c.heldBack) && !(u.csr && c.acc.any (·.holdsBack))

/-- No single step stops the core behind its instruction (R189, R213). -/
def Core.unstepped (c : Core) : Bool := !c.dbg.step && !c.dbg.stepping

/-- The instruction executes normally, and completes without a further stop; one that pops q6, which acquires (R102), finds the
core's reads made. -/
def State.ready (s : State) (u : Uses) : Bool :=
  s.passes u && (s.core s.cur).unstepped && (!u.pops.contains 6 || (s.core s.cur).readsDone)

/-- Values of the operands of core `cur`. -/
def State.vals (s : State) (u : Uses) : Vals := (s.core s.cur).vals u

/-! What completion does and leaves alone. -/

/-- SRC of an imprecise-error record of core k (R196). -/
def State.impSrc (s : State) (k : Nat) : Word := BitVec.ofNat 32 (k % 1024 + (s.basinOf k).getD 0 * 1024)

/-- The record of poison consumed by core k's instruction (R194, R196). -/
def State.poisonRec (s : State) (k : Nat) : ImpRec := ⟨0x71, (s.core k).pc, 0, s.impSrc k⟩

/-- The ck for which core k's issue has stalled on an empty register (R318). -/
def State.stallTime (s : State) (k : Nat) : Nat := ((s.core k).emptySince.map (s.ck - ·)).getD 0

/-- `t` is what completion of core `cur`'s instruction makes of `s`, in which the instruction's own effect has been made: the
queues are popped, the core stands nowhere, consumed poison is recorded, one more instruction has retired, a stall on an empty register
is counted, the PC and the loop levels are those of `pcf`; a pop of q6 empties the snapshot, uses up the child notice popped and may free
its child slot (R102). NOTHING ELSE changes. -/
structure Retires (u : Uses) (poison : Bool) (pcf : Core → Core) (s t : State) : Prop where
  elsewhere : t = { s with cores := t.cores, dies := t.dies }
  others : ∀ j, j ≠ s.cur → t.core j = s.core j
  children : ∀ d, t.die d = { s.die d with children := (t.die d).children }
  dies : u.pops.contains 6 = false → t.dies = s.dies
  core : t.core s.cur = { s.core s.cur with
    regs := { (s.core s.cur).regs with q := (t.core s.cur).regs.q },
    pc := (pcf (s.core s.cur)).pc, loop0 := (pcf (s.core s.cur)).loop0, loop1 := (pcf (s.core s.cur)).loop1,
    standing := none, pubDone := false, hand := none, pops := [], handPoison := false, emptySince := none,
    notices := (s.core s.cur).notices.drop (u.pops.count 6),
    tr := { (s.core s.cur).tr with imp := (t.core s.cur).tr.imp },
    dbg := (t.core s.cur).dbg,
    snap := if u.pops.contains 6 then [] else (s.core s.cur).snap }
  queues : ∀ n : Fin 7, (t.core s.cur).regs.q[n] = ((s.core s.cur).regs.q[n]).drop (u.pops.count n)
  imprecise : (t.core s.cur).tr.imp = (s.core s.cur).tr.imp ++ (if poison then [s.poisonRec s.cur] else [])
  retired : (t.core s.cur).dbg.retired = (s.core s.cur).dbg.retired + 1
  debug : u.pops.contains 6 = false →
    (t.core s.cur).dbg = { (pcf (s.core s.cur)).dbg with
      retired := (s.core s.cur).dbg.retired + 1, stalled := (s.core s.cur).dbg.stalled + s.stallTime s.cur }

/-- Instruction `i` completes at `s`: `s'` is `s` with the instruction's own effect. -/
def Completes (i : Instr) (u : Uses) (poison : Bool) (pcf : Core → Core) (s s' : State) : Prop :=
  ∃ t, exec i s = .next t ∧ Retires u poison pcf s' t

/-- The core only stands at its instruction, a stall on an empty register counted: nothing else of the state changes. -/
structure Stands (i : Instr) (s t : State) : Prop where
  elsewhere : t = { s with cores := t.cores }
  others : ∀ j, j ≠ s.cur → t.core j = s.core j
  core : t.core s.cur = { s.core s.cur with
    standing := some i, waitSince := (t.core s.cur).waitSince, woken := (t.core s.cur).woken, freed := (t.core s.cur).freed,
    emptySince := none, dbg := { (s.core s.cur).dbg with stalled := (s.core s.cur).dbg.stalled + s.stallTime s.cur } }

end Sys2Proof.Machine
end

