-- ==== Sys2Proof/Certificates/Slice0/Obligations.lean ====
section
/-! DEFINITION. The statements for the provers, OBLIGATIONS.json's O1 to O60, with the terms that they are written in
(namespace Sys2Proof.Claims). A statement of several parts is the conjunction of the definitions that it names, each with the
rules that it follows. -/

namespace Sys2Proof.Claims
open Sys2Proof Sys2Proof.Machine

/-- The outcome of a step: what the move answers, settled. -/
def settled' : Out → Out
  | .next t => .next t.settle
  | .fault f => .fault f
  | .refused r => .refused r

/-- A core that has completed an instruction at a ck: it stands in none, offers nothing, one more instruction has retired, and a stall on
an empty register is counted (R318). -/
def completed (ck : Nat) (c : Core) : Core :=
  { c with
    standing := none, pubDone := false, hand := none, pops := [], handPoison := false, emptySince := none,
    dbg := { c.dbg with
      retired := c.dbg.retired + 1, stalled := c.dbg.stalled + (c.emptySince.map (ck - ·)).getD 0 } }

/-- A byte of a leaf from which a held translation was made: there the device sets D at the first write of the page toward memory (R376,
R380). -/
def leafByte (s : State) (x : Nat) : Prop := ∃ e ∈ s.ms.tlb, ∃ i, i ≤ e.run ∧ x = e.leaf + 8 * i

end Sys2Proof.Claims

/-! ## Encoding -/

section
open Sys2Proof Sys2Proof.Machine Sys2Proof.Claims

/-- R43 to R48: words written out from the tables of fields decode to the instruction that the tables name, a word of each
format; the first four and the two refused ones are the spec's own worked encodings. A sanity check. -/
def Obligations.DecodedWords : Prop :=
  decodeWord 0x04642C00 = .ok (.add (.x 3) ⟨.x 4, true⟩ ⟨.x 5, false⟩) ∧
  decodeWord 0xB0002400 = .ok (.phase .rel .D) ∧
  decodeWord 0x84603FFE = .ok (.bne ⟨.x 3, false⟩ ⟨.x 0, false⟩ (-2)) ∧
  decodeWord 0xA0E40005 = .ok (.loop ⟨.x 7, false⟩ true 5) ∧
  decodeWord 0xB0002600 = .error .reservedField ∧
  decodeWord 0xB0002411 = .error .illegalOp

/-- R35, R43 to R47: the bytes of every well-formed instruction, the least significant first, decode to that instruction with
every operand, and leave the bytes after them. -/
def Obligations.DecodeEncodeAgree : Prop :=
  ∀ (i : Instr) (rest : List Byte), i.isWord = true → i.wellFormed = true →
    decode (bytesOfWord (encode i) ++ rest) = .ok (i, rest)

/-- R48: a word that decodes is the word of that instruction alone, and the instruction is well formed: no bit of a word is
ignored, and no two instructions share a word. -/
def Sys2Proof.Claims.EncodeDecodeAgree : Prop :=
  ∀ (w : Word) (i : Instr), decodeWord w = .ok i → i.isWord = true ∧ i.wellFormed = true ∧ encode i = w

/-- R47, R48: the major opcodes absent from the map are no instruction's, whatever the other bits. -/
def Sys2Proof.Claims.AbsentOpcodes : Prop :=
  ∀ w : Word, w.toNat / 2 ^ 26 ∈ [0x00, 0x0B, 0x0C, 0x0D, 0x0E, 0x0F, 0x1C, 0x1D, 0x1E, 0x1F, 0x2B, 0x2D, 0x31, 0x32, 0x33, 0x37,
      0x3C, 0x3D, 0x3E, 0x3F] → decodeWord w = .error .illegalOp

end

/-! ## The machine as a whole -/

section
open Sys2Proof Sys2Proof.Machine Sys2Proof.Claims

/-- What reset leaves, by the tables' reset columns: R84 (UPSTAT), R82 (ALIGNLIM), R85 (SRAMCFG), R86 (GROUP), R186 (TRSTAT),
R223 (VSTRIDE, VLIM, VFUSE, VFAULT), R266 (MWEIGHT), R340 (FTMO), R418 (PWRLIM), R430 (TGRANT), for every core, cluster, die
and partition of the package; and R199: registers zero and full, queues empty, every core idle. -/
def Sys2Proof.Claims.ResetState : Prop :=
  (∀ k, k < 1024 →
    let c := State.reset.core k
    c.up.en = false ∧ c.up.inH = false ∧ c.alignlim = 4096 ∧ c.cache = 4 ∧ c.group = 2 ^ (k % 8) ∧
    c.tr.fromSup = false ∧ c.tr.re = false ∧ c.tr.double = false ∧
    c.vec.stride = 0 ∧ c.vec.lim = 64 ∧ c.vec.fuse = false ∧ c.vec.flt.fault = false ∧
    c.run = .idle ∧ (∀ n : XReg, c.regs.get n = 0 ∧ c.regs.isFull n = true) ∧ (∀ q : Fin 7, c.regs.q[q] = [])) ∧
  (∀ n, (State.reset.cluster n).mweight = 0) ∧
  (∀ d, (State.reset.die d).fer.ftmo = 4096 ∧ (State.reset.die d).basins = []) ∧
  State.reset.pwrlim = 3600 ∧
  (∀ p, (State.reset.part p).valid = false ∧ (State.reset.part p).tgrant = [0, 0, 0] ∧ (State.reset.part p).ranklog = 12)

/-- The model's rule that what every party sees is contents of memory (R30, R31), in one canonical list: every step that answers
a next state leaves it so, from any state. The form itself is the model's. -/
def Obligations.StepKeepsMemoryCanonical : Prop :=
  ∀ s t : State, step s = .next t → t.settled = true

/-- Reset has that form. -/
def Sys2Proof.Claims.ResetMemoryCanonical : Prop := State.reset.settled = true

/-- R30, R31: folding events into contents changes no party's read of any byte. -/
def Sys2Proof.Claims.SettlingKeepsReads : Prop :=
  ∀ (s : State) (r : Party) (a : Nat), Memory.wf s.ms.mem = true → s.settle.ms.byteAt r a = s.ms.byteAt r a

/-- R30, R31: a byte that a party stores to a place (an event of its own) is what every party that the event's scope covers reads
there, and no other read of any byte changes: other parties read what they read before, and other bytes too. -/
def Sys2Proof.Claims.PublishedByteReads : Prop :=
  ∀ (m : MemSys) (a : Nat) (b : Byte) (sc : Scope) (o r : Party) (l : Option Nat) (x : Nat),
    (m.append [(a, b)] sc o l).byteAt r x =
      if x = a ∧ covers sc o r = true then b else m.byteAt r x

/-- R36, R48, R103, R138: a running core, not asked to halt, standing in no instruction, with no breakpoint at an aligned PC, takes
its turn: one ck passes, the word at the PC is fetched, and the step does exactly what the word's instruction does, or, for a word
that is none, takes the cause of its first failed check. After it, what every party sees is contents of memory. -/
def Sys2Proof.Claims.StepRunsDecoded : Prop :=
  ∀ (s t : State) (k : Nat) (rest : List Turn) (w : Word), s.sched = .core k :: rest → k < 1032 →
    (s.core k).run = .running → (s.core k).dbg.haltReq = false → (s.core k).saveReq = none → (s.core k).standing = none →
    (s.core k).breakpoint = none → (s.core k).pc.toNat % 4 = 0 →
    fetchWord { s with sched := rest, cur := k, ck := s.ck + 1 } k (s.core k).pc = .word w t →
    step s = settled' (match decodeWord w with
      | .ok i => exec i t
      | .error _ => exec (.illegalWord w) t)

/-- R35, R144, R377: the word that a core fetches is the four bytes at the physical address of its PC, the least significant at the
lowest address, as its cluster sees memory; with an empty fetch buffer and no line of its address space in the instruction cache,
where an entry of the TLB maps the page for fetching and the line is not owned. The line enters the cache of 2,048 lines. -/
def Sys2Proof.Claims.FetchReadsMemory : Prop :=
  ∀ (s : State) (k : Nat) (e : TlbEntry), k < 1024 →
    let c := s.core k
    let pc := c.pc.toNat
    let pa := (e.frame + (pc / 65536 - e.page)) * 65536 + pc % 65536
    pc % 4 = 0 → c.fbuf = [] →
    (s.cluster (k / 8)).icache.find? (fun l => l.1 == c.masid && l.2.1 == pc / 64) = none →
    s.inBerth c.masid pc = false → s.inBlock c.masid pc = false →
    s.ms.tlb.find? (·.covers (coreDie k) (hallBank c.masid pc % 4) c.masid (pc / 65536)) = some e → e.x = true →
    s.ms.owned (pa / 64) = false →
    fetchWord s k c.pc = .word
      (BitVec.ofNat 32 (((List.range 4).map (fun i => (s.ms.byteAt (.cluster (k / 8)) (pa + i)).toNat * 256 ^ i)).sum))
      (s.updCluster (k / 8) (fun x =>
        { x with icache := ((c.masid, pc / 64, (List.range 64).map (fun i => s.ms.byteAt (.cluster (k / 8)) (pa / 64 * 64 + i))) :: x.icache).take 2048 }))

/-- A word placed after reset by the model's loading interface is what the next step fetches and runs: one statement for every word
that decodes (log 38). -/
def Sys2Proof.Claims.PlacedWordRuns : Prop :=
  ∀ (w : Word) (i : Instr), decodeWord w = .ok i → ∃ t : State,
    step (State.reset.withFetchWord 32 w.toNat) = settled' (exec i t) ∧ t.cur = 0 ∧ (t.core 0).pc = (State.reset.core 0).pc ∧
    (t.core 0).run = .running ∧ (t.core 0).regs = (State.reset.core 0).regs ∧ (t.core 0).priv = .task

/-- R166, R167: an event of the table that the schedule names takes place as a move of its own, and changes no core's turn. -/
def Sys2Proof.Claims.StepTakesEvents : Prop :=
  ∀ (s : State) (i : Instr) (rest : List Turn), s.sched = .event i :: rest → i.isWord = false → (∀ w, i ≠ .illegalWord w) →
    (∀ k, eventCore i = some k → k < 1032) → (∀ d, eventDie i = some d → d < 8) →
    step s = settled' (exec i { s with sched := rest })

end

/-! Integer and float results. -/
namespace Sys2Proof.Claims
open Sys2Proof Sys2Proof.Machine

/-- Bit i of a word. -/
def bitOf (w : Word) (i : Nat) : Bool := w.toNat / 2 ^ i % 2 == 1
/-- The word whose bit i is `f i`. -/
def ofBits (f : Nat → Bool) : Word := BitVec.ofNat 32 (((List.range 32).map (fun i => if f i then 2 ^ i else 0)).sum)
def signed (w : Word) : Int := if w.toNat < 2 ^ 31 then (w.toNat : Int) else (w.toNat : Int) - 2 ^ 32
def wrap (i : Int) : Word := BitVec.ofNat 32 (i % 2 ^ 32).toNat
/-- SignExt of a field (R42). -/
def signExt {n : Nat} (v : BitVec n) : Int := if v.toNat < 2 ^ (n - 1) then (v.toNat : Int) else (v.toNat : Int) - 2 ^ n

/-- Operands and result of each instruction of R110 to R120 that writes its register when it completes, in the terms of those
rules: numbers, and bits. -/
def intOp : Instr → Option (Uses × (Vals → Word))
  | .add d a b => some ({ a, b, dst := some d }, fun v => BitVec.ofNat 32 ((v.a.toNat + v.b.toNat) % 2 ^ 32))
  | .sub d a b => some ({ a, b, dst := some d }, fun v => wrap ((v.a.toNat : Int) - v.b.toNat))
  | .and d a b => some ({ a, b, dst := some d }, fun v => ofBits (fun i => bitOf v.a i && bitOf v.b i))
  | .or d a b => some ({ a, b, dst := some d }, fun v => ofBits (fun i => bitOf v.a i || bitOf v.b i))
  | .xor d a b => some ({ a, b, dst := some d }, fun v => ofBits (fun i => bitOf v.a i != bitOf v.b i))
  | .andn d a b => some ({ a, b, dst := some d }, fun v => ofBits (fun i => bitOf v.a i && !bitOf v.b i))
  | .sll d a b => some ({ a, b, dst := some d }, fun v => BitVec.ofNat 32 (v.a.toNat * 2 ^ (v.b.toNat % 32)))
  | .srl d a b => some ({ a, b, dst := some d }, fun v => BitVec.ofNat 32 (v.a.toNat / 2 ^ (v.b.toNat % 32)))
  | .sra d a b => some ({ a, b, dst := some d }, fun v => wrap (signed v.a / 2 ^ (v.b.toNat % 32)))
  | .slt d a b => some ({ a, b, dst := some d }, fun v => if signed v.a < signed v.b then 1 else 0)
  | .sltn d a b => some ({ a, b, dst := some d }, fun v => if v.a.toNat < v.b.toNat then 1 else 0)
  | .min d a b => some ({ a, b, dst := some d }, fun v => wrap (min (signed v.a) (signed v.b)))
  | .max d a b => some ({ a, b, dst := some d }, fun v => wrap (max (signed v.a) (signed v.b)))
  | .minn d a b => some ({ a, b, dst := some d }, fun v => BitVec.ofNat 32 (min v.a.toNat v.b.toNat))
  | .maxn d a b => some ({ a, b, dst := some d }, fun v => BitVec.ofNat 32 (max v.a.toNat v.b.toNat))
  | .mul d a b => some ({ a, b, dst := some d }, fun v => BitVec.ofNat 32 (v.a.toNat * v.b.toNat % 2 ^ 32))
  | .mulh d a b => some ({ a, b, dst := some d }, fun v => wrap (signed v.a * signed v.b / 2 ^ 32))
  | .mulhn d a b => some ({ a, b, dst := some d }, fun v => BitVec.ofNat 32 (v.a.toNat * v.b.toNat / 2 ^ 32))
  | .clz d a => some ({ a, dst := some d }, fun v =>
      BitVec.ofNat 32 ((List.range 32).reverse.takeWhile (fun i => !bitOf v.a i)).length)
  | .pop d a => some ({ a, dst := some d }, fun v => BitVec.ofNat 32 ((List.range 32).filter (bitOf v.a)).length)
  | .bext d a b => some ({ a, b, dst := some d }, fun v =>
      ofBits (fun i => i ≤ v.b.toNat / 32 % 32 && i + v.b.toNat % 32 < 32 && bitOf v.a (i + v.b.toNat % 32)))
  | .bins d a b => some ({ a, b, ds := [d], dst := some (.x d) }, fun v => ofBits (fun i =>
      if v.b.toNat % 32 ≤ i ∧ i ≤ v.b.toNat % 32 + v.b.toNat / 32 % 32 then bitOf v.a (i - v.b.toNat % 32) else bitOf (v.ds.getD 0 0) i))
  | .addi d a k => some ({ a, dst := some d }, fun v => wrap (v.a.toNat + signExt k))
  | .andi d a k => some ({ a, dst := some d }, fun v => ofBits (fun i => bitOf v.a i && k.toNat / 2 ^ i % 2 == 1))
  | .ori d a k => some ({ a, dst := some d }, fun v => ofBits (fun i => bitOf v.a i || k.toNat / 2 ^ i % 2 == 1))
  | .xori d a k => some ({ a, dst := some d }, fun v => ofBits (fun i => bitOf v.a i != (k.toNat / 2 ^ i % 2 == 1)))
  | .slti d a k => some ({ a, dst := some d }, fun v => if signed v.a < signExt k then 1 else 0)
  | .sltni d a k => some ({ a, dst := some d }, fun v => if (v.a.toNat : Int) < signExt k % 2 ^ 32 then 1 else 0)
  | .slli d a n => some ({ a, dst := some d }, fun v => BitVec.ofNat 32 (v.a.toNat * 2 ^ n.toNat))
  | .srli d a n => some ({ a, dst := some d }, fun v => BitVec.ofNat 32 (v.a.toNat / 2 ^ n.toNat))
  | .srai d a n => some ({ a, dst := some d }, fun v => wrap (signed v.a / 2 ^ n.toNat))
  | .lui d k => some ({ dst := some d }, fun _ => BitVec.ofNat 32 (k.toNat * 2 ^ 11))
  | .muli d a k => some ({ a, dst := some d }, fun v => wrap (v.a.toNat * signExt k))
  | _ => none

/-- Number of a destination and of a source (R44). -/
def dstField : Dst → Nat
  | .x n => n.val
  | .q7 => 31
def srcField (a : Src) : Nat := match a.reg with
  | .x n => n.val
  | .q n => 24 + n.val
/-- A word of format R with op 1, and one of format I, from their tables of fields. -/
def wordR (d : Nat) (a : Src) (b : Option Src) (fn : Nat) : Nat :=
  1 * 2 ^ 26 + d * 2 ^ 21 + srcField a * 2 ^ 16 + (b.map srcField).getD 0 * 2 ^ 11 + (if a.e then 2 ^ 10 else 0) +
    (if (b.map Src.e).getD false then 2 ^ 9 else 0) + fn
def wordI (op : Nat) (d : Dst) (a : Src) (imm : Nat) : Nat :=
  op * 2 ^ 26 + dstField d * 2 ^ 21 + srcField a * 2 ^ 16 + (if a.e then 2 ^ 15 else 0) + imm
/-- The words of the instructions of `intOp`, by the op and fn columns of R110 to R120. -/
def intWord : Instr → Option Nat
  | .add d a b => some (wordR (dstField d) a (some b) 0)
  | .sub d a b => some (wordR (dstField d) a (some b) 1)
  | .and d a b => some (wordR (dstField d) a (some b) 2)
  | .or d a b => some (wordR (dstField d) a (some b) 3)
  | .xor d a b => some (wordR (dstField d) a (some b) 4)
  | .andn d a b => some (wordR (dstField d) a (some b) 5)
  | .sll d a b => some (wordR (dstField d) a (some b) 6)
  | .srl d a b => some (wordR (dstField d) a (some b) 7)
  | .sra d a b => some (wordR (dstField d) a (some b) 8)
  | .slt d a b => some (wordR (dstField d) a (some b) 9)
  | .sltn d a b => some (wordR (dstField d) a (some b) 10)
  | .min d a b => some (wordR (dstField d) a (some b) 11)
  | .max d a b => some (wordR (dstField d) a (some b) 12)
  | .minn d a b => some (wordR (dstField d) a (some b) 13)
  | .maxn d a b => some (wordR (dstField d) a (some b) 14)
  | .mul d a b => some (wordR (dstField d) a (some b) 15)
  | .mulh d a b => some (wordR (dstField d) a (some b) 16)
  | .mulhn d a b => some (wordR (dstField d) a (some b) 17)
  | .clz d a => some (wordR (dstField d) a none 22)
  | .pop d a => some (wordR (dstField d) a none 23)
  | .bext d a b => some (wordR (dstField d) a (some b) 24)
  | .bins d a b => some (wordR d.val a (some b) 25)
  | .addi d a k => some (wordI 2 d a k.toNat)
  | .andi d a k => some (wordI 3 d a k.toNat)
  | .ori d a k => some (wordI 4 d a k.toNat)
  | .xori d a k => some (wordI 5 d a k.toNat)
  | .slti d a k => some (wordI 6 d a k.toNat)
  | .sltni d a k => some (wordI 7 d a k.toNat)
  | .slli d a n => some (wordI 8 d a n.toNat)
  | .srli d a n => some (wordI 8 d a (2 ^ 13 + n.toNat))
  | .srai d a n => some (wordI 8 d a (2 * 2 ^ 13 + n.toNat))
  | .lui d k => some (9 * 2 ^ 26 + dstField d * 2 ^ 21 + k.toNat)
  | .muli d a k => some (wordI 10 d a k.toNat)
  | _ => none

end Sys2Proof.Claims

/-- R110 to R113, R115 to R120, with R36, R41, R132 and R194 for the completion: an integer instruction that meets none of the
causes of R49 writes d as its table says and changes nothing else but what completion changes. -/
def Sys2Proof.Claims.IntegerResults : Prop :=
  ∀ (i : Sys2Proof.Instr) (s : Sys2Proof.Machine.State) (u : Sys2Proof.Machine.Uses) (f : Sys2Proof.Machine.Vals → Sys2Proof.Word)
    (d : Sys2Proof.Dst),
    Sys2Proof.Claims.intOp i = some (u, f) → u.dst = some d → s.ready u = true →
    ∃ t, Sys2Proof.Machine.exec i s = .next t ∧
      Sys2Proof.Machine.Retires u (s.vals u).poison Sys2Proof.Machine.Core.advance
        (s.updCore s.cur (fun c => c.writeDst s.ck d (f (s.vals u)) (s.vals u).poison)) t

/-- R110 to R113, R115 to R120: the word of each of those instructions, from the op and fn columns of the same tables. -/
def Sys2Proof.Claims.IntegerWords : Prop :=
  ∀ (i : Sys2Proof.Instr) (w : Nat), Sys2Proof.Claims.intWord i = some w → (Sys2Proof.encode i).toNat = w

/-! Divides, floating point. -/
namespace Sys2Proof.Claims
open Sys2Proof Sys2Proof.Machine

/-- The quotient truncated toward zero. -/
def quotient (x y : Int) : Int :=
  if (x < 0) = (y < 0) then ((x.natAbs / y.natAbs : Nat) : Int) else -((x.natAbs / y.natAbs : Nat) : Int)

/-- Operands and value of the divides of R114: truncation toward zero, the remainder with the sign of the dividend, and the values
for a divisor of 0. -/
def divOp : Instr → Option (Dst × Src × Src × (Word → Word → Word))
  | .div d a b => some (d, a, b, fun x y => if y.toNat = 0 then wrap (-1) else wrap (quotient (signed x) (signed y)))
  | .divn d a b => some (d, a, b, fun x y => if y.toNat = 0 then wrap (-1) else BitVec.ofNat 32 (x.toNat / y.toNat))
  | .rem d a b => some (d, a, b, fun x y =>
      if y.toNat = 0 then x else wrap (signed x - signed y * quotient (signed x) (signed y)))
  | .remn d a b => some (d, a, b, fun x y => if y.toNat = 0 then x else BitVec.ofNat 32 (x.toNat - y.toNat * (x.toNat / y.toNat)))
  | _ => none

/-- A producer's destination at its issue: marked empty, but for x0 and q7 (R41). -/
def emptied (d : Dst) (r : Regs) : Regs :=
  match d with
  | .x n => r.empty n
  | .q7 => r

/-- The n-th producer of a core writes its value and is outstanding no longer; one of a task that has ended only goes (R88). -/
def produced (ck n : Nat) (a : Access) (v : Word) (poison : Bool) (c : Core) : Core :=
  let c := { c with acc := c.acc.eraseIdx n }
  if a.dead then c else c.writeDst ck a.d v poison

/-! FP32 (R55). -/

def expField (w : Word) : Nat := w.toNat / 2 ^ 23 % 2 ^ 8
def fracField (w : Word) : Nat := w.toNat % 2 ^ 23
def negative (w : Word) : Bool := 2 ^ 31 ≤ w.toNat
def finite (w : Word) : Bool := expField w < 255
def nan (w : Word) : Bool := expField w == 255 && fracField w != 0
/-- Magnitude in units of 2^-149, the smallest subnormal; an infinity stands at 2^128. -/
def magnitude (w : Word) : Nat :=
  if expField w = 0 then fracField w else if expField w = 255 then 2 ^ 277 else (2 ^ 23 + fracField w) * 2 ^ (expField w - 1)
/-- The value of a word that is no NaN, in those units. -/
def units (w : Word) : Int := if negative w then -(magnitude w : Int) else magnitude w

/-- `r` is the rounding of x / 2^k units in a mode (R59): the nearest value, of two nearest the even one; or the nearest value not
beyond x toward zero, or not above it, or not below it. An infinity takes part where the mode may reach it. -/
def IsRounding (rm : Rnd) (x : Int) (k : Nat) (r : Word) : Prop :=
  match rm with
  | .rne => nan r = false ∧ ∀ w, nan w = false →
      (x - units r * 2 ^ k).natAbs ≤ (x - units w * 2 ^ k).natAbs ∧
      ((x - units r * 2 ^ k).natAbs = (x - units w * 2 ^ k).natAbs → units w ≠ units r → fracField r % 2 = 0)
  | .rtz => finite r = true ∧ magnitude r * 2 ^ k ≤ x.natAbs ∧
      ∀ w, finite w = true → magnitude w * 2 ^ k ≤ x.natAbs → magnitude w ≤ magnitude r
  | .rdn => (finite r = true ∧ units r * 2 ^ k ≤ x ∧ ∀ w, finite w = true → units w * 2 ^ k ≤ x → units w ≤ units r) ∨
      (r = 0xFF800000 ∧ ∀ w, finite w = true → x < units w * 2 ^ k)
  | .rup => (finite r = true ∧ x ≤ units r * 2 ^ k ∧ ∀ w, finite w = true → x ≤ units w * 2 ^ k → units r ≤ units w) ∨
      (r = 0x7F800000 ∧ ∀ w, finite w = true → units w * 2 ^ k < x)

/-- The zero that an exact sum or product of zero gives (R57): the sign that all its terms share, else −0 under RDN and +0 under
the other modes. -/
def zeroOf (rm : Rnd) (neg : List Bool) : Word :=
  if neg.all (· == true) then 0x80000000 else if neg.all (· == false) then 0 else if rm = .rdn then 0x80000000 else 0

/-- The lesser of two words that are no NaN, −0 below +0 (R60). -/
def below (a b : Word) : Bool := units a < units b || (units a == units b && negative a)

/-- Operands and result of the scalar FP32 instructions (R163 to R165); of the arithmetic and conversions by the model's rounding
functions, whose meaning `FloatRounding` gives. -/
def floatOp : Instr → Option (Uses × (Vals → Word))
  | .fadd d a b rm => some ({ a, b, dst := some d }, fun v => fpAdd rm v.a v.b)
  | .fsub d a b rm => some ({ a, b, dst := some d }, fun v => fpSub rm v.a v.b)
  | .fmul d a b rm => some ({ a, b, dst := some d }, fun v => fpMul rm v.a v.b)
  | .ffma d a b rm => some ({ a, b, ds := [d], dst := some (.x d) }, fun v => fpFma rm v.a v.b (v.ds.getD 0 0))
  | .fmin d a b => some ({ a, b, dst := some d }, fun v =>
      if nan v.a && nan v.b then 0x7FC00000 else if nan v.a then v.b else if nan v.b then v.a else if below v.b v.a then v.b else v.a)
  | .fmax d a b => some ({ a, b, dst := some d }, fun v =>
      if nan v.a && nan v.b then 0x7FC00000 else if nan v.a then v.b else if nan v.b then v.a else if below v.a v.b then v.b else v.a)
  | .feq d a b => some ({ a, b, dst := some d }, fun v => if !nan v.a && !nan v.b && units v.a == units v.b then 1 else 0)
  | .flt d a b => some ({ a, b, dst := some d }, fun v => if !nan v.a && !nan v.b && units v.a < units v.b then 1 else 0)
  | .fle d a b => some ({ a, b, dst := some d }, fun v => if !nan v.a && !nan v.b && units v.a ≤ units v.b then 1 else 0)
  | .fcvtw d a rm => some ({ a, dst := some d }, fun v => fcvtw rm v.a)
  | .fcvtf d a => some ({ a, dst := some d }, fun v => intToFP .rne (signed v.a))
  | .fcvtfn d a rm => some ({ a, dst := some d }, fun v => intToFP rm v.a.toNat)
  | _ => none

end Sys2Proof.Claims

section
open Sys2Proof Sys2Proof.Machine Sys2Proof.Claims

/-- R114, R41: a divide completes at once, having marked d empty and left an outstanding producer with the value of its table; it
raises no counter; x0 and q7 are not marked. -/
def Sys2Proof.Claims.DividesIssue : Prop :=
  ∀ (i : Instr) (s : State) (d : Dst) (a b : Src) (f : Word → Word → Word), divOp i = some (d, a, b, f) →
    let u : Uses := { a, b, dst := some d }
    let v := s.vals u
    s.ready u = true →
    ∃ x : Access, x.op = .divide (f v.a v.b) ∧ x.d = d ∧ x.nregs = 1 ∧ x.dead = false ∧ x.st = .issued ∧ x.bPoison = v.poison ∧
      Completes i u v.poison Core.advance s
        (s.updCore s.cur (fun c => { c with regs := emptied d c.regs, acc := c.acc ++ [x] }))

/-- R106, R114: the event that completes a divide writes the divide's value to its destination, which becomes full, and nothing else
of any core changes. -/
def Sys2Proof.Claims.DivideCompletes : Prop :=
  ∀ (s : State) (k n : Nat) (a : Access) (v : Word), (s.core k).acc[n]? = some a → a.op = .divide v →
    exec (.divideComplete k n) s = .next (s.updCore k (produced s.ck n a v a.bPoison))

/-- R163 to R165 (with R36, R41, R132, R194 for the completion): a scalar FP32 instruction that meets none of the causes of R49 writes
its result, by the terms of those rules, and changes nothing else but what completion changes. -/
def Sys2Proof.Claims.FloatResults : Prop :=
  ∀ (i : Instr) (s : State) (u : Uses) (f : Vals → Word) (d : Dst), floatOp i = some (u, f) → u.dst = some d → s.ready u = true →
    Completes i u (s.vals u).poison Core.advance s
      (s.updCore s.cur (fun c => c.writeDst s.ck d (f (s.vals u)) (s.vals u).poison))

/-- R55, R57, R59, R163: sums, differences, products and fused products of finite FP32 words are the exact value rounded once in the
instruction's mode; an exact zero has the sign of R57; a result that is not an exact zero has the sign of the exact value. -/
def Sys2Proof.Claims.FloatRounding : Prop :=
  ∀ (rm : Rnd) (a b c : Word), finite a = true → finite b = true → finite c = true →
    let one (x : Int) (k : Nat) (neg : List Bool) (r : Word) : Prop :=
      if x = 0 then r = zeroOf rm neg else IsRounding rm x k r ∧ (negative r = true ↔ x < 0)
    one (units a + units b) 0 [negative a, negative b] (fpAdd rm a b) ∧
    one (units a - units b) 0 [negative a, !negative b] (fpSub rm a b) ∧
    one (units a * units b) 149 [negative a != negative b] (fpMul rm a b) ∧
    one (units a * units b + units c * 2 ^ 149) 149 [negative a != negative b, negative c] (fpFma rm a b c)

/-- R56, R57, R75: NaNs give the canonical NaN, and so do opposite infinities in a sum and zero times infinity; an infinity against a
finite term stays. -/
def Sys2Proof.Claims.FloatSpecials : Prop :=
  ∀ (rm : Rnd) (a b : Word),
    (nan a = true ∨ nan b = true → fpAdd rm a b = 0x7FC00000 ∧ fpSub rm a b = 0x7FC00000 ∧ fpMul rm a b = 0x7FC00000 ∧
      ∀ c, fpFma rm a b c = 0x7FC00000 ∧ fpFma rm c a b = 0x7FC00000 ∧ fpFma rm c b a = 0x7FC00000) ∧
    fpAdd rm 0x7F800000 0xFF800000 = 0x7FC00000 ∧ fpSub rm 0x7F800000 0x7F800000 = 0x7FC00000 ∧
    (magnitude a = 0 → fpMul rm a 0x7F800000 = 0x7FC00000 ∧ fpMul rm 0xFF800000 a = 0x7FC00000) ∧
    (finite a = true → fpAdd rm 0x7F800000 a = 0x7F800000 ∧ fpAdd rm a 0xFF800000 = 0xFF800000) ∧
    (finite a = true → magnitude a ≠ 0 → fpMul rm a 0x7F800000 = if negative a then 0xFF800000 else 0x7F800000)

/-- R66, R67, R165: FCVTW is the value rounded to an integer in the mode and clamped to the signed range, NaN giving 0; an integer
converts to the rounding of its value. -/
def Sys2Proof.Claims.FloatConversions : Prop :=
  (∀ (rm : Rnd) (a : Word), nan a = true → fcvtw rm a = 0) ∧
  (∀ (rm : Rnd) (a : Word), finite a = true → ∃ i : Int,
    fcvtw rm a = wrap (max (-2 ^ 31) (min (2 ^ 31 - 1) i)) ∧
    match rm with
    | .rne => (units a - i * 2 ^ 149).natAbs * 2 ≤ 2 ^ 149 ∧ ((units a - i * 2 ^ 149).natAbs * 2 = 2 ^ 149 → i % 2 = 0)
    | .rtz => i.natAbs = magnitude a / 2 ^ 149 ∧ (i = 0 ∨ (i < 0 ↔ negative a = true))
    | .rdn => i = units a / 2 ^ 149
    | .rup => i = -(-units a / 2 ^ 149)) ∧
  (∀ rm : Rnd, fcvtw rm 0x7F800000 = 0x7FFFFFFF ∧ fcvtw rm 0xFF800000 = 0x80000000) ∧
  (∀ (rm : Rnd) (i : Int), -2 ^ 31 ≤ i → i < 2 ^ 32 → i ≠ 0 → IsRounding rm (i * 2 ^ 149) 0 (intToFP rm i)) ∧
  (∀ rm : Rnd, intToFP rm 0 = 0)

end

/-! Registers, control flow. -/
namespace Sys2Proof.Claims
open Sys2Proof Sys2Proof.Machine

/-- Condition and offset of the branches of R128. -/
def branchOp : Instr → Option (Src × Src × BitVec 14 × (Word → Word → Bool))
  | .beq a b off => some (a, b, off, fun x y => x.toNat = y.toNat)
  | .bne a b off => some (a, b, off, fun x y => x.toNat ≠ y.toNat)
  | .blt a b off => some (a, b, off, fun x y => signed x < signed y)
  | .bge a b off => some (a, b, off, fun x y => signed y ≤ signed x)
  | .bltn a b off => some (a, b, off, fun x y => x.toNat < y.toNat)
  | .bgen a b off => some (a, b, off, fun x y => y.toNat ≤ x.toNat)
  | _ => none

/-- A word offset from an instruction's address (R36). -/
def target {n : Nat} (pc : Word) (off : BitVec n) : Word := wrap (pc.toNat + 4 * signExt off)

/-- The loop-back step of an active level at its end address (R132): what the level becomes, and where the core goes on. -/
def loopBack (l : Loop) : Loop × Word :=
  if 1 < l.lc.toNat then ({ l with lc := BitVec.ofNat 32 (l.lc.toNat - 1) }, l.ls) else ({ l with lc := 0, active := false }, l.le)

/-- A transfer to `t` ends a level whose body [LS, LE) does not hold t (R133). -/
def leaveBody (l : Loop) (t : Word) : Loop :=
  if (t.toNat + 2 ^ 32 - l.ls.toNat) % 2 ^ 32 < (l.le.toNat + 2 ^ 32 - l.ls.toNat) % 2 ^ 32 then l else { l with active := false }

/-- BUSY, FAULT and FULL of the engines (R23, R224, R275, R323, R354, R392). -/
def engineFlag (c : Core) : Engine → Flag → Prop
  | .MX, .busy => c.cnt.MX ≠ 0
  | .VX, .busy => c.cnt.VX ≠ 0
  | .CP, .busy => c.cnt.CP ≠ 0
  | .GL, .busy => c.cnt.gl ≠ 0
  | .PS, .busy => c.cnt.PS ≠ 0
  | .MX, .fault => c.mat.flt.fault = true
  | .VX, .fault => c.vec.flt.fault = true
  | .CP, .fault => c.cpy.flt.fault = true
  | .GL, .fault => c.gal.flt.fault = true
  | .PS, .fault => c.fer.flt.fault = true
  | .VX, .full => 16 ≤ c.vec.seq.length
  | .MX, .full => 8 ≤ c.mat.queue.length ∨
      16 ≤ c.regs.q[0].length + (c.mat.queue.filter (fun q => !q.dead && pushesToken q.instr)).length
  | .CP, .full => 8 ≤ c.cpy.queue.length ∨ 16 ≤ c.regs.q[3].length + c.cpy.queue.length
  | .GL, .full => 16 ≤ c.gal.queue.length ∨
      16 ≤ c.regs.q[2].length + c.gal.slots.length + (c.gal.queue.filter (fun q => isGinj q.instr)).length
  | .PS, .full => 16 ≤ c.fer.queue.length ∨
      16 ≤ c.regs.q[4].length + (c.fer.queue.filter (fun q => !q.dead && pushesQ4 q.instr)).length

end Sys2Proof.Claims

section
open Sys2Proof Sys2Proof.Machine Sys2Proof.Claims

/-- R41, R80, R81, R194: a write to xn, n from 1, makes xn hold the value, full, with the value's poison, and changes no other register,
bit or queue; a write to x0 changes nothing and x0 reads 0 and full; marking empty changes that register's bit alone, x0's never; a
write to q7 changes no register. -/
def Sys2Proof.Claims.RegisterWrites : Prop :=
  (∀ (r : Regs) (n m : XReg) (v : Word) (p : Bool), n.val ≠ 0 →
    (r.put n v p).get n = v ∧ (r.put n v p).isFull n = true ∧ (r.put n v p).isPoison n = p ∧
    (r.put n v p).q = r.q ∧ (r.put n v p).held = r.held ∧
    (m ≠ n → (r.put n v p).get m = r.get m ∧ (r.put n v p).isFull m = r.isFull m ∧ (r.put n v p).isPoison m = r.isPoison m)) ∧
  (∀ (r : Regs) (v : Word) (p : Bool), r.put 0 v p = r ∧ r.empty 0 = r ∧ r.get 0 = 0 ∧ r.isFull 0 = true ∧ r.isPoison 0 = false) ∧
  (∀ (r : Regs) (n m : XReg), n.val ≠ 0 →
    (r.empty n).isFull n = false ∧ (r.empty n).get m = r.get m ∧ (r.empty n).isPoison m = r.isPoison m ∧ (r.empty n).q = r.q ∧
    (m ≠ n → (r.empty n).isFull m = r.isFull m)) ∧
  (∀ (c : Core) (ck : Nat) (v : Word) (p : Bool), (c.writeDst ck .q7 v p).regs = c.regs ∧
    ∀ n, c.writeDst ck (.x n) v p = { c with regs := c.regs.put n v p })

/-- R41: a source names a register's value or the oldest entry of a queue; the second of two pops of one queue takes the next entry. -/
def Sys2Proof.Claims.OperandValues : Prop :=
  ∀ (s : State) (u : Uses) (x y : Src), u.a = some x → u.b = some y →
    let r := (s.core s.cur).regs
    (∀ n, x.reg = .x n → (s.vals u).a = r.get n) ∧
    (∀ n, x.reg = .q n → (s.vals u).a = (r.q[n].getD 0 {}).w) ∧
    (∀ n, y.reg = .x n → (s.vals u).b = r.get n) ∧
    (∀ n, y.reg = .q n → x.reg ≠ .q n → (s.vals u).b = (r.q[n].getD 0 {}).w) ∧
    (∀ n, y.reg = .q n → x.reg = .q n → (s.vals u).b = (r.q[n].getD 1 {}).w) ∧
    (u.bs = [] → u.ds = [] → u.pops = (match x.reg with | .q n => [n] | .x _ => []) ++ (match y.reg with | .q n => [n] | .x _ => []))

/-- R128, R36: a branch that meets none of the causes of R49 goes to PC + 4 × off when its condition holds, and to the next word
otherwise, and changes nothing else but what completion and the loop levels of R132 and R133 change. -/
def Sys2Proof.Claims.Branches : Prop :=
  ∀ (i : Instr) (s : State) (a b : Src) (off : BitVec 14) (cond : Word → Word → Bool), branchOp i = some (a, b, off, cond) →
    let u : Uses := { a, b }
    let v := s.vals u
    s.ready u = true →
    Completes i u v.poison (fun c => if cond v.a v.b then c.jump s.ck (target (s.core s.cur).pc off) else c.advance) s s

/-- R129, R130: JAL writes the address of the next word to d and goes to PC + 4 × imm; JALR reads A, writes the address of the next
word to d, and goes to A + off; a target that is not word-aligned traps MISALIGNED at the JALR with the target as address, and writes
nothing to d. -/
def Sys2Proof.Claims.Jumps : Prop :=
  (∀ (s : State) (d : Dst) (imm : BitVec 21),
    let u : Uses := { dst := some d }
    s.ready u = true →
    Completes (.jal d imm) u false (fun c => c.jump s.ck (target (s.core s.cur).pc imm)) s
      (s.updCore s.cur (fun c => c.writeDst s.ck d (wrap (c.pc.toNat + 4)) false))) ∧
  (∀ (s : State) (d : Dst) (a : Src) (off : BitVec 15),
    let u : Uses := { a, dst := some d }
    let v := s.vals u
    let t := wrap (v.a.toNat + signExt off)
    s.ready u = true →
    (t.toNat % 4 = 0 → Completes (.jalr d a off) u v.poison (fun c => c.jump s.ck t) s
      (s.updCore s.cur (fun c => c.writeDst s.ck d (wrap (c.pc.toNat + 4)) v.poison))) ∧
    (t.toNat % 4 ≠ 0 → exec (.jalr d a off) s = .next (takeTrap s s.cur 0x04 (encode (.jalr d a off)) t (s.core s.cur).pc)))

/-- R131: LOOP sets its level's count to A, its body to the `length` words that follow, and makes it active; a count of 0 skips the body.
The skip of R132 and R133: it completes the last word of the other level where that level ends at the same place, and ends the other
level where it goes beyond its body. -/
def Sys2Proof.Claims.LoopSets : Prop :=
  ∀ (s : State) (count : Src) (level : Bool) (len : BitVec 18),
    let i := Instr.loop count level len
    let u : Uses := { a := some count, loop := some level }
    let v := s.vals u
    let pc := (s.core s.cur).pc
    let le := wrap (pc.toNat + 4 + 4 * len.toNat)
    let put (c : Core) (l : Loop) : Core := if level then { c with loop1 := l } else { c with loop0 := l }
    let putOther (c : Core) (l : Loop) : Core := if level then { c with loop0 := l } else { c with loop1 := l }
    s.ready u = true →
    (v.a.toNat ≠ 0 →
      Completes i u v.poison (fun c => (put c ⟨v.a, wrap (pc.toNat + 4), le, true⟩).advance) s s) ∧
    (v.a.toNat = 0 →
      Completes i u v.poison (fun c =>
        let other := if level then c.loop0 else c.loop1
        let c := put c ⟨0, wrap (pc.toNat + 4), le, false⟩
        if other.active = true then
          (if other.le = le then { putOther c (loopBack other).1 with pc := (loopBack other).2 }
           else { putOther c (leaveBody other le) with pc := le })
        else { c with pc := le }) s s)

/-- R131: LOOP traps LOOP_FAULT where its level is active already, above task level, and while an upcall handler runs. -/
def Sys2Proof.Claims.LoopFaults : Prop :=
  ∀ (s : State) (count : Src) (level : Bool) (len : BitVec 18), (s.core s.cur).engineCause {a := some count, loop := some level} = none →
    (s.core s.cur).emptiness [(count, false)] [] = [(count, false, false)] →
    ((s.core s.cur).priv ≠ .task ∨ (s.core s.cur).up.inH = true ∨
      (if level then (s.core s.cur).loop1 else (s.core s.cur).loop0).active = true) →
    exec (.loop count level len) s = .next (takeTrap s s.cur 0x07 0 0 (s.core s.cur).pc)

/-- R132: after an instruction that does not transfer control, at task level with UPSTAT.IN = 0, the level that ends there steps, LC1
first and LC0 only if LC1 left the PC at its end; otherwise, and at other levels, the core goes on at the next word and no level steps. -/
def Sys2Proof.Claims.LoopBacks : Prop :=
  ∀ c : Core,
    let n := wrap (c.pc.toNat + 4)
    let run := c.priv = .task ∧ c.up.inH = false
    let ends0 := c.loop0.active = true ∧ c.loop0.le = n
    let ends1 := c.loop1.active = true ∧ c.loop1.le = n
    (¬ run ∨ (¬ ends0 ∧ ¬ ends1) → c.advance = { c with pc := n }) ∧
    (run → ends0 → ¬ ends1 → c.advance = { c with loop0 := (loopBack c.loop0).1, pc := (loopBack c.loop0).2 }) ∧
    (run → ends1 → (1 < c.loop1.lc.toNat ∨ ¬ ends0) →
      c.advance = { c with loop1 := (loopBack c.loop1).1, pc := (loopBack c.loop1).2 }) ∧
    (run → ends1 → c.loop1.lc.toNat ≤ 1 → ends0 →
      c.advance = { c with loop1 := (loopBack c.loop1).1, loop0 := (loopBack c.loop0).1, pc := (loopBack c.loop0).2 })

/-- R132: in the last word of an active level whose count is LC, the body's passes are LC in all: each of the first LC − 1 completions of
its last word starts another pass, with LC − i left after i of them; the next ends the level and goes on after it. -/
def Sys2Proof.Claims.LoopPasses : Prop :=
  ∀ (c : Core) (i : Nat), c.priv = .task → c.up.inH = false → c.loop1.active = false → c.loop0.active = true →
    c.loop0.le = c.pc + 4 → i < c.loop0.lc.toNat →
    let last := c.pc
    let again (x : Core) : Core := { x.advance with pc := last }
    let after := (List.range i).foldl (fun x _ => again x) c
    after.loop0.lc.toNat = c.loop0.lc.toNat - i ∧ after.loop0.active = true ∧
    (i + 1 < c.loop0.lc.toNat → after.advance.pc = c.loop0.ls) ∧
    (i + 1 = c.loop0.lc.toNat → after.advance.pc = c.loop0.le ∧ after.advance.loop0.active = false ∧ after.advance.loop0.lc = 0)

/-- R133: a taken transfer at task level with UPSTAT.IN = 0 goes to its target and ends each level whose body does not hold the target;
elsewhere it ends none. It leaves a trace record where branches are traced (R214) and changes nothing else. -/
def Sys2Proof.Claims.TransfersLeaveLoops : Prop :=
  ∀ (c : Core) (ck : Nat) (t : Word),
    let d := if c.dbg.tracectl / 2 % 2 = 1 then (c.trace ck 0x1002 c.pc t).dbg else c.dbg
    (c.priv = .task ∧ c.up.inH = false →
      c.jump ck t = { c with pc := t, loop0 := leaveBody c.loop0 t, loop1 := leaveBody c.loop1 t, dbg := d }) ∧
    (¬ (c.priv = .task ∧ c.up.inH = false) → c.jump ck t = { c with pc := t, dbg := d })

/-- R23, R135, R179: BES and BEC go to their target when the flag, as it stands at issue, is set or clear, and to the next word otherwise.
-/
def Sys2Proof.Claims.EngineBranches : Prop :=
  ∀ (s : State) (e : Engine) (f : Flag) (off : BitVec 14),
    let u : Uses := { engs := [e] }
    let t := target (s.core s.cur).pc off
    s.ready u = true →
    (engineFlag (s.core s.cur) e f →
      Completes (.bes e f off) u false (fun c => c.jump s.ck t) s s ∧ Completes (.bec e f off) u false Core.advance s s) ∧
    (¬ engineFlag (s.core s.cur) e f →
      Completes (.bes e f off) u false Core.advance s s ∧ Completes (.bec e f off) u false (fun c => c.jump s.ck t) s s)

/-- R103, R136: ALIGN stands until the other cores of its cluster that run its flight stand in an ALIGN at the same address, then goes on
and frees them; alone it goes on at once; freed, or after ALIGNLIM ck, a standing one goes on. It changes no value. -/
def Sys2Proof.Claims.Aligns : Prop :=
  (∀ s : State, s.ready {} = true →
    (∀ j ∈ s.flightMates s.cur, (s.core j).standing = some .align ∧ (s.core j).pc = (s.core s.cur).pc) →
    Completes .align {} false Core.advance s
      ((s.flightMates s.cur).foldl (fun s j => s.updCore j (fun c => { c with freed := true }))
        (s.updCore s.cur (fun c => (if c.standing = some .align then c else
          { c with standing := some .align, waitSince := s.ck, woken := false, freed := false }).stallOn s.ck false)))) ∧
  (∀ s : State, s.ready {} = true → (s.core s.cur).standing = none → 0 < (s.core s.cur).alignlim →
    (∃ j ∈ s.flightMates s.cur, ¬ ((s.core j).standing = some .align ∧ (s.core j).pc = (s.core s.cur).pc)) →
    ∃ t, exec .align s = .next t ∧ Stands .align s t ∧ (t.core s.cur).waitSince = s.ck) ∧
  (∀ (s : State) (k : Nat), (s.core k).standing = some .align → (s.core k).unstepped = true →
    (∃ j ∈ s.flightMates k, ¬ ((s.core j).standing = some .align ∧ (s.core j).pc = (s.core k).pc)) →
    ((s.core k).freed = true ∨ (s.core k).waitSince + (s.core k).alignlim ≤ s.ck) →
    exec (.alignRelease k) s = .next (s.updCore k (fun c => (completed s.ck c).advance)))

end

/-! Memory. -/
namespace Sys2Proof.Claims
open Sys2Proof Sys2Proof.Machine

/-- Destination, base, offset, size and widening of the loads of R121. -/
def loadOp : Instr → Option (Dst × Src × BitVec 15 × Nat × Bool)
  | .ldb d a off => some (d, a, off, 1, true)
  | .ldbn d a off => some (d, a, off, 1, false)
  | .ldh d a off => some (d, a, off, 2, true)
  | .ldhn d a off => some (d, a, off, 2, false)
  | .ldw d a off => some (d, a, off, 4, false)
  | _ => none

/-- Base, value, offset, size and kind (remote or not) of the stores of R123 and R124. -/
def storeOp : Instr → Option (Src × Src × BitVec 14 × Nat × Bool)
  | .stb a b off => some (a, b, off, 1, false)
  | .sth a b off => some (a, b, off, 2, false)
  | .stw a b off => some (a, b, off, 4, false)
  | .rstw a b off => some (a, b, off, 4, true)
  | _ => none

/-- Destination, address, operand, order and scope of the atomics of R125, and the operation of each. -/
def atomicOf : Instr → Option (Dst × Src × Src × Order × Scope × AtomicOp)
  | .swp d a b o sc => some (d, a, b, o, sc, .swp)
  | .aadd d a b o sc => some (d, a, b, o, sc, .add)
  | .aand d a b o sc => some (d, a, b, o, sc, .and)
  | .aor d a b o sc => some (d, a, b, o, sc, .or)
  | .axor d a b o sc => some (d, a, b, o, sc, .xor)
  | .amin d a b o sc => some (d, a, b, o, sc, .min)
  | .amax d a b o sc => some (d, a, b, o, sc, .max)
  | .aminn d a b o sc => some (d, a, b, o, sc, .minn)
  | .amaxn d a b o sc => some (d, a, b, o, sc, .maxn)
  | _ => none

/-- The new value of an atomic, by the table of R125. -/
def rmwNew (op : AtomicOp) (old b : Word) : Word :=
  match op with
  | .swp => b
  | .add => BitVec.ofNat 32 ((old.toNat + b.toNat) % 2 ^ 32)
  | .and => ofBits (fun i => bitOf old i && bitOf b i)
  | .or => ofBits (fun i => bitOf old i || bitOf b i)
  | .xor => ofBits (fun i => bitOf old i != bitOf b i)
  | .min => wrap (min (signed old) (signed b))
  | .max => wrap (max (signed old) (signed b))
  | .minn => BitVec.ofNat 32 (min old.toNat b.toNat)
  | .maxn => BitVec.ofNat 32 (max old.toNat b.toNat)

/-- The number whose bytes are given, the least significant first (R35). -/
def number (bs : List Byte) : Nat := (bs.mapIdx (fun i b => b.toNat * 256 ^ i)).sum

/-- A store of the core that has not landed makes a line poisoned for it (R194). -/
def ownPoison (c : Core) (line : Nat) : Bool := c.unlanded.any (fun e => e.onLine c.masid line && e.poison)

/-- What core k reads at one byte, and whether it is poisoned (R108, R194): its youngest buffered or outbound store, else its snapshot,
else the latest visible event. -/
def readsByte (s : State) (k va pa : Nat) : Byte × Bool :=
  match (s.core k).ownStore va with
  | some e => (e.bytes.getD (va - e.va) 0, e.poison)
  | none =>
    match (s.core k).snap.find? (fun l => l.line == va / 64) with
    | some l => (l.bytes.getD (va % 64) 0, l.poison)
    | none => (s.ms.byteAt (.core k) pa, s.linePoison (pa / 64) || ownPoison (s.core k) (va / 64))

/-- A value of `size` bytes, widened (R121). -/
def widened (size : Nat) (signed : Bool) (n : Nat) : Word :=
  if signed ∧ 2 ^ (8 * size - 1) ≤ n then wrap ((n : Int) - 2 ^ (8 * size)) else BitVec.ofNat 32 n

/-- Where an access of destination d stands at its issue (R109): translated already where d is x0 or q7 — `t` is what the translation
leaves — and not yet otherwise. -/
def Translated (s t : State) (d : Dst) (addr : Word) (kind : AccKind) (pa : Option Nat) : Prop :=
  if d = .x 0 ∨ d = .q7 then
    ∃ p h, pa = some p ∧ translate s (coreDie s.cur) (s.core s.cur).masid addr.toNat kind = (.ok p h, t)
  else pa = none ∧ t = s

/-- What an issued load, atomic or CAS makes of its core: its destination is empty, it is outstanding, LD has risen (R108, R109). -/
def accessed (x : Access) (c : Core) : Core :=
  { c with regs := emptied x.d c.regs, acc := c.acc ++ [x], cnt := { c.cnt with LD := c.cnt.LD + 1 } }

/-- A store's bytes in the core's own snapshot entries, with their poison (R108, R194). -/
def intoSnapshot (va : Nat) (bs : List Byte) (poison : Bool) (snap : List SnapLine) : List SnapLine :=
  snap.map (fun l => if l.line = va / 64 then
    { l with poison := l.poison || poison, bytes := l.bytes.mapIdx (fun i b => if va % 64 ≤ i ∧ i < va % 64 + bs.length then bs.getD (i - va % 64) 0 else b) } else l)

/-- A Publish(sc) of R139 and R168: the phase buffer is sealed into the outbound queue in order, with a widening mark after it; ST
counts the plain stores. -/
def published (sc : Scope) (c : Core) : Core :=
  { c with
    out := c.out ++ c.buf.map (fun e => OutItem.entry e sc) ++ [.mark sc c.launch],
    cnt := { c.cnt with ST := c.cnt.ST + (c.buf.filter (fun e => !e.remote)).length },
    buf := [] }

end Sys2Proof.Claims

section
open Sys2Proof Sys2Proof.Machine Sys2Proof.Claims

/-- R107 to R109, R121, R192: a load that meets none of the causes of R49 forms its address from A and its offset; an aligned one, at
which no watchpoint stops, issues: its destination is empty, the access is outstanding, LD rises by one, and it completes; with
destination x0 or q7 it does so once its translation is known. A misaligned one traps before anything else. -/
def Sys2Proof.Claims.LoadsIssue : Prop :=
  ∀ (i : Instr) (s : State) (d : Dst) (a : Src) (off : BitVec 15) (size : Nat) (sx : Bool), loadOp i = some (d, a, off, size, sx) →
    let u : Uses := { a, dst := some d, moves := true }
    let v := s.vals u
    let addr := wrap (v.a.toNat + signExt off)
    s.ready u = true →
    (addr.toNat % size = 0 → (s.core s.cur).watch true false addr = none →
      ∀ (t : State) (pa : Option Nat), Translated s t d addr .load pa →
      ∃ x : Access, x.op = .load size sx ∧ x.d = d ∧ x.addr = addr ∧ x.pa = pa ∧ x.nregs = 1 ∧ x.st = .issued ∧ x.dead = false ∧
        x.asid = (s.core s.cur).masid ∧ x.issuedAt = s.ck ∧
        Completes i u v.poison Core.advance s (t.updCore s.cur (accessed x))) ∧
    (addr.toNat % size ≠ 0 → exec i s = .next (takeTrap s s.cur 0x04 (encode i) addr (s.core s.cur).pc))

/-- R108, R121, R194: LOAD_COMPLETE of a load that has not made its read: each of its bytes is the core's youngest own store's, else
the snapshot's, else that of the latest event visible to the core; the widened value, poisoned if a byte or the address is, is written
to its destination; LD falls by one; the access is outstanding no longer. The read may bring its line, with the core's own stores in it,
into the snapshot and the window, and leave debug records or an imprecise error for lost data. Nothing else changes but what the
translation changes, and the latency counts. -/
def Sys2Proof.Claims.LoadsComplete : Prop :=
  ∀ (s t0 : State) (k n dest : Nat) (a : Access) (size : Nat) (sx : Bool) (pa : Nat),
    (s.core k).acc[n]? = some a → a.op = .load size sx → size ∈ [1, 2, 4] → a.st = .issued → a.dead = false →
    a.addr.toNat % size = 0 →
    (a.pa = some pa ∧ pa % 64 = a.addr.toNat % 64 ∧ t0 = s ∨
      a.pa = none ∧ ∃ host, translate s (coreDie k) a.asid a.addr.toNat .load = (.ok pa host, t0)) →
    t0.ms.owned (pa / 64) = false →
    let bytes := (List.range size).map (fun i => readsByte t0 k (a.addr.toNat + i) (pa + i))
    ∃ c1 : Core, exec (.loadComplete k n dest) s = .next ((t0.setCore k
        ({ produced s.ck n a (widened size sx (number (bytes.map (·.1)))) (bytes.any (·.2) || a.bPoison) c1 with
            cnt := { c1.cnt with LD := c1.cnt.LD - 1 } } : Core)).latency k a.asid a.addr.toNat a.issuedAt dest) ∧
      c1 = { s.core k with snap := c1.snap, held := c1.held, dbg := c1.dbg, tr := { (s.core k).tr with imp := c1.tr.imp } } ∧
      (c1.snap = (s.core k).snap ∨ ∃ l : SnapLine, c1.snap = l :: (s.core k).snap ∧ l.line = a.addr.toNat / 64 ∧
        l.bytes = (List.range 64).map (fun i => match (s.core k).ownStore (a.addr.toNat / 64 * 64 + i) with
          | some e => e.bytes.getD (a.addr.toNat / 64 * 64 + i - e.va) 0
          | none => t0.ms.byteAt (.core k) (pa / 64 * 64 + i)))

/-- R109: LOAD_TRANSLATION_FAULT: the translation of an issued load, atomic or CAS fails; the cause stands recorded with its register,
which stays empty, and LD falls by one. -/
def Sys2Proof.Claims.LoadsFail : Prop :=
  ∀ (s t0 : State) (k n : Nat) (a : Access) (cause : Nat) (detail : Word),
    (s.core k).acc[n]? = some a → a.st = .issued → a.dead = false → a.pa = none →
    ((∃ size sx, a.op = .load size sx) ∧ translate s (coreDie k) a.asid a.addr.toNat .load = (.bad cause detail, t0) ∨
      ((∃ op o sc, a.op = .atomic op o sc) ∨ (∃ so fo sc, a.op = .cas so fo sc)) ∧
        translate s (coreDie k) a.asid a.addr.toNat .store = (.bad cause detail, t0)) →
    exec (.loadTranslationFault k n) s = .next (t0.updCore k (fun c =>
      { c with acc := c.acc.set n { a with st := .recorded cause a.addr detail }, cnt := { c.cnt with LD := c.cnt.LD - 1 } }))

/-- R107 to R109, R123, R124: a store that meets none of the causes of R49, aligned, its page writable, its line not owned and no
watchpoint at it, appends one entry with its address and the low bytes of B to the phase buffer, and writes them into the core's own
snapshot; RSTW raises RM; no memory byte changes, nor any counter else. A fenced core discards it. A misaligned one traps MISALIGNED; one
whose translation fails takes the cause at itself, ACCESS even before a watchpoint (R189); one whose line an engine owns stands. -/
def Sys2Proof.Claims.StoresBuffer : Prop :=
  ∀ (i : Instr) (s : State) (a b : Src) (off : BitVec 14) (size : Nat) (remote : Bool), storeOp i = some (a, b, off, size, remote) →
    let u : Uses := { a, b, moves := true }
    let v := s.vals u
    let addr := wrap (v.a.toNat + signExt off)
    let bytes := (List.range size).map (fun i => BitVec.ofNat 8 (v.b.toNat / 256 ^ i))
    s.ready u = true →
    (addr.toNat % size ≠ 0 → exec i s = .next (takeTrap s s.cur 0x04 (encode i) addr (s.core s.cur).pc)) ∧
    (addr.toNat % size = 0 → ∀ (t : State) (pa : Nat) (host : Bool),
      translate s (coreDie s.cur) (s.core s.cur).masid addr.toNat .store = (.ok pa host, t) →
      (s.core s.cur).watch false true addr = none →
      (t.ms.owned (pa / 64) = false → (s.core s.cur).fenced = false →
        Completes i u v.poison Core.advance s (t.updCore s.cur (fun c =>
          let c := { c with
            buf := c.buf ++ [{ va := addr.toNat, asid := c.masid, pa, bytes, remote, poison := v.poison, hostHomed := host,
                               launch := c.launch, issuedAt := s.ck }],
            snap := intoSnapshot addr.toNat bytes v.poison c.snap,
            cnt := if remote then { c.cnt with RM := c.cnt.RM + 1 } else c.cnt }
          if remote then c else c.touch addr.toNat pa))) ∧
      (t.ms.owned (pa / 64) = false → (s.core s.cur).fenced = true →
        Completes i u v.poison Core.advance s (t.updCore s.cur (fun c => if remote then c else c.touch addr.toNat pa))) ∧
      (t.ms.owned (pa / 64) = true → ∃ w, exec i s = .next w ∧ Stands i t w)) ∧
    (addr.toNat % size = 0 → ∀ (t : State) (cause : Nat) (detail : Word),
      translate s (coreDie s.cur) (s.core s.cur).masid addr.toNat .store = (.bad cause detail, t) →
      cause = 0x05 ∨ (s.core s.cur).watch false true addr = none →
      exec i s = .next (raiseD t cause (detailOr i cause detail) addr))

/-- R107, R109, R125 to R127: an atomic or CAS that meets none of the causes of R49 traps MISALIGNED at an address that is no multiple of
4, before anything else; otherwise it publishes the whole phase buffer at its scope where its order releases or the buffer covers its
word, then issues as a load does: its destination empty, outstanding, LD one higher. -/
def Sys2Proof.Claims.AtomicsIssue : Prop :=
  ∀ (i : Instr) (s : State) (d : Dst) (a b : Src) (ds : List XReg) (rel : Bool) (sc : Scope) (op : AccOp),
    ((∃ o k, atomicOf i = some (d, a, b, o, sc, k) ∧ ds = [] ∧ rel = (o == .rel || o == .ar) ∧ op = .atomic k o sc) ∨
      (∃ m so fo, i = .cas m a b so fo sc ∧ d = .x m ∧ ds = [m] ∧ rel = (so == .rel || so == .ar) ∧ op = .cas so fo sc)) →
    let u : Uses := { a, b, ds, dst := some d, moves := true }
    let v := s.vals u
    s.ready u = true →
    (v.a.toNat % 4 ≠ 0 → exec i s = .next (takeTrap s s.cur 0x04 (encode i) v.a (s.core s.cur).pc)) ∧
    (v.a.toNat % 4 = 0 → (s.core s.cur).watch true true v.a = none → (s.core s.cur).pubDone = false →
      (s.core s.cur).readsDone = true →
      let covered := (s.core s.cur).buf.any (fun e => (List.range 4).any (fun j => e.covers (s.core s.cur).masid (v.a.toNat + j)))
      let s1 := if rel = true ∨ covered = true then s.updCore s.cur (fun c => { published sc c with pubDone := true }) else s
      ∀ (t : State) (pa : Option Nat), Translated s1 t d v.a .store pa →
      ∃ x : Access, x.op = op ∧ x.d = d ∧ x.addr = v.a ∧ x.b = v.b ∧ (ds ≠ [] → x.expected = v.ds.getD 0 0) ∧ x.pa = pa ∧
        x.nregs = 1 ∧ x.st = .issued ∧ x.dead = false ∧ x.bPoison = v.poison ∧
        Completes i u v.poison Core.advance s (t.updCore s.cur (accessed x)))

/-- R126, R127, R172: LOAD_COMPLETE of an issued atomic or CAS, its outbound queue drained, its line not owned, at a healthy line: in one
move it reads the latest event of its word that is visible to the core, appends the new value at its scope (an atomic always, a CAS only
where the old value is the one expected), drops the line from the snapshot, fills its window slot, acquires where its order says so (a CAS by its success or
failure order), writes the old value to its destination and lowers LD. -/
def Sys2Proof.Claims.AtomicsPerform : Prop :=
  ∀ (s t0 : State) (k n dest : Nat) (a : Access) (pa : Nat) (sc : Scope) (new : Option Word) (acq : Bool),
    (s.core k).acc[n]? = some a → a.st = .issued → a.dead = false →
    (a.pa = some pa ∧ t0 = s ∨ a.pa = none ∧ ∃ host, translate s (coreDie k) a.asid a.addr.toNat .store = (.ok pa host, t0)) →
    (s.core k).out = [] → t0.ms.owned (pa / 64) = false → t0.linePoison (pa / 64) = false → a.bPoison = false →
    let old := BitVec.ofNat 32 (number ((List.range 4).map (fun i => t0.ms.byteAt (.core k) (pa + i))))
    ((∃ op o, a.op = .atomic op o sc ∧ new = some (rmwNew op old a.b) ∧ acq = (o == .acq || o == .ar)) ∨
      (∃ so fo, a.op = .cas so fo sc ∧ new = (if old = a.expected then some a.b else none) ∧
        acq = (if old = a.expected then so == .acq || so == .ar else fo == .acq))) →
    (acq = true → (s.core k).readsDone = true) →
    exec (.loadComplete k n dest) s = .next (
      let s1 := match new with
        | some v => t0.updMs (·.put ((List.range 4).map (fun i => (pa + i, BitVec.ofNat 8 (v.toNat / 256 ^ i)))) sc (.core k) a.launch)
        | none => t0
      (s1.updCore k (fun c =>
        let c := ({ c with snap := c.snap.filter (fun l => l.line != a.addr.toNat / 64) } : Core).touch a.addr.toNat pa
        let c := if acq then c.acquire s.ck else c
        let c := produced s.ck n a old false c
        { c with cnt := { c.cnt with LD := c.cnt.LD - 1 } })).latency k a.asid a.addr.toNat a.issuedAt dest)

/-- R32, R126, R127, R172: an issued atomic or CAS waits, and nothing changes, while its core's outbound queue holds anything or its line
is owned. -/
def Sys2Proof.Claims.AtomicsWait : Prop :=
  ∀ (s t0 : State) (k n dest : Nat) (a : Access) (pa : Nat), (s.core k).acc[n]? = some a → a.st = .issued →
    ((∃ op o sc, a.op = .atomic op o sc) ∨ (∃ so fo sc, a.op = .cas so fo sc)) →
    (a.pa = some pa ∧ t0 = s ∨ a.pa = none ∧ ∃ host, translate s (coreDie k) a.asid a.addr.toNat .store = (.ok pa host, t0)) →
    (t0.core k).out ≠ [] ∨ t0.ms.owned (pa / 64) = true →
    exec (.loadComplete k n dest) s = .next s

/-- R122, R160: PREF and TMARK complete whenever they meet none of the causes of R49. PREF changes no register, snapshot, counter or byte:
where its address translates, for writing with write intent, and no engine owns the line, a line of the stash window comes into its slot;
elsewhere it changes nothing, whatever its address. TMARK makes a mark record with id A[15:0] and value B where marks are traced. -/
def Sys2Proof.Claims.Hints : Prop :=
  (∀ (s : State) (w : Bool) (a : Src) (off : BitVec 15),
    let u : Uses := { a }
    let va := (wrap ((s.vals u).a.toNat + signExt off)).toNat
    let tr := translate s (coreDie s.cur) (s.core s.cur).masid va (if w then .store else .load)
    s.ready u = true →
    (∀ pa host t, tr = (.ok pa host, t) → s.ms.owned (pa / 64) = false →
      Completes (.pref w a off) u (s.vals u).poison Core.advance s (t.updCore s.cur (·.touch va pa))) ∧
    (∀ pa host t, tr = (.ok pa host, t) → s.ms.owned (pa / 64) = true →
      Completes (.pref w a off) u (s.vals u).poison Core.advance s s) ∧
    (∀ cause detail t, tr = (.bad cause detail, t) → Completes (.pref w a off) u (s.vals u).poison Core.advance s s)) ∧
  (∀ (s : State) (a b : Src),
    let u : Uses := { a, b }
    let v := s.vals u
    s.ready u = true → Completes (.tmark a b) u v.poison Core.advance s
      (s.updCore s.cur (fun c => c.trace s.ck 0x1001 (BitVec.ofNat 32 (v.a.toNat % 2 ^ 16)) v.b)))

/-- R124, R168, R172, R376: LAND takes the oldest item of an outbound queue. An entry's bytes become the latest event of their addresses
for every party that its scope covers around the core, and no other party's read of any byte changes but of a leaf's D; ST or RM falls by
one; a plain store's line is dirty in the core, a remote one is written where its line lives. A widening mark widens the core's own
narrower events to its scope. -/
def Sys2Proof.Claims.Lands : Prop :=
  ∀ (s : State) (k : Nat) (item : OutItem) (rest : List OutItem), (s.core k).out = item :: rest →
    (∀ x ∈ s.saved, x.2.core = k → x.2.ctx.out = []) →
    (∀ sc l, item = .mark sc l → exec (.land k) s = .next
      ((s.updMs (fun m => { m with hist := m.hist.map (fun e => if e.origin == .core k && scopeRank e.scope < scopeRank sc then { e with scope := sc } else e) })).updCore k
        (fun c => { c with out := rest }))) ∧
    (∀ e sc, item = .entry e sc → s.ms.owned (e.pa / 64) = false → ¬ (sc = .H ∧ e.hostHomed = true) →
      ∃ t, exec (.land k) s = .next t ∧ t.ms.mem = s.ms.mem ∧
        (∀ r x, ¬ leafByte s x → t.ms.byteAt r x =
          if e.pa ≤ x ∧ x < e.pa + e.bytes.length ∧ covers sc (.core k) r = true then e.bytes.getD (x - e.pa) 0 else s.ms.byteAt r x) ∧
        (e.remote = false → (∀ j, j ≠ k → t.core j = s.core j) ∧
          t.core k = { s.core k with
            out := rest, cnt := { (s.core k).cnt with ST := (s.core k).cnt.ST - 1 },
            dirty := if (s.core k).dirty.contains (e.va / 64, e.pa / 64) then (s.core k).dirty else (e.va / 64, e.pa / 64) :: (s.core k).dirty }) ∧
        (e.remote = true → (∀ j, j ≠ k → t.core j = { s.core j with dirty := (t.core j).dirty }) ∧
          t.core k = { s.core k with
            out := rest, cnt := { (s.core k).cnt with RM := (s.core k).cnt.RM - 1 }, dirty := (t.core k).dirty, dbg := (t.core k).dbg } ∧
          (∀ h, s.windowHolder e = some h → (e.va / 64, e.pa / 64) ∈ (t.core h).dirty) ∧
          ((s.core k).dbg.dlatctl = false → (t.core k).dbg = (s.core k).dbg)))

end

/-! Synchronisation. -/
namespace Sys2Proof.Claims
open Sys2Proof Sys2Proof.Machine

/-- A word as party r sees it. -/
def wordAt (m : MemSys) (r : Party) (pa : Nat) : Word := BitVec.ofNat 32 (number ((List.range 4).map (fun i => m.byteAt r (pa + i))))

/-- A first issue that publishes at `sc` and then waits: the core stands at `i`, its phase buffer sealed, the publication made. -/
def PublishesAndStands (i : Instr) (sc : Scope) (s : State) : Prop :=
  ∃ t, exec i s = .next t ∧ Stands i (s.updCore s.cur (fun c => { published sc c with pubDone := true })) t

end Sys2Proof.Claims

section
open Sys2Proof Sys2Proof.Machine Sys2Proof.Claims

/-- R139, R168, R170: PHASE.REL publishes the whole phase buffer at its scope, PHASE.ACQ empties the snapshot, PHASE.AR does both in that
order, PHASE.SC makes one SyncPoint; each completes, its loads having made their reads. -/
def Sys2Proof.Claims.Phases : Prop :=
  ∀ (s : State) (sc : Scope),
    let u : Uses := { moves := true }
    s.ready u = true → (s.core s.cur).readsDone = true → (s.core s.cur).pubDone = false →
    Completes (.phase .rel sc) u false Core.advance s (s.updCore s.cur (published sc)) ∧
    Completes (.phase .acq sc) u false Core.advance s (s.updCore s.cur (·.acquire s.ck)) ∧
    Completes (.phase .ar sc) u false Core.advance s (s.updCore s.cur (fun c => (published sc c).acquire s.ck)) ∧
    (s.ms.own = [] → s.ms.moves = [] → s.viral = false →
      ∃ t, syncPoint s s.cur sc = some t ∧ Completes (.phase .sc sc) u false Core.advance s t)

/-- R139, R172, R217: an acquire empties the snapshot; where a core records bounds, it hands them over; it changes nothing else of a core.
A SyncPoint leaves the phase buffer, the outbound queue and the snapshot empty and changes nothing of another core but the dirty lines of
one whose window holds a line remotely stored to (R124); it can be made wherever no line is owned and the package is not in viral state. -/
def Sys2Proof.Claims.AcquiresAndSyncPoints : Prop :=
  (∀ (c : Core) (ck : Nat), (c.acquire ck).snap = [] ∧ c.acquire ck = { c with snap := [], dbg := (c.acquire ck).dbg } ∧
    (c.dbg.tracectl / 8 % 2 = 0 → c.acquire ck = { c with snap := [], dbg := { c.dbg with flagged := [], bounds := [] } })) ∧
  (∀ (s t : State) (k : Nat) (sc : Scope), syncPoint s k sc = some t →
    (t.core k).buf = [] ∧ (t.core k).out = [] ∧ (t.core k).snap = [] ∧ (t.core k).regs = (s.core k).regs ∧
    (∀ j, j ≠ k → t.core j = { s.core j with dirty := (t.core j).dirty }) ∧ t.ms.mem = s.ms.mem) ∧
  (∀ (s : State) (k : Nat) (sc : Scope), s.ms.own = [] → s.ms.moves = [] → s.viral = false → ∃ t, syncPoint s k sc = some t)

/-- R139, R172: what a SyncPoint(sc) publishes: after it every byte that the core's phase buffer held, none of its stores lying at the same
address, is what every party that sc covers around the core reads there; a leaf that the device marks written (R376) apart. -/
def Sys2Proof.Claims.SyncPointPublishes : Prop :=
  ∀ (s t : State) (k : Nat) (sc : Scope) (e : Entry) (r : Party) (i : Nat), syncPoint s k sc = some t →
    (s.core k).buf = [e] → i < e.bytes.length → covers sc (.core k) r = true → ¬ leafByte s (e.pa + i) →
    t.ms.byteAt r (e.pa + i) = e.bytes.getD i 0

/-- R140: WAITC completes when its counter is at most A, at once or once it is; on an engine's counter it ends with an acquire; above A
the core stands. -/
def Sys2Proof.Claims.CounterWaits : Prop :=
  ∀ (s : State) (x : Counter) (a : Src) (n : Nat) (eng : Option Engine),
    (x, n, eng) ∈ [(.LD, (s.core s.cur).cnt.LD, none), (.ST, (s.core s.cur).cnt.ST, none), (.RM, (s.core s.cur).cnt.RM, none),
      (.MX, (s.core s.cur).cnt.MX, some .MX), (.VX, (s.core s.cur).cnt.VX, some .VX), (.CP, (s.core s.cur).cnt.CP, some .CP),
      (.GL, (s.core s.cur).cnt.gl, some .GL), (.PS, (s.core s.cur).cnt.PS, some .PS)] →
    let u : Uses := { a, engs := eng.toList, moves := eng.isSome }
    let v := s.vals u
    s.ready u = true →
    (n ≤ v.a.toNat → eng = none → Completes (.waitc x a) u v.poison Core.advance s s) ∧
    (n ≤ v.a.toNat → eng ≠ none → (s.core s.cur).readsDone = true →
      Completes (.waitc x a) u v.poison Core.advance s (s.updCore s.cur (·.acquire s.ck))) ∧
    (v.a.toNat < n → ∃ t, exec (.waitc x a) s = .next t ∧ Stands (.waitc x a) s t)

/-- R141, R126: ARRIVE, aligned and translated, publishes first where it releases; then its increment is outstanding, ST one higher, and it
completes. The increment is one move: the latest visible word plus 1 is appended at its scope, and ST falls. -/
def Sys2Proof.Claims.Arrives : Prop :=
  (∀ (s : State) (o : RelOrder) (sc : Scope) (a : Src),
    let u : Uses := { a, moves := true }
    let v := s.vals u
    s.ready u = true → (s.core s.cur).readsDone = true → (s.core s.cur).pubDone = false →
    (v.a.toNat % 4 ≠ 0 → exec (.arrive o sc a) s = .next (takeTrap s s.cur 0x04 (encode (.arrive o sc a)) v.a (s.core s.cur).pc)) ∧
    (v.a.toNat % 4 = 0 → (s.core s.cur).watch true true v.a = none → ∀ (t : State) (pa : Nat) (host : Bool),
      translate s (coreDie s.cur) (s.core s.cur).masid v.a.toNat .store = (.ok pa host, t) →
      ∃ x : Access, x.op = .arrive sc ∧ x.d = .x 0 ∧ x.addr = v.a ∧ x.pa = some pa ∧ x.st = .issued ∧ x.dead = false ∧
        Completes (.arrive o sc a) u v.poison Core.advance s (t.updCore s.cur (fun c =>
          let c := if o = .rel then published sc c else c
          { c with acc := c.acc ++ [x], cnt := { c.cnt with ST := c.cnt.ST + 1 } })))) ∧
  (∀ (s : State) (k n dest : Nat) (a : Access) (pa : Nat) (sc : Scope),
    (s.core k).acc[n]? = some a → a.op = .arrive sc → a.d = .x 0 → a.st = .issued → a.dead = false → a.pa = some pa → a.bPoison = false →
    (s.core k).out = [] → s.ms.owned (pa / 64) = false → s.linePoison (pa / 64) = false →
    exec (.loadComplete k n dest) s = .next (
      ((s.updMs (·.put ((List.range 4).map (fun i =>
        (pa + i, BitVec.ofNat 8 ((((wordAt s.ms (.core k) pa).toNat + 1) % 2 ^ 32) / 256 ^ i)))) sc (.core k) a.launch)).updCore k (fun c =>
        let c := ({ c with snap := c.snap.filter (fun l => l.line != a.addr.toNat / 64) } : Core).touch a.addr.toNat pa
        { c with acc := c.acc.eraseIdx n, cnt := { c.cnt with ST := c.cnt.ST - 1 } })).latency k a.asid a.addr.toNat a.issuedAt dest))

/-- R141: AWAIT tests the latest visible word, at a healthy line not owned: where (word − B) modulo 2^32 is below 2^31 it completes, the
line leaving the snapshot, with an acquire where its order says so; otherwise the core stands at it, and a later AWAIT_TEST is the same
test again. -/
def Sys2Proof.Claims.Awaits : Prop :=
  (∀ (s t : State) (o : AcqOrder) (sc : Scope) (a b : Src) (pa : Nat) (host : Bool),
    let i := Instr.await o sc a b
    let u : Uses := { a, b, moves := true }
    let v := s.vals u
    s.ready u = true → (s.core s.cur).readsDone = true → v.a.toNat % 4 = 0 → (s.core s.cur).watch true false v.a = none →
    translate s (coreDie s.cur) (s.core s.cur).masid v.a.toNat .load = (.ok pa host, t) → t.ms.owned (pa / 64) = false →
    t.lineLost (pa / 64) = false →
    let word := wordAt t.ms (.core s.cur) pa
    let dropped (c : Core) : Core := { c with snap := c.snap.filter (fun l => l.line != v.a.toNat / 64) }
    ((word.toNat + 2 ^ 32 - v.b.toNat) % 2 ^ 32 < 2 ^ 31 →
      Completes i u v.poison Core.advance s (t.updCore s.cur (fun c => if o = .acq then c.acquire s.ck else dropped c))) ∧
    (¬ (word.toNat + 2 ^ 32 - v.b.toNat) % 2 ^ 32 < 2 ^ 31 → ∃ w, exec i s = .next w ∧ Stands i t w)) ∧
  (∀ (s w : State) (k : Nat) (o : AcqOrder) (sc : Scope) (a b : Src), (s.core k).standing = some (.await o sc a b) →
    exec (.await o sc a b) { s with cur := k } = .next w → exec (.awaitTest k) s = .next { w with cur := s.cur })

/-- R138, R142, R173: SSTEP of a task counts its arrival once, in the launch's current generation, whose first arrival fixes how many it
takes (0 counts as 1, at most 1,024), or, that one having all of its arrivals, in the first of those after it that has not; the core
stands until its generation is complete, then goes on. STEP_GENERATION_COMPLETE, once the arrivals are there, opens the next generation
with the arrivals it has, the participants having made one SyncPoint(P) together. Without a task, SSTEP is a SyncPoint(P) of the core's own
(the model's choice, log 21). -/
def Sys2Proof.Claims.Steps : Prop :=
  (∀ (s : State) (a : Src) (id : Nat) (l : Launch),
    let u : Uses := { a, moves := true }
    let v := s.vals u
    s.ready u = true → (s.core s.cur).launch = some id → tfind s.launches id = some l →
    let n := if v.a.toNat = 0 then 1 else min v.a.toNat 1024
    let counts (l' : Launch) (g : Nat) : Prop := ∃ t, exec (.sstep a) s = .next t ∧
      Stands (.sstep a) ({ s with launches := tset s.launches id l' }.updCore s.cur (fun c => { c with arrived := some g })) t
    ((s.core s.cur).arrived = none → l.arrivals < l.genN.getD n →
      counts { l with genN := some (l.genN.getD n), arrivals := l.arrivals + 1 } l.gen) ∧
    ((s.core s.cur).arrived = none → l.genN.getD n ≤ l.arrivals →
      (∀ full m x rest, l.later = full ++ (m, x) :: rest → (∀ p ∈ full, p.1 ≤ p.2) → x < m →
        counts { l with later := full ++ (m, x + 1) :: rest } (l.gen + 1 + full.length)) ∧
      ((∀ p ∈ l.later, p.1 ≤ p.2) → counts { l with later := l.later ++ [(n, 1)] } (l.gen + 1 + l.later.length))) ∧
    (∀ g, (s.core s.cur).arrived = some g → l.gen ≤ g → ∃ t, exec (.sstep a) s = .next t ∧ Stands (.sstep a) s t) ∧
    (∀ g, (s.core s.cur).arrived = some g → g < l.gen →
      Completes (.sstep a) u v.poison Core.advance s (s.updCore s.cur (fun c => { c with arrived := none })))) ∧
  (∀ (s : State) (a : Src),
    let u : Uses := { a, moves := true }
    s.ready u = true → (s.core s.cur).readsDone = true → (s.core s.cur).task = none → s.ms.own = [] → s.ms.moves = [] → s.viral = false →
    ∃ t, syncPoint s s.cur .P = some t ∧ Completes (.sstep a) u (s.vals u).poison Core.advance s t) ∧
  (∀ (s : State) (id : Nat) (l : Launch) (n : Nat), tfind s.launches id = some l → l.genN = some n → n ≠ 0 → n ≤ l.arrivals →
    s.saved = [] → s.ms.own = [] → s.ms.moves = [] → s.viral = false → (∀ k ∈ s.participants id l.gen, (s.core k).readsDone = true) →
    ∃ t, exec (.stepGenerationComplete id) s = .next t ∧
      tfind t.launches id = some { l with
        gen := l.gen + 1, genN := l.later.head?.map (·.1), arrivals := (l.later.head?.map (·.2)).getD 0, later := l.later.drop 1 } ∧
      (∀ k ∈ s.participants id l.gen, (t.core k).buf = [] ∧ (t.core k).out = [] ∧ (t.core k).snap = []) ∧
      (∀ k, k ∉ s.participants id l.gen → t.core k = { s.core k with dirty := (t.core k).dirty }) ∧ t.ms.mem = s.ms.mem) ∧
  (∀ (s : State) (id : Nat) (l : Launch) (n : Nat), tfind s.launches id = some l → l.genN = some n → l.arrivals < n →
    exec (.stepGenerationComplete id) s = .next s)

/-- R143, R195: EFENCE stands until every counter is 0; then, with an imprecise error pending, at any level, the oldest is taken at it as a
trap; otherwise it completes and changes nothing. -/
def Sys2Proof.Claims.ErrorFences : Prop :=
  ∀ s : State,
    let u : Uses := { engs := [.MX, .VX, .CP, .GL, .PS] }
    let c := s.core s.cur
    let quiet := c.cnt = { LD := 0, ST := 0, MX := 0, VX := 0, CP := 0, gl := 0, PS := 0, RM := 0 }
    s.ready u = true →
    (¬ quiet → ∃ t, exec .efence s = .next t ∧ Stands .efence s t) ∧
    (quiet → c.tr.imp = [] → Completes .efence u false Core.advance s s) ∧
    (quiet → c.tr.imp ≠ [] → exec .efence s = .next (deliverImp s s.cur))

/-- R144: ICSYNC publishes at P at its first issue and stands; when its outbound queue has landed and ST and RM are 0, the cluster's
instruction-cache lines that overlap [A, A + B), all for B = 0, and the core's fetch buffer are gone, and it completes. -/
def Sys2Proof.Claims.InstructionSyncs : Prop :=
  ∀ (s : State) (a b : Src),
    let i := Instr.icsync a b
    let u : Uses := { a, b, moves := true }
    let v := s.vals u
    let c := s.core s.cur
    s.ready u = true →
    (c.pubDone = false → c.readsDone = true → PublishesAndStands i .P s) ∧
    (c.pubDone = true → c.out = [] → c.cnt.ST = 0 → c.cnt.RM = 0 →
      let hit (line : Nat) : Prop := v.b.toNat = 0 ∨ (line * 64 + 2 ^ 32 - v.a.toNat) % 2 ^ 32 < v.b.toNat ∨
        (v.a.toNat + 2 ^ 32 - line * 64 % 2 ^ 32) % 2 ^ 32 < 64
      ∃ ic : List (Nat × Nat × List Byte), (∀ l, l ∈ ic ↔ l ∈ (s.cluster (s.cur / 8)).icache ∧ ¬ hit l.2.1) ∧
        Completes i u v.poison Core.advance s
          ((s.updCluster (s.cur / 8) (fun x => { x with icache := ic })).updCore s.cur (fun c => { c with fbuf := [] })))

end

/-! Messages and tasks. -/
namespace Sys2Proof.Claims
open Sys2Proof Sys2Proof.Machine

/-- The core stands at `i`, its effects so far those of `s0`, and offers a command, a message or an item; the queue entries that it read
leave their queues when it completes (R41, R138). -/
def Offers (i : Instr) (u : Uses) (poison : Bool) (h : Hand) (s s0 : State) : Prop :=
  ∃ t, exec i s = .next (t.updCore s.cur (fun c => { c with hand := some h, pops := u.pops, handPoison := poison })) ∧ Stands i s0 t

/-- Operands that pop exactly the given queues. -/
def popping (qs : List (Fin 7)) : Uses := { bs := qs.map (fun q => ⟨.q q, false⟩) }

/-- Event `e` completes the instruction in which core k stands with its offer: `s0` is the state with the event's own effect, and the rest
is what completion changes. -/
def OfferCompletes (e : Instr) (k : Nat) (s s0 : State) : Prop :=
  ∃ t, exec e s = .next { t with cur := s.cur } ∧
    Retires (popping (s.core k).pops) (s.core k).handPoison Core.advance { s0 with cur := k } t

/-- The message of R145 that SEND or SENDB makes: eight words, then count, channel and sender's rank, then the payload's length. -/
def message (words : List Word) (count ch rank : Nat) (bulk : List Byte) (poison : Bool) : Msg :=
  { words := (List.range 8).map (fun i => words.getD i 0) ++
      [BitVec.ofNat 32 (count * 2 ^ 28 + ch * 2 ^ 24 + rank), BitVec.ofNat 32 bulk.length, 0, 0, 0, 0, 0, 0], bulk, poison }

/-- The smallest scope that covers two cores of this package (R147). -/
def coreScope (j k : Nat) : Scope := if j / 8 = k / 8 then .K else if j / 128 = k / 128 then .D else .P

/-- A receiver's entry leads to a core of this package that is not fenced, or to a package that is not lost (R147). -/
def Answers (s s1 : State) (w : Word) : Prop :=
  if entryPkg w = s.pkg then (s1.core (entryCore w)).fenced = false else s1.peerLost (entryPkg w) = false

end Sys2Proof.Claims

section
open Sys2Proof Sys2Proof.Machine Sys2Proof.Claims

/-- R145, R147, R389: SEND and SENDB whose operand names no channel, or whose core has no rank, or whose receiver's rank resolves to
nothing, to a fenced core or to a lost package, trap CHANNEL. Otherwise they publish at the smallest scope that covers sender and receiver
and then offer their message: eight register words at most, or the payload read at B, whose causes SENDB takes before any effect. A fenced
core's send is discarded (R198): it completes. -/
def Obligations.Sends : Prop :=
  (∀ (s s1 : State) (i : Instr) (a : Src) (b : XReg) (eb : Bool) (u : Uses),
    ((∃ n : BitVec 5, i = .send a b eb n ∧ u = { a, bs := (regsFrom b n.toNat).map (fun r => ⟨.x r, eb⟩), moves := true }) ∨
      i = .sendb a b eb ∧ u = { a, b := some ⟨.x b, eb⟩, ds := (regsFrom b 2).drop 1, moves := true }) →
    let v := s.vals u
    s.ready u = true → (s.core s.cur).hand = none →
    ((v.a.toNat / 2 ^ 28 ≠ 0 ∨ (s.core s.cur).rank = none) →
      exec i s = .next (takeTrap s s.cur 0x0A v.a 0 (s.core s.cur).pc)) ∧
    (v.a.toNat / 2 ^ 28 = 0 → (s.core s.cur).rank ≠ none →
      (resolve s s.cur (v.a.toNat % 2 ^ 24) = (none, s1) ∨
        ∃ w, resolve s s.cur (v.a.toNat % 2 ^ 24) = (some w, s1) ∧ ¬ Answers s s1 w) →
      exec i s = .next (takeTrap s1 s.cur 0x0A v.a 0 (s.core s.cur).pc))) ∧
  (∀ (s s1 : State) (a : Src) (b : XReg) (eb : Bool) (n : BitVec 5) (w : Word) (me : Nat),
    let i := Instr.send a b eb n
    let u : Uses := { a, bs := (regsFrom b n.toNat).map (fun r => ⟨.x r, eb⟩), moves := true }
    let v := s.vals u
    let rank := v.a.toNat % 2 ^ 24
    let ch := v.a.toNat / 2 ^ 24 % 16
    let sc := if entryPkg w = s.pkg then coreScope s.cur (entryCore w) else .P
    s.ready u = true → (s.core s.cur).hand = none → (s.core s.cur).pubDone = false → (s.core s.cur).readsDone = true → s.cur < 1024 →
    v.a.toNat / 2 ^ 28 = 0 → (s.core s.cur).rank = some me → resolve s s.cur rank = (some w, s1) → Answers s s1 w →
    ((s.core s.cur).fenced = false → Offers i u v.poison (.msg rank ch (message v.bs n.toNat ch me [] v.poison)) s
      (s1.updCore s.cur (fun c => { published sc c with pubDone := true }))) ∧
    ((s.core s.cur).fenced = true → Completes i u v.poison Core.advance s s1)) ∧
  (∀ (s s1 s2 s3 : State) (a : Src) (b : XReg) (eb : Bool) (w : Word) (pas : List Nat) (bs : List Byte) (p : Bool) (me : Nat),
    let i := Instr.sendb a b eb
    let u : Uses := { a, b := some ⟨.x b, eb⟩, ds := (regsFrom b 2).drop 1, moves := true }
    let v := s.vals u
    let rank := v.a.toNat % 2 ^ 24
    let ch := v.a.toNat / 2 ^ 24 % 16
    let sc := if entryPkg w = s.pkg then coreScope s.cur (entryCore w) else .P
    s.ready u = true → (s.core s.cur).hand = none → (s.core s.cur).pubDone = false → (s.core s.cur).readsDone = true → s.cur < 1024 →
    v.a.toNat / 2 ^ 28 = 0 → (s.core s.cur).rank = some me → resolve s s.cur rank = (some w, s1) → Answers s s1 w →
    (v.b.toNat % 4 ≠ 0 → exec i s = .next (takeTrap s1 s.cur 0x04 (encode i) v.b (s.core s.cur).pc)) ∧
    (v.b.toNat % 4 = 0 →
      translateRun s1 (coreDie s.cur) (s.core s.cur).masid .load (vaRange v.b.toNat (min (v.ds.getD 0 0).toNat 65536 / 4 * 4)) [] =
        (.inl pas, s2) → (s.core s.cur).fenced = false →
      readBytes (s2.updCore s.cur (fun c => { published sc c with pubDone := true })) s.cur (s.core s.cur).pc v.b.toNat pas = some (bs, p, s3) →
      Offers i u v.poison (.msg rank ch (message (wordsOf 8 (bs.take 32 ++ List.replicate 32 0)) 0 ch me bs (v.poison || p))) s s3))

/-- R180, R181, R205, R409: MESSAGE_ARRIVAL of a message offered, its sender's queue drained: the receiver's interface takes it into the
channel's receive queue where that has room, no message of the channel stands in its berth and its payload fits; else into the berth
where it fits; and the sender's instruction completes. A full berth refuses it: the sender traps BERTH_FULL. To another package it leaves
as a packet, numbered in order, and the sender stands until the answer. BERTH_MOVE brings the oldest message of a channel from the berth
into its receive queue. -/
def Sys2Proof.Claims.MessagesArrive : Prop :=
  (∀ (s s1 : State) (k rank ch : Nat) (m : Msg) (w : Word), (s.core k).hand = some (.msg rank ch m) → (s.core k).out = [] →
    (s.core k).unstepped = true → resolve s k rank = (some w, s1) → entryPkg w = s.pkg → (s1.core (entryCore w)).fenced = false →
    let p := s1.corePart k
    let b := tget (s1.part p).berths {} rank
    let queueTakes (r : Nat) : Prop := (tget (s1.core r).recvq [] m.channel).length < 32 ∧ (∀ x ∈ b.msgs, x.channel ≠ m.channel) ∧
      m.payloadSlots ≤ b.free (some (s1.core r))
    (∀ r, s1.rankCore p rank = some r → queueTakes r → OfferCompletes (.messageArrival k) k s (s1.updCore r (fun c =>
        { c with recvq := tset c.recvq m.channel (tget c.recvq [] m.channel ++ [m]), woken := true }))) ∧
    ((∀ r, s1.rankCore p rank = some r → ¬ queueTakes r) → 1 + m.payloadSlots ≤ b.free ((s1.rankCore p rank).map s1.core) →
      OfferCompletes (.messageArrival k) k s (s1.updPart p (fun x =>
        { x with berths := tset x.berths rank { b with msgs := b.msgs ++ [m] } }))) ∧
    ((∀ r, s1.rankCore p rank = some r → ¬ queueTakes r) → b.free ((s1.rankCore p rank).map s1.core) < 1 + m.payloadSlots →
      exec (.messageArrival k) s = .next (takeTrap s1 k 0x0B (BitVec.ofNat 32 (ch * 2 ^ 24 + rank)) 0 (s.core k).pc))) ∧
  (∀ (s s1 : State) (k rank ch : Nat) (m : Msg), (s.core k).hand = some (.msg rank ch m) → (s.core k).out = [] →
    (resolve s k rank = (none, s1) ∨ ∃ w, resolve s k rank = (some w, s1) ∧ ¬ Answers s s1 w) →
    exec (.messageArrival k) s = .next (takeTrap s1 k 0x0A (BitVec.ofNat 32 (ch * 2 ^ 24 + rank)) 0 (s.core k).pc)) ∧
  (∀ (s s1 : State) (k rank ch : Nat) (m : Msg) (w : Word), (s.core k).hand = some (.msg rank ch m) → (s.core k).out = [] →
    resolve s k rank = (some w, s1) → entryPkg w ≠ s.pkg → s1.peerLost (entryPkg w) = false → s1.viral = false →
    let q := tget s1.peers {} (entryPkg w)
    q.unacked.length < 4096 →
    ∃ t, exec (.messageArrival k) s = .next t ∧ (t.core k).hand = some (.sent (entryPkg w) q.nextSeq rank ch) ∧
      (∃ q', t.peers = tset s1.peers (entryPkg w) q' ∧ q'.nextSeq = (q.nextSeq + 1) % 2 ^ 32 ∧
        q'.unacked = q.unacked ++ [(⟨s1.pkg, q.nextSeq, .message (entryCore w) rank m.words m.bulk⟩, s1.ck)]) ∧
      (t.core k).pc = (s.core k).pc ∧ t.ms = s1.ms ∧ ∀ j, j ≠ k → t.core j = s.core j) ∧
  (∀ (s : State) (k ch r : Nat) (m : Msg), (s.core k).rank = some r →
    let b := tget (s.part (s.corePart k)).berths {} r
    b.msgs.find? (fun m => m.channel == ch) = some m → (tget (s.core k).recvq [] ch).length < 32 →
    exec (.berthMove k ch) s = .next ((s.updPart (s.corePart k) (fun x =>
        { x with berths := tset x.berths r { b with msgs := b.msgs.erase m } })).updCore k (fun c =>
        { c with recvq := tset c.recvq ch (tget c.recvq [] ch ++ [m]), woken := true })))

/-- R145, R148, R181: RECV and RECVB, with no earlier receive of their channel outstanding, mark their destinations empty and complete;
RECEIVE then takes the oldest message of the channel in one move with an acquire: RECV's eight words go to d and up, at most to x23;
RECVB's payload enters the phase buffer word by word at B, and d holds its length in bytes. RECVB into x0 does that itself. A bad operand
traps CHANNEL, a misaligned B MISALIGNED; a receive behind another of its channel stands. -/
def Sys2Proof.Claims.Receives : Prop :=
  (∀ (s : State) (d : XReg) (a : Src),
    let i := Instr.recv d a
    let u : Uses := { a, dst := some (.x d), nregs := 8, moves := true }
    let v := s.vals u
    let ch := v.a.toNat / 2 ^ 24 % 16
    s.ready u = true →
    (v.a.toNat / 2 ^ 28 ≠ 0 → exec i s = .next (takeTrap s s.cur 0x0A v.a 0 (s.core s.cur).pc)) ∧
    (v.a.toNat / 2 ^ 28 = 0 → (s.core s.cur).receiving ch = true → ∃ t, exec i s = .next t ∧ Stands i s t) ∧
    (v.a.toNat / 2 ^ 28 = 0 → (s.core s.cur).receiving ch = false → ∃ x : Access, x.op = .recv ch ∧ x.d = .x d ∧ x.st = .issued ∧
      x.dead = false ∧ Completes i u v.poison Core.advance s (s.updCore s.cur (fun c =>
        { c with regs := (if d.val = 0 then [] else regsFrom d 8).foldl Regs.empty c.regs, acc := c.acc ++ [x] })))) ∧
  (∀ (s : State) (d : XReg) (a b : Src),
    let i := Instr.recvb d a b
    let u : Uses := { a, b, dst := some (.x d), moves := true }
    let v := s.vals u
    let ch := v.a.toNat / 2 ^ 24 % 16
    s.ready u = true →
    (v.b.toNat % 4 ≠ 0 → exec i s = .next (takeTrap s s.cur 0x04 (encode i) v.b (s.core s.cur).pc)) ∧
    (v.b.toNat % 4 = 0 → v.a.toNat / 2 ^ 28 ≠ 0 → exec i s = .next (takeTrap s s.cur 0x0A v.a 0 (s.core s.cur).pc)) ∧
    (v.b.toNat % 4 = 0 → v.a.toNat / 2 ^ 28 = 0 → (s.core s.cur).receiving ch = false → d.val ≠ 0 →
      ∃ x : Access, x.op = .recvb ch ∧ x.d = .x d ∧ x.b = v.b ∧ x.st = .issued ∧ x.dead = false ∧
        Completes i u v.poison Core.advance s (s.updCore s.cur (fun c => { c with regs := c.regs.empty d, acc := c.acc ++ [x] }))) ∧
    (v.b.toNat % 4 = 0 → v.a.toNat / 2 ^ 28 = 0 → (s.core s.cur).receiving ch = false → d.val = 0 →
      ∀ (n : Word) (p : Bool) (t : State), takeBulk s s.cur ch v.b = .took n p t → Completes i u v.poison Core.advance s t)) ∧
  (∀ (s : State) (k n ch : Nat) (a : Access) (d : XReg) (m : Msg) (rest : List Msg), (s.core k).acc[n]? = some a → a.op = .recv ch →
    a.d = .x d → a.st = .issued → a.dead = false → (s.core k).firstReceive n ch = true → (s.core k).readsDone = true →
    tget (s.core k).recvq [] ch = m :: rest →
    let words := if d.val = 0 then [] else m.words.take (min 8 (24 - d.val))
    exec (.receive k n) s = .next (s.updCore k (fun c =>
      let c := c.acquire s.ck
      { c with
        recvq := tset c.recvq ch rest
        acc := c.acc.eraseIdx n
        regs := ((regsFrom d words.length).zip words).foldl (fun r p => r.put p.1 p.2 m.poison) c.regs }))) ∧
  (∀ (s t : State) (k n ch : Nat) (a : Access) (v : Word) (p : Bool), (s.core k).acc[n]? = some a → a.op = .recvb ch →
    a.st = .issued → a.dead = false → (s.core k).firstReceive n ch = true → takeBulk s k ch a.b = .took v p t →
    exec (.receive k n) s = .next (t.updCore k (fun c => c.finish s.ck n [v] p))) ∧
  (∀ (s t : State) (k ch : Nat) (b v : Word) (p : Bool) (m : Msg) (rest : List Msg), takeBulk s k ch b = .took v p t →
    tget (s.core k).recvq [] ch = m :: rest → m.count = 0 →
    v.toNat = m.bulk.length % 2 ^ 32 ∧ p = m.poison ∧ (t.core k).snap = [] ∧ tget (t.core k).recvq [] ch = rest ∧
    (t.core k).regs = (s.core k).regs ∧
    ((s.core k).fenced = false → ∃ es : List Entry, (t.core k).buf = (s.core k).buf ++ es ∧ es.length = m.bulk.length / 4 ∧
      ∀ i, i < es.length → ∃ e, es[i]? = some e ∧ e.va = (b.toNat + 4 * i) % 2 ^ 32 ∧ e.bytes = (m.bulk.drop (4 * i)).take 4))

/-- R93, R94, R96, R151, R172: TAKE gives the item's words 1 to 3 in turn, and 0 outside a task or in flight 0. PASS publishes at D and then
offers its item of four words; in the last flight it has no landing and only completes. ITEM_PUSH puts an offered item into its landing
where that has room, and PASS completes; else PASS waits. -/
def Sys2Proof.Claims.Items : Prop :=
  (∀ (s : State) (d : Dst),
    let u : Uses := { dst := some d }
    s.ready u = true →
    ((s.core s.cur).task = none → Completes (.take d) u false Core.advance s (s.updCore s.cur (fun c => c.writeDst s.ck d 0 false))) ∧
    (∀ t, (s.core s.cur).task = some t → Completes (.take d) u false Core.advance s (s.updCore s.cur (fun c =>
      { c.writeDst s.ck d (if t.flight = 0 then 0 else t.item.getD (t.takes % 3) 0) false with
        task := some { t with takes := t.takes + 1 } })))) ∧
  (∀ (s : State) (a : Src) (b : XReg) (eb : Bool) (t : Task) (l : Launch),
    let i := Instr.pass a b eb
    let u : Uses := { a, bs := (regsFrom b 3).map (fun r => ⟨.x r, eb⟩), moves := true }
    let v := s.vals u
    s.ready u = true → (s.core s.cur).hand = none → (s.core s.cur).pubDone = false → (s.core s.cur).readsDone = true →
    (s.core s.cur).task = some t → tfind s.launches t.launch = some l →
    (t.flight + 1 < l.flights.length → Offers i u v.poison (.item (v.a :: v.bs)) s
      (s.updCore s.cur (fun c => { published .D c with pubDone := true }))) ∧
    (l.flights.length ≤ t.flight + 1 → Completes i u v.poison Core.advance s (s.updCore s.cur (published .D)))) ∧
  (∀ (s : State) (k : Nat) (ws : List Word) (t : Task) (l : Launch) (p : DiePart) (f : Flight), (s.core k).hand = some (.item ws) →
    (s.core k).task = some t → (s.core k).out = [] → (s.core k).unstepped = true → tfind s.launches t.launch = some l →
    tfind l.parts (coreDie k) = some p → l.flights[t.flight]? = some f → l.status ≠ 4 → p.left = false →
    ((p.landings.getD t.flight []).length < f.depth → OfferCompletes (.itemPush k) k s { s with
      launches := tset s.launches t.launch { l with parts := tset l.parts (coreDie k) { p with
        landings := p.landings.mapIdx (fun i y => if i = t.flight then y ++ [ws] else y) } } }) ∧
    (f.depth ≤ (p.landings.getD t.flight []).length → exec (.itemPush k) s = .next s))

/-- R88, R133, R152: TDONE publishes at P and ends its task: the core is idle at task level without a task, its queues and snapshot empty,
its loops inactive, its grant gone; what it sealed goes on to land; its launch has one task less running. -/
def Sys2Proof.Claims.TaskEnds : Prop :=
  ∀ (s : State) (t : Task) (l : Launch),
    let u : Uses := { engs := [.MX, .VX, .CP, .GL, .PS], moves := true }
    s.ready u = true → (s.core s.cur).readsDone = true → (s.core s.cur).pubDone = false → (s.core s.cur).vec.unknown = false →
    (s.core s.cur).vec.passes = 0 → (s.core s.cur).run = .running → (s.core s.cur).fenced = false → (s.core s.cur).gal.slots = [] → (s.core s.cur).task = some t → tfind s.launches t.launch = some l →
    ∃ w, exec .tdone s = .next w ∧
      let c := w.core s.cur
      c.task = none ∧ c.run = .idle ∧ c.priv = .task ∧ c.standing = none ∧ c.buf = [] ∧ c.snap = [] ∧ c.fbuf = [] ∧
      c.out = (published .P (s.core s.cur)).out ∧ c.cnt = (published .P (s.core s.cur)).cnt ∧ (∀ q : Fin 7, c.regs.q[q] = []) ∧
      c.loop0.active = false ∧ c.loop1.active = false ∧ c.vec.grant = 0 ∧
      (∃ l', tfind w.launches t.launch = some l' ∧ l'.running = l.running - 1 ∧ l'.status = l.status ∧ l'.started = l.started) ∧
      (∀ j, j ≠ s.cur → w.core j = s.core j) ∧ w.ms = s.ms

/-- R101, R153: MARK publishes at P at its first issue and stands. Its queue landed, it records its mark number and goes on where the
task's die stays in its launch's mask; a pending die set takes effect. On a die that leaves, once every counter is 0, the task ends and is
placed again, with the mark, on a die of the new mask. Without a task it only completes. -/
def Sys2Proof.Claims.Marks : Prop :=
  ∀ (s : State) (a : Src),
    let i := Instr.mark a
    let u : Uses := { a, engs := [.MX, .VX, .CP, .GL, .PS], moves := true }
    let v := s.vals u
    let c := s.core s.cur
    s.ready u = true →
    (c.pubDone = false → c.readsDone = true → PublishesAndStands i .P s) ∧
    (c.pubDone = true → c.out = [] → c.task = none → Completes i u v.poison Core.advance s s) ∧
    (∀ (t : Task) (l : Launch), c.pubDone = true → c.out = [] → c.task = some t → tfind s.launches t.launch = some l →
      (l.pendMask = none → l.mask / 2 ^ coreDie s.cur % 2 = 1 →
        ∃ ls : Tbl Launch, (∀ id, tfind ls id = tfind s.launches id) ∧
          Completes i u v.poison Core.advance s ({ s with launches := ls }.updCore s.cur (fun c => { c with marked := v.a }))) ∧
      (∀ m, l.pendMask = some m → ∃ w l', exec i s = .next w ∧ tfind w.launches t.launch = some l' ∧ l'.mask = m ∧ l'.pendMask = none) ∧
      (l.pendMask = none → l.mask / 2 ^ coreDie s.cur % 2 = 0 → l.mask % 256 ≠ 0 → c.gal.slots = [] → c.run = .running → c.fenced = false →
        c.cnt = { LD := 0, ST := 0, MX := 0, VX := 0, CP := 0, gl := 0, PS := 0, RM := 0 } →
        ∃ w, exec i s = .next w ∧ (w.core s.cur).task = none ∧ (w.core s.cur).run = .idle ∧
          ∃ l' die, tfind w.launches t.launch = some l' ∧ l'.running = l.running - 1 ∧ die < 8 ∧ l.mask / 2 ^ die % 2 = 1 ∧
            l'.again = l.again ++ [⟨die, t.flight, t.row, t.col, t.item, v.a⟩]))

/-- R102, R150: LAUNCH traps MISALIGNED at an address that is no multiple of 256; otherwise it publishes at P at its first issue and stands;
then it reads its record. With the die's table full it gives 0xFFFF; otherwise the free slot's next handle, and the new launch, a child of
this task, stands in its slot with its notice still to come. -/
def Sys2Proof.Claims.ChildLaunches : Prop :=
  ∀ (s s1 s2 : State) (d : Dst) (a : Src) (pas : List Nat) (bs : List Byte) (p : Bool),
    let i := Instr.launch d a
    let u : Uses := { a, dst := some d, moves := true }
    let v := s.vals u
    let c := s.core s.cur
    s.ready u = true →
    (v.a.toNat % 256 ≠ 0 → exec i s = .next (takeTrap s s.cur 0x04 (encode i) v.a c.pc)) ∧
    (v.a.toNat % 256 = 0 → translateRun s (coreDie s.cur) c.masid .load (vaRange v.a.toNat 256) [] = (.inl pas, s1) →
      (c.pubDone = false → c.readsDone = true →
        ∃ t, exec i s = .next t ∧ Stands i (s1.updCore s.cur (fun c => { published .P c with pubDone := true })) t) ∧
      (c.pubDone = true → c.out = [] → readBytes s1 s.cur c.pc v.a.toNat pas = some (bs, p, s2) →
        ((s2.die (coreDie s.cur)).freeChild = none → Completes i u v.poison Core.advance s
          (s2.updCore s.cur (fun c => c.writeDst s.ck d 0xFFFF (v.poison || p)))) ∧
        (∀ slot, (s2.die (coreDie s.cur)).freeChild = some slot → ∃ (seq : Nat) (l : Launch),
          (tfind (s2.die (coreDie s.cur)).children slot = none → seq = 0) ∧
          (∀ o, tfind (s2.die (coreDie s.cur)).children slot = some o → seq = (o.seq + 1) % 255) ∧
          l.status = recordStatus s2 (s2.corePart s.cur) (wordsOf 64 bs) l.mask ∧
          (l.mask = ((wordsOf 64 bs).getD 2 0).toNat % 256 ∨ ((wordsOf 64 bs).getD 2 0).toNat % 256 = 0 ∧ l.mask = 2 ^ coreDie s.cur) ∧
          l.src = .child (coreDie s.cur) (seq * 256 + slot) ((c.task.map (·.uid)).getD 0) (c.launch.getD 0) ∧
          Completes i u v.poison Core.advance s
            (({ s2 with launches := tset s2.launches s2.nextLaunch l, nextLaunch := s2.nextLaunch + 1 }.updDie (coreDie s.cur) (fun x =>
              { x with children := tset x.children slot { seq, launch := some s2.nextLaunch, noticed := true } })).updCore s.cur (fun c =>
                c.writeDst s.ck d (BitVec.ofNat 32 (seq * 256 + slot)) (v.poison || p))))))

/-- R149, R205, R208: MIGR to a core of another partition traps PRIVILEGE. It publishes at P at its first issue, to another core once all
counters are 0, and stands. Its queue landed, to the core itself it completes; to another core, the grant released, it waits until that is
free and no launch keeps it in reserve (R96); then the task continues there at the next word, with its registers, queues, loops, upcall
state and receive queues, and this core is idle without a task. -/
def Obligations.Migrates : Prop :=
  ∀ (s : State) (a : Src),
    let i := Instr.migr a
    let u : Uses := { a, engs := [.MX, .VX, .CP, .GL, .PS] }
    let v := s.vals u
    let c := s.core s.cur
    let t := v.a.toNat % 1024
    s.ready u = true →
    (s.corePart t ≠ s.corePart s.cur → exec i s = .next (takeTrap s s.cur 0x06 0 0 c.pc)) ∧
    (t = s.cur → c.pubDone = false → c.readsDone = true → PublishesAndStands i .P s) ∧
    (t = s.cur → c.pubDone = true → c.out = [] → Completes i u v.poison Core.advance s s) ∧
    (t ≠ s.cur → s.corePart t = s.corePart s.cur → c.pubDone = false → c.acc = [] → c.vec.reneg = none →
      c.cnt = { LD := 0, ST := 0, MX := 0, VX := 0, CP := 0, gl := 0, PS := 0, RM := 0 } → PublishesAndStands i .P s) ∧
    (t ≠ s.cur → s.corePart t = s.corePart s.cur → c.pubDone = true → c.out = [] → c.hand ≠ some (.move t true) → (s.core t).isFree = false →
      ∃ w, exec i s = .next w ∧ (w.core s.cur).standing = some i ∧ (w.core s.cur).hand = some (.move t false) ∧
        (w.core s.cur).vec.grant = 0 ∧ (w.core s.cur).task = c.task ∧ (∀ j, j ≠ s.cur → w.core j = s.core j) ∧ w.ms = s.ms) ∧
    (t ≠ s.cur → s.corePart t = s.corePart s.cur → c.pubDone = true → c.out = [] → c.hand ≠ some (.move t true) → (s.core t).isFree = true →
      s.canTake t (c.launch.getD 0) = true → c.rank = none → c.run = .running → c.fenced = false →
      ∃ w, exec i s = .next w ∧
        (w.core t).regs.x = c.regs.x ∧ (w.core t).regs.full = c.regs.full ∧ (w.core t).pc = c.advance.pc ∧
        (w.core t).loop0 = c.advance.loop0 ∧ (w.core t).loop1 = c.advance.loop1 ∧ (w.core t).up = c.up ∧ (w.core t).task = c.task ∧
        (w.core t).run = .running ∧ (w.core t).recvq = c.recvq ∧ (w.core t).cache = (s.core t).cache ∧ (w.core t).group = (s.core t).group ∧
        (w.core t).tr = (s.core t).tr ∧ (∀ q : Fin 7, (w.core t).regs.q[q] = (c.regs.q[q]).drop (u.pops.count q)) ∧
        (w.core s.cur).task = none ∧ (w.core s.cur).run = .idle ∧ (w.core s.cur).acc = [] ∧
        (∀ j, j ≠ s.cur → j ≠ t → w.core j = s.core j) ∧ w.ms = s.ms)

end

/-! Exceptions, returns, waits. -/
namespace Sys2Proof.Claims
open Sys2Proof Sys2Proof.Machine

/-- What an exception leaves of the instruction at which the core stood: it stands in none and offers nothing; the fetch buffer is empty. -/
def abandoned (c : Core) : Core :=
  { c with
    standing := none, pubDone := false, hand := none, pops := [], handPoison := false, fbuf := [], waitSince := 0, woken := false,
    freed := false }

/-- One more instruction has retired. -/
def retiredOne (c : Core) : Core := { c with dbg := { c.dbg with retired := c.dbg.retired + 1 } }

/-- Of the package outside its cores only the telemetry of a fault detail has changed: a record in a gallery's class 0, or one more withheld
(R318, R319). -/
def OnlyTelemetry (s t : State) : Prop :=
  t = { s with cores := t.cores, dies := t.dies, withheld := t.withheld } ∧
  ∀ d, t.die d = { s.die d with gal := { (s.die d).gal with cls := (t.die d).gal.cls } }

end Sys2Proof.Claims

section
open Sys2Proof Sys2Proof.Machine Sys2Proof.Claims

/-- R187, R188, R41: a trap at task level, or at a higher level with RE = 1, writes the address of its instruction, cause, address and
detail to TRPC, TRCAUSE, TRADDR and TRDETAIL, clears RE, sets FROMSUP exactly for a trap above task level, sets the privilege to
supervisor (a service core stays at its own level), and goes on at TRVEC. Registers, full/empty bits, queues, loops, upcall state,
grant, counters, phase buffer, outbound queue, snapshot and outstanding producers stay, and every other core, and memory. -/
def Sys2Proof.Claims.TrapEntry : Prop :=
  ∀ (s : State) (k cause : Nat) (detail addr pc : Word), ((s.core k).priv = .task ∨ (s.core k).tr.re = true) →
    (s.core k).dbg.stepping = false →
    let t := takeTrap s k cause detail addr pc
    let c := s.core k
    t.core k = { abandoned c with
      tr := { c.tr with pc := pc, cause := cause, addr := addr, detail := detail, re := false, fromSup := decide (c.priv ≠ .task) }
      priv := if c.priv = .service then .service else .supervisor
      pc := c.tr.vec
      emptySince := none
      dbg := (t.core k).dbg } ∧
    (t.core k).dbg.traps = c.dbg.traps + 1 ∧ (∀ j, j ≠ k → t.core j = s.core j) ∧ OnlyTelemetry s t

/-- R188, R198, R210: a trap above task level with RE = 0 is a double trap: DOUBLE is set, the core halts in debug with reason 6, none of the
saved-address registers changes, and, on a core that is no service core, its basin is fenced. -/
def Sys2Proof.Claims.DoubleTrap : Prop :=
  ∀ (s : State) (k cause : Nat) (detail addr pc : Word), k < 1024 → (s.core k).priv ≠ .task → (s.core k).tr.re = false →
    let t := takeTrap s k cause detail addr pc
    (t.core k).tr.double = true ∧ (t.core k).run = .debug 6 ∧ (t.core k).tr.pc = (s.core k).tr.pc ∧
    (t.core k).tr.cause = (s.core k).tr.cause ∧ (t.core k).pc = (s.core k).pc ∧ (t.core k).regs = (s.core k).regs ∧
    (∀ j ∈ s.basinCores k, (t.core j).fenced = true)

/-- R84, R104: PAGE_MISS and PAGE_DEMOTED at task level with EN = 1 and IN = 0 are upcalls: UPPC, UPCAUSE and UPADDR are written, IN set, and
the core goes on at UPVEC at task level, with everything else as it was; elsewhere they, and every other cause everywhere, are traps. A
single-step stop follows the entry: while ARM = 0, a BREAK trap at UPVEC (R189, R213). -/
def Sys2Proof.Claims.Upcalls : Prop :=
  ∀ (s : State) (k cause : Nat) (detail addr pc : Word), (s.core k).dbg.stepping = false →
    let t := deliver s k cause detail addr pc
    let c := s.core k
    let upcall := (cause = 0x10 ∨ cause = 0x11) ∧ c.priv = .task ∧ c.up.en = true ∧ c.up.inH = false
    (upcall → c.dbg.step = false → t.core k = { abandoned c with
        up := { c.up with pc := pc, cause := cause, addr := addr, inH := true }, pc := c.up.vec, emptySince := none, dbg := (t.core k).dbg } ∧
      (∀ j, j ≠ k → t.core j = s.core j) ∧ OnlyTelemetry s t) ∧
    (upcall → c.dbg.step = true → c.dbg.arm = false →
      (t.core k).up = { c.up with pc := pc, cause := cause, addr := addr, inH := true } ∧ (t.core k).tr.cause = 0x09 ∧
      (t.core k).tr.detail = 3 ∧ (t.core k).tr.pc = c.up.vec ∧ (t.core k).priv = .supervisor) ∧
    (¬ upcall → t = takeTrap s k cause detail addr pc)

/-- R198: a fence of a core's basin, in one step: each of its cores is fenced, its phase buffer and outbound queue are empty and count
nowhere, its engine commands are recalled, BASIN_FENCED is pending for it, and a core at task level, HALT apart, is in its supervisor
handler with that cause; of another core nothing changes but a migration's wait for a core of the basin (R208). -/
def Sys2Proof.Claims.BasinFence : Prop :=
  ∀ (s : State) (k : Nat),
    let t := fenceBasin s k
    (∀ j ∈ s.basinCores k,
      let c := t.core j
      c.fenced = true ∧ c.buf = [] ∧ c.out = [] ∧ c.cnt.ST = 0 ∧ c.cnt.RM = 0 ∧ c.cnt.MX = 0 ∧ c.cnt.VX = 0 ∧ c.cnt.CP = 0 ∧
      c.cnt.gl = 0 ∧ c.cnt.PS = 0 ∧ c.mat.queue = [] ∧ c.vec.seq = [] ∧ c.cpy.queue = [] ∧ c.gal.queue = [] ∧ c.fer.queue = [] ∧
      c.regs = (s.core j).regs ∧ (∃ r, c.tr.imp = (s.core j).tr.imp ++ [r] ∧ r.cause = 0x72) ∧
      ((s.core j).priv = .task → (s.core j).run ≠ .halted → (s.core j).dbg.stepping = false →
        c.priv = .supervisor ∧ c.pc = (s.core j).tr.vec ∧ c.tr.cause = 0x72 ∧ c.tr.pc = (s.core j).pc)) ∧
    (∀ j, j ∉ s.basinCores k → t.core j = { s.core j with hand := (t.core j).hand }) ∧ t.ms.mem = s.ms.mem

/-- R155, R189, R190, R210: TRAP takes cause 8 at itself with A as TRDETAIL; BRK takes cause 9 at itself, or, while the debug module is armed,
halts the core in debug with reason 2; neither completes. -/
def Sys2Proof.Claims.DeliberateTraps : Prop :=
  (∀ (s : State) (a : Src), s.ready { a } = true →
    exec (.trap a) s = .next (takeTrap s s.cur 0x08 (s.vals { a }).a 0 (s.core s.cur).pc)) ∧
  (∀ s : State, s.ready {} = true → (s.core s.cur).dbg.arm = false → exec .brk s = .next (takeTrap s s.cur 0x09 0 0 (s.core s.cur).pc)) ∧
  (∀ s : State, s.ready {} = true → (s.core s.cur).dbg.arm = true → ∃ t, exec .brk s = .next t ∧ (t.core s.cur).run = .debug 2 ∧
    (t.core s.cur).pc = (s.core s.cur).pc ∧ (t.core s.cur).regs = (s.core s.cur).regs ∧ (t.core s.cur).tr = (s.core s.cur).tr ∧
    (∀ j, j ≠ s.cur → t.core j = s.core j) ∧ t.ms = s.ms)

/-- R48, R49: a word that is no instruction takes the cause of its first failed check at itself, and nothing of it is executed; one that
names an unassigned CSR takes ILLEGAL_OP, the first of R49's order (the model's choice, log 85). -/
def Sys2Proof.Claims.IllegalWords : Prop :=
  ∀ (s : State) (w : Word) (e : DecodeErr), decodeWord w = .error e →
    let csr := w.toNat % 2 ^ 12
    let noCsr := w.toNat / 2 ^ 26 = 0x2F ∧ w.toNat / 2 ^ 12 % 8 < 4 ∧ ∀ t, csrTarget s s.cur csr = some t → csrAssigned s t csr = false
    let takes (cause : Nat) : Prop := exec (.illegalWord w) s = .next (takeTrap s s.cur cause 0 0 (s.core s.cur).pc)
    (e = .illegalOp → takes 0x01) ∧ (e = .reservedField ∨ e = .queueWrite → noCsr → takes 0x01) ∧
    (e = .reservedField → ¬ noCsr → takes 0x02) ∧ (e = .queueWrite → ¬ noCsr → takes 0x0C)

/-- R156, R195, R198: ERET above task level goes back to the task at TRPC, everything else as the handler left it; with imprecise errors
pending the next is taken there at once; a fenced core ends with HALT; a TRPC that is not word-aligned is MISALIGNED at the ERET (the
model's reading of R36). UPRET clears IN and goes on at UPPC at task level, whatever IN was. Neither publishes nor acquires. -/
def Sys2Proof.Claims.Returns : Prop :=
  (∀ s : State, s.ready { floor := .supervisor } = true →
    let c := s.core s.cur
    let back (c : Core) : Core := { abandoned (retiredOne c) with priv := if c.priv = .service then .service else .task, pc := c.tr.pc }
    (c.fenced = false → c.tr.pc.toNat % 4 = 0 → (c.tr.imp = [] ∨ c.priv = .service) → exec .eret s = .next (s.updCore s.cur back)) ∧
    (∀ r rest, c.fenced = false → c.tr.pc.toNat % 4 = 0 → c.tr.imp = r :: rest → c.priv = .supervisor →
      let t := takeTrap (s.updCore s.cur back) s.cur r.cause (BitVec.ofNat 32 (min (rest.length + 1) 255)) r.addr c.tr.pc
      exec .eret s = .next (if r.cause = 0x70 ∨ r.cause = 0x71 ∨ r.cause = 0x73 then fenceBasin t s.cur else t)) ∧
    (c.fenced = true → exec .eret s = .next (s.updCore s.cur (fun c => { abandoned (retiredOne c) with run := .halted }))) ∧
    (c.fenced = false → c.tr.pc.toNat % 4 ≠ 0 → exec .eret s = .next (takeTrap s s.cur 0x04 (encode .eret) c.tr.pc c.pc))) ∧
  (∀ s : State, s.ready {} = true → exec .upret s = .next (s.updCore s.cur (fun c =>
    { completed s.ck c with up := { c.up with inH := false }, pc := c.up.pc, priv := .task })))

/-- R157: RESUME reads its area of 32 words by the read move. A saved UPPC, LS or LE that is not word-aligned traps MISALIGNED with that word
as address, nothing restored. Otherwise each register whose saved mask bit is set gets its saved word, full, every other stays as it
was; loops and UPPC are restored, IN is cleared, and the core goes on at UPPC at task level. -/
def Sys2Proof.Claims.Resumes : Prop :=
  ∀ (s s1 s2 : State) (a : Src) (pas : List Nat) (bs : List Byte) (p : Bool),
    let i := Instr.resume a
    let u : Uses := { a, moves := true }
    let v := s.vals u
    let w (n : Nat) : Word := (wordsOf 32 bs).getD n 0
    s.ready u = true →
    (v.a.toNat % 4 ≠ 0 → exec i s = .next (takeTrap s s.cur 0x04 (encode i) v.a (s.core s.cur).pc)) ∧
    (v.a.toNat % 4 = 0 → translateRun s (coreDie s.cur) (s.core s.cur).masid .load (vaRange v.a.toNat 128) [] = (.inl pas, s1) →
      readBytes s1 s.cur (s.core s.cur).pc v.a.toNat pas = some (bs, p, s2) →
      (∀ n, [31, 25, 26, 28, 29].find? (fun n => (w n).toNat % 4 ≠ 0) = some n →
        exec i s = .next (takeTrap s2 s.cur 0x04 (encode i) (w n) (s.core s.cur).pc)) ∧
      ((∀ n ∈ [31, 25, 26, 28, 29], (w n).toNat % 4 = 0) → (s.core s.cur).acc = [] → (s.core s.cur).discarded = [] →
        ∃ t, exec i s = .next t ∧
          (∀ n : XReg, n.val ≠ 0 → (w 23).getLsbD n.val = true →
            (t.core s.cur).regs.get n = w (n.val - 1) ∧ (t.core s.cur).regs.isFull n = true) ∧
          (∀ n : XReg, (w 23).getLsbD n.val = false →
            (t.core s.cur).regs.get n = (s.core s.cur).regs.get n ∧ (t.core s.cur).regs.isFull n = (s.core s.cur).regs.isFull n) ∧
          (t.core s.cur).loop0 = ⟨w 24, w 25, w 26, (w 30).getLsbD 0⟩ ∧ (t.core s.cur).loop1 = ⟨w 27, w 28, w 29, (w 30).getLsbD 1⟩ ∧
          (t.core s.cur).up = { (s.core s.cur).up with pc := w 31, inH := false } ∧ (t.core s.cur).pc = w 31 ∧
          (t.core s.cur).priv = .task ∧ (t.core s.cur).standing = none ∧
          (∀ q : Fin 7, (t.core s.cur).regs.q[q] = ((s.core s.cur).regs.q[q]).drop (u.pops.count q)) ∧
          (t.core s.cur).buf = (s.core s.cur).buf ∧ (t.core s.cur).out = (s.core s.cur).out ∧
          (∀ j, j ≠ s.cur → t.core j = s.core j) ∧ t.ms = s1.ms))

/-- R158: YIELD ends at once with A = 0 or a pre-emption request; otherwise the core stands, from that ck on. Standing, it ends when an entry
or a message has come, at a pre-emption request, or once A ck have passed; YIELD_TIMEOUT is that test again. It changes nothing. -/
def Sys2Proof.Claims.Yields : Prop :=
  (∀ (s : State) (a : Src),
    let u : Uses := { a }
    let v := s.vals u
    let c := s.core s.cur
    s.ready u = true →
    (c.standing = some (.yield a) → (c.woken = true ∨ c.saveReq.isSome = true ∨ c.waitSince + v.a.toNat ≤ s.ck) →
      Completes (.yield a) u v.poison Core.advance s s) ∧
    (c.standing = some (.yield a) → c.woken = false → c.saveReq = none → s.ck < c.waitSince + v.a.toNat →
      ∃ t, exec (.yield a) s = .next t ∧ Stands (.yield a) s t) ∧
    (c.standing = none → (c.saveReq.isSome = true ∨ v.a.toNat = 0) → Completes (.yield a) u v.poison Core.advance s
      (s.updCore s.cur (fun c => { c with waitSince := s.ck, woken := false, freed := false }))) ∧
    (c.standing = none → c.saveReq = none → v.a.toNat ≠ 0 →
      ∃ t, exec (.yield a) s = .next t ∧ Stands (.yield a) s t ∧ (t.core s.cur).waitSince = s.ck ∧ (t.core s.cur).woken = false)) ∧
  (∀ (s w : State) (k : Nat) (a : Src), (s.core k).standing = some (.yield a) →
    exec (.yield a) { s with cur := k } = .next w → exec (.yieldTimeout k) s = .next { w with cur := s.cur })

/-- R159: HALT above task level retires and then its core issues no more. -/
def Sys2Proof.Claims.Halts : Prop :=
  ∀ s : State, s.ready { floor := .supervisor } = true →
    exec .halt s = .next (s.updCore s.cur (fun c => { (completed s.ck c).advance with run := .halted }))

/-- R22, R158, R195, R198: the oldest result held behind a queue that has room enters it, and ends a YIELD; a pending imprecise error of a
running core at task level is taken, the oldest first, at the instruction at which it stands, with the count of those pending as detail;
data errors and lost peers then fence its basin, if it is not fenced. -/
def Sys2Proof.Claims.Deliveries : Prop :=
  (∀ (s : State) (k : Nat) (q : Fin 7) (e : PWord), (s.core k).regs.held.find? (fun x => x.1 == q.val) = some (q.val, e) →
    ((s.core k).regs.q[q]).length < 16 →
    exec (.queueHeldDelivery k q.val) s = .next (s.updCore k (fun c => { c with
      regs := { c.regs with q := c.regs.q.set q (c.regs.q[q] ++ [e]), held := c.regs.held.erase (q.val, e) }, woken := true }))) ∧
  (∀ (s : State) (k : Nat) (r : ImpRec) (rest : List ImpRec), (s.core k).priv = .task → (s.core k).run = .running →
    (s.core k).tr.imp = r :: rest →
    let t := takeTrap s k r.cause (BitVec.ofNat 32 (min (rest.length + 1) 255)) r.addr (s.core k).pc
    exec (.impreciseErrorDelivery k) s = .next (if (r.cause = 0x70 ∨ r.cause = 0x71 ∨ r.cause = 0x73) ∧ (s.core k).fenced = false then fenceBasin t k else t))

/-- R159, R189, R209 to R213: an address breakpoint stops its core before the word is decoded: a BREAK trap with its number, or, armed, a halt
with reason 3. With the owner's permission: HALTREQ halts a core that is not halted, with reason 1, whether it runs, has no task or has
stopped by HALT; RESUMEREQ lets a core that debug or HALT has stopped go on at its PC with an empty fetch buffer, stepping where STEP and
ARM are set, and one without a task be free; DBGDATA fills the selected register of a halted core and does nothing else. Without it nothing
happens. -/
def Sys2Proof.Claims.DebugStops : Prop :=
  (∀ (s : State) (k n : Nat), (s.core k).breakpoint = some n →
    ((s.core k).dbg.arm = false → exec (.addressBreakpointMatch k) s =
      .next (takeTrap s k 0x09 (BitVec.ofNat 32 (1 + 4 * n)) 0 (s.core k).pc)) ∧
    ((s.core k).dbg.arm = true → ∃ t, exec (.addressBreakpointMatch k) s = .next t ∧ (t.core k).run = .debug 3 ∧
      (t.core k).pc = (s.core k).pc ∧ (t.core k).regs = (s.core k).regs ∧ ∀ j, j ≠ k → t.core j = s.core j)) ∧
  (∀ (s : State) (k : Nat), s.debugAdmits k = true → (∀ r, (s.core k).run ≠ .debug r) → (s.core k).hand = none →
    (s.die (coreDie k)).lost = false →
    ∃ t, exec (.dbgHaltreq k) s = .next t ∧ (t.core k).run = .debug 1 ∧ (t.core k).dbg.haltReq = false ∧ (t.core k).pc = (s.core k).pc ∧
      (t.core k).regs = (s.core k).regs ∧ (t.core k).buf = (s.core k).buf ∧ (t.core k).out = (s.core k).out ∧
      (∀ j, j ≠ k → t.core j = s.core j) ∧ t.ms = s.ms) ∧
  (∀ (s : State) (k : Nat), s.debugAdmits k = true → (s.die (coreDie k)).lost = false → (s.core k).run = .halted ∨ (∃ r, (s.core k).run = .debug r) →
    exec (.dbgResumereq k) s = .next (s.updCore k (fun c => { c with
      run := if c.task = none ∧ c.priv = .task ∧ c.fenced = false then .idle else .running
      fbuf := [], dbg := { c.dbg with stepping := c.dbg.step && c.dbg.arm } }))) ∧
  (∀ (s : State) (k : Nat) (v : Word), s.debugAdmits k = false →
    exec (.dbgHaltreq k) s = .next s ∧ exec (.dbgResumereq k) s = .next s ∧ exec (.dbgdataWrite k v) s = .next s) ∧
  (∀ (s : State) (k r : Nat), s.debugAdmits k = true → (s.core k).run = .debug r →
    exec (.dbgHaltreq k) s = .next s ∧
    ∀ (v : Word) (n : XReg), n.val ≠ 0 → (s.core k).dbg.sel = n.val →
      exec (.dbgdataWrite k v) s = .next (s.updCore k (fun c => { c with regs := c.regs.put n v false }))) ∧
  (∀ (s : State) (k : Nat) (v : Word), (s.core k).run = .running → exec (.dbgdataWrite k v) s = .next s)

end

/-! Control and status registers. -/
namespace Sys2Proof.Claims
open Sys2Proof Sys2Proof.Machine

/-- Operands of the CSR instructions, whether they write, and what they write from the old value and A (R161). -/
def csrOp : Instr → Option (Dst × BitVec 12 × Option Src × Bool × (Word → Word → Word))
  | .csrr d n => some (d, n, none, false, fun o _ => o)
  | .csrw d a n => some (d, n, some a, true, fun _ x => x)
  | .csrs d a n => some (d, n, some a, true, fun o x => ofBits (fun i => bitOf o i || bitOf x i))
  | .csrc d a n => some (d, n, some a, true, fun o x => ofBits (fun i => bitOf o i && !bitOf x i))
  | _ => none

/-- Lowest level that may read, or write, a CSR: by the ranges of R53 and the tables' write privileges. -/
def csrLevel (n : Nat) (write : Bool) : Priv :=
  if 0xC00 ≤ n then .service
  else if 0x800 ≤ n ∨ (0x600 ≤ n ∧ n < 0x700) then .supervisor
  else if write ∧ (n ∈ [0x040, 0x041, 0x102, 0x105, 0x108, 0x218, 0x401, 0x402, 0x404, 0x405] ∨ (0x700 ≤ n ∧ n < 0x740)) then .supervisor
  else .task

/-- CSRs that a legal write sets to the value written: their writable bits, and the bits that always read 1. -/
def plainCsrs : List (Nat × Word × Word) :=
  [(0x008, 0x00FFFFFF, 1), (0x010, 0xFFFFFFFF, 0), (0x011, 0xFFFFFFFF, 0), (0x012, 0xFFFFFFFF, 0), (0x013, 0xFFFFFFFF, 0),
   (0x014, 0xFFFFFFFF, 0), (0x015, 0xFFFFFFFF, 0), (0x016, 3, 0), (0x020, 0xFFFFFFFF, 0), (0x021, 0xFFFFFFFF, 0), (0x024, 3, 0),
   (0x030, 0xFFFF, 0), (0x041, 0xFF, 0), (0x101, 0xFFFFFFFF, 0), (0x102, 0x1FF, 0), (0x108, 1, 0)] ++
  [(0x200, 0xFFFFFFFF, 0), (0x201, 0xFFFFFFFF, 0), (0x202, 0xFFFFFFFF, 0), (0x203, 0xFFFFFFFF, 0), (0x204, 0xFFFFFFFF, 0),
   (0x205, 0xFFFFFFFF, 0), (0x206, 0xFFFFFFFF, 0), (0x207, 0xFFFFFFFF, 0), (0x208, 0xFFFFFFFF, 0), (0x209, 0x000FFFFF, 0),
   (0x213, 0xFFFFFFFF, 0), (0x214, 0xFFFFF01F, 0), (0x218, 0x00FFFFFF, 0), (0x300, 7, 0), (0x400, 0xFF, 0), (0x403, 0x3F, 0),
   (0x405, 0x00FFFFFF, 0), (0x408, 0xFFF, 0)] ++
  [(0x60C, 0xFFFFFFFF, 0), (0x60D, 0xFFFFFFFF, 0), (0x610, 0xFFFFFFFF, 0), (0x620, 0xF, 0), (0x630, 1, 0),
   (0x640, 1, 0), (0x641, 0xFFFFFFFF, 0), (0x642, 0xFFFFFFFF, 0), (0x800, 0xFFFFFFFF, 0), (0x801, 0xFFFFFFFF, 0), (0x806, 0xFFFFFFFF, 0),
   (0x8C0, 0x3F, 0), (0x8D0, 0xFFFFFFFF, 0), (0x8D6, 0xFFFFFFFF, 0), (0x8D7, 0x1F, 0), (0x8D9, 0x00FFFFFF, 0), (0x8DC, 0x00FFFFFF, 0),
   (0x8E0, 3, 0), (0x8F0, 0xFFFFFFFF, 0), (0xC08, 0x3F, 0), (0xC0A, 0x7F, 0), (0xC30, 0xFFF, 0), (0xC50, 0xFF, 0),
   (0xC60, 0x3F, 0), (0xC61, 0xFFFF, 0), (0xC62, 0xFFFFFFFF, 0), (0xC65, 0xFFFFFFFF, 0), (0xC66, 0xFFFFFFFF, 0)]

end Sys2Proof.Claims

section
open Sys2Proof Sys2Proof.Machine Sys2Proof.Claims

/-- R49, R50, R53, R161, R190: a CSR instruction whose number is assigned to nothing traps ILLEGAL_OP, as does every number from 0x740 to
0x7FF; one above its level traps PRIVILEGE with the number as detail; each before its operands are looked at. -/
def Sys2Proof.Claims.CsrRefusals : Prop :=
  (∀ (s : State) (i : Instr) (d : Dst) (n : BitVec 12) (a : Option Src) (write : Bool) (f : Word → Word → Word),
    csrOp i = some (d, n, a, write, f) →
    (csrTarget s s.cur n.toNat = none ∨ (∃ t, csrTarget s s.cur n.toNat = some t ∧ csrAssigned s t n.toNat = false) →
      exec i s = .next (takeTrap s s.cur 0x01 0 0 (s.core s.cur).pc)) ∧
    (∀ t, csrTarget s s.cur n.toNat = some t → csrAssigned s t n.toNat = true →
      (s.core s.cur).priv.allows (csrLevel n.toNat write) = false →
      exec i s = .next (takeTrap s s.cur 0x06 (BitVec.ofNat 32 n.toNat) 0 (s.core s.cur).pc))) ∧
  (∀ (s : State) (k n : Nat), 0x740 ≤ n → n ≤ 0x7FF → csrAssigned s k n = false) ∧
  (∀ (s : State) (k n : Nat), (s.core k).priv ≠ .service → csrTarget s k n = some k)

/-- R50, R97, R161, R209: a CSR instruction that its number and level allow, at a register that is not closed to it, reads the CSR's old value, writes A, A OR old, or old AND NOT A (CSRR
nothing), and writes the old value to d, all as one access; a write that traps leaves d and the CSR as they were. -/
def Sys2Proof.Claims.CsrAccesses : Prop :=
  ∀ (s s1 : State) (i : Instr) (d : Dst) (n : BitVec 12) (a : Option Src) (write : Bool) (f : Word → Word → Word) (old : Word) (t : Nat),
    csrOp i = some (d, n, a, write, f) →
    let u : Uses := { a, dst := some d, moves := csrMoves n.toNat, csr := write }
    let v := s.vals u
    csrTarget s s.cur n.toNat = some t → csrAssigned s t n.toNat = true →
    (s.core s.cur).priv.allows (csrLevel n.toNat write) = true → csrHidden s t n.toNat = false → csrLocked s t n.toNat write = false →
    csrForbidden s t n.toNat = false → s.ready u = true →
    csrRead t n.toNat s = .ok old s1 →
    (write = false → Completes i u v.poison Core.advance s (s1.updCore s.cur (fun c => c.writeDst s1.ck d old v.poison))) ∧
    (∀ s2, write = true → csrWrite t n.toNat (f old v.a) s1 = .ok s2 →
      (s2.core s.cur).unstepped = true →
      Completes i u v.poison Core.advance s (s2.updCore s.cur (fun c => c.writeDst s2.ck d old v.poison))) ∧
    (∀ cause detail addr, write = true → csrWrite t n.toNat (f old v.a) s1 = .trap cause detail addr → cause ≠ 0x10 → cause ≠ 0x11 →
      exec i s = .next (takeTrap s s.cur cause (csrDetail (some i) n.toNat cause detail) addr (s.core s.cur).pc))

/-- R50, R82, R84, R223, R266, R315, R340, R370, R371, R389, R418: a legal write of one of these CSRs is read back: its writable bits hold
what was written and its reserved bits read as the tables say; the matrix unit's with its queue empty (R265, R271). -/
def Sys2Proof.Claims.CsrReadBack : Prop :=
  (∀ (s t : State) (k n : Nat) (v mask ones : Word), (n, mask, ones) ∈ plainCsrs → (s.core k).mat.queue = [] → (s.core k).mat.clear = false →
    csrWrite k n v s = .ok t → csrImage t k n = some ((v &&& mask) ||| ones)) ∧
  (∀ (s t : State) (k : Nat) (v : Word), csrWrite k 0x8E5 v s = .ok t →
    ∃ w, csrImage t k 0x8E5 = some w ∧ w.toNat % 2 ^ 31 = v.toNat % 16 ∧
      (2 ^ 31 ≤ w.toNat ↔ (tget (s.part (s.corePart k)).ranges {} (v.toNat % 16)).valid = true))

/-- R82, R83, R84, R186, R196: what the read-only CSRs of the core, UPSTAT and TRSTAT show of the state. -/
def Sys2Proof.Claims.CoreCsrValues : Prop :=
  ∀ (s : State) (k : Nat),
    let c := s.core k
    (k < 1024 → csrImage s k 0x000 = some (BitVec.ofNat 32 (s.corePart k * 2 ^ 10 + k))) ∧
    (c.task = none → csrImage s k 0x001 = some 0) ∧
    csrImage s k 0x003 = some (BitVec.ofNat 32 (s.ck % 2 ^ 32)) ∧
    csrImage s k 0x004 = some (BitVec.ofNat 32 (s.ck / 2 ^ 32)) ∧
    csrImage s k 0x005 = some (match c.rank with | some r => BitVec.ofNat 32 (2 ^ 31 + r) | none => 0) ∧
    (∃ w, csrImage s k 0x008 = some w ∧ w.getLsbD 0 = true ∧ ∀ n : XReg, n.val ≠ 0 → w.getLsbD n.val = c.regs.isFull n) ∧
    csrImage s k 0x009 = some (BitVec.ofNat 32 (c.regs.q[0].length + c.regs.q[1].length * 2 ^ 8 + c.regs.q[2].length * 2 ^ 16 +
      c.regs.q[3].length * 2 ^ 24)) ∧
    csrImage s k 0x00A = some (BitVec.ofNat 32 (c.regs.q[4].length + c.regs.q[5].length * 2 ^ 8 + c.regs.q[6].length * 2 ^ 16)) ∧
    csrImage s k 0x022 = some (BitVec.ofNat 32 c.up.cause) ∧
    csrImage s k 0x024 = some (BitVec.ofNat 32 ((if c.up.en then 2 else 0) + if c.up.inH then 1 else 0)) ∧
    csrImage s k 0x802 = some (BitVec.ofNat 32 c.tr.cause) ∧ csrImage s k 0x803 = some c.tr.addr ∧
    csrImage s k 0x804 = some c.tr.detail ∧
    csrImage s k 0x805 = some (BitVec.ofNat 32 ((if c.tr.fromSup then 4 else 0) + (if c.tr.re then 2 else 0) + if c.tr.double then 1 else 0)) ∧
    csrImage s k 0x810 = some (match c.tr.imp with
      | [] => 0
      | r :: rest => BitVec.ofNat 32 (2 ^ 31 + min (rest.length + 1) 255 * 2 ^ 16 + r.cause))

/-- R82, R97, R185, R201, R223, R341, R371, R389, R414, R418, R426: writes that the tables refuse: a misaligned address traps MISALIGNED with the
value as address; a value out of its field's range traps RESERVED_FIELD; TRSTAT takes RE alone; IMPPOP retires the oldest record. -/
def Sys2Proof.Claims.CsrWriteRules : Prop :=
  (∀ (s : State) (k n : Nat) (v : Word), n ∈ [0x011, 0x012, 0x014, 0x015, 0x020, 0x021, 0x101, 0x800] → v.toNat % 4 ≠ 0 →
    csrWrite k n v s = .trap 0x04 0 v) ∧
  (∀ (s : State) (k n : Nat) (v : Word), n ∈ [0x8F0, 0x8F8] → v.toNat % 64 ≠ 0 → csrWrite k n v s = .trap 0x04 0 v) ∧
  (∀ (s : State) (k n : Nat) (v : Word), n ∈ [0x8D0, 0x8D6] → v.toNat % 65536 ≠ 0 → csrWrite k n v s = .trap 0x04 0 v) ∧
  (∀ (s : State) (k : Nat) (v : Word), v.toNat % 2048 ≠ 0 → csrWrite k 0x891 v s = .trap 0x04 0 v) ∧
  (∀ (s : State) (k : Nat) (v : Word), (v.toNat < 8 ∨ 256 < v.toNat ∨ v.toNat % 8 ≠ 0) → csrWrite k 0x102 v s = .trap 0x02 0 0) ∧
  (∀ (s : State) (k : Nat) (v : Word), (v.toNat < 8 ∨ 24 < v.toNat) → csrWrite k 0x8D7 v s = .trap 0x02 0 0) ∧
  (∀ (s : State) (k : Nat) (v : Word), (v.toNat < 1200 ∨ 3600 < v.toNat) → csrWrite k 0xC30 v s = .trap 0x02 0 0) ∧
  (∀ (s : State) (k : Nat) (v : Word), v.toNat % 2 ^ 24 = 0 → csrWrite k 0x405 v s = .trap 0x02 0 0) ∧
  (∀ (s : State) (k : Nat) (v : Word), csrWrite k 0x805 v s = .ok (s.updCore k (fun c => { c with tr := { c.tr with re := v.getLsbD 1 } }))) ∧
  (∀ (s : State) (k : Nat) (v : Word), csrWrite k 0x814 v s =
    .ok (s.updCore k (fun c => { c with tr := { c.tr with imp := c.tr.imp.drop 1 } }))) ∧
  (∀ (s : State) (k n : Nat) (v : Word), n ∈ [0x000, 0x001, 0x002, 0x003, 0x004, 0x005, 0x009, 0x00A, 0x022, 0x023, 0x100, 0x103, 0x104,
      0x106, 0x212, 0x215, 0x301, 0x303, 0x304, 0x500, 0x502, 0x504, 0x505, 0x802, 0x803, 0x804, 0x810, 0x811, 0x812, 0x813] →
    csrWrite k n v s = .ok s)

/-- R81, R82, R109, R133, R194, R209: FEMASK sets the full bits, x0's apart, and drops recorded causes of registers set full; LSTAT ends a
level whose bit it clears; writes of the plain kind, each as an event of its own; IMPPOP as an event. -/
def Sys2Proof.Claims.CoreCsrEvents : Prop :=
  (∀ (s : State) (k : Nat) (v : Word), ∃ t, exec (.femaskWrite k v) s = .next t ∧
    (∀ n : XReg, (t.core k).regs.isFull n = (n.val = 0 || v.getLsbD n.val)) ∧ (∀ n, (t.core k).regs.get n = (s.core k).regs.get n) ∧
    (∀ a, a ∈ (t.core k).acc ↔ a ∈ (s.core k).acc ∧ ¬ (∃ cause addr detail, a.st = .recorded cause addr detail) ∨
      a ∈ (s.core k).acc ∧ (∃ cause addr detail, a.st = .recorded cause addr detail) ∧
        ∀ n : XReg, n.val ≠ 0 → a.owns n = true → v.getLsbD n.val = false) ∧
    (∀ j, j ≠ k → t.core j = s.core j) ∧ t = { s with cores := t.cores } ∧
    t.core k = { s.core k with regs := { (s.core k).regs with full := (t.core k).regs.full }, acc := (t.core k).acc }) ∧
  (∀ (s : State) (k : Nat) (v : Word), exec (.lstatWrite k v) s = .next (s.updCore k (fun c => { c with
    loop0 := { c.loop0 with active := v.getLsbD 0 }, loop1 := { c.loop1 with active := v.getLsbD 1 } }))) ∧
  (∀ (s : State) (k : Nat), exec (.imppop k) s = .next (s.updCore k (fun c => { c with tr := { c.tr with imp := c.tr.imp.drop 1 } })))

/-- R85, R401: a write of SRAMCFG with CACHE 9 to 15 traps RESERVED_FIELD; one that changes nothing does nothing; one that changes CACHE
waits for the core's copy commands, publishes at P and drains, leaves no line held or dirty and the snapshot empty, and applies the split.
-/
def Sys2Proof.Claims.SramSplits : Prop :=
  (∀ (s : State) (k : Nat) (v : Word), 8 < v.toNat % 16 → csrWrite k 0x040 v s = .trap 0x02 0 0) ∧
  (∀ (s : State) (k : Nat) (v : Word), v.toNat % 16 = (s.core k).cache → v.toNat % 16 ≤ 8 → exec (.sramcfgWrite k v) s = .next s) ∧
  (∀ (s : State) (k : Nat) (v : Word), v.toNat % 16 ≤ 8 → v.toNat % 16 ≠ (s.core k).cache → (s.core k).cnt.CP ≠ 0 →
    exec (.sramcfgWrite k v) s = .next s) ∧
  (∀ (s : State) (k : Nat) (v : Word), v.toNat % 16 ≤ 8 → v.toNat % 16 ≠ (s.core k).cache → (s.core k).cnt.CP = 0 →
    (s.core k).readsDone = true → s.ms.own = [] → s.ms.moves = [] → s.viral = false →
    ∃ t, exec (.sramcfgWrite k v) s = .next t ∧ (t.core k).cache = v.toNat % 16 ∧ (t.core k).buf = [] ∧ (t.core k).out = [] ∧
      (t.core k).snap = [] ∧ (t.core k).held = [] ∧ (t.core k).dirty = [] ∧ (t.core k).regs = (s.core k).regs ∧
      (∀ j, j ≠ k → t.core j = { s.core j with dirty := (t.core j).dirty }) ∧ t.ms.mem = s.ms.mem)

end

/-! The order of checks. -/
namespace Sys2Proof.Claims
open Sys2Proof Sys2Proof.Machine

/-- The operands of every instruction but the CSR ones: the registers and queues that it reads and writes (R43 to R47), its lowest level
(R154), the engines whose causes are delivered at it (R49 item 5), a LOOP's level, and whether it makes a move of R170 item 1 or reads
memory (R148). -/
def uses : Instr → Uses
  | .add d a b | .sub d a b | .and d a b | .or d a b | .xor d a b | .andn d a b | .sll d a b | .srl d a b | .sra d a b
  | .slt d a b | .sltn d a b | .min d a b | .max d a b | .minn d a b | .maxn d a b | .mul d a b | .mulh d a b | .mulhn d a b
  | .div d a b | .divn d a b | .rem d a b | .remn d a b | .bext d a b | .fadd d a b _ | .fsub d a b _ | .fmul d a b _
  | .fmin d a b | .fmax d a b | .feq d a b | .flt d a b | .fle d a b => { a, b, dst := some d }
  | .bins d a b | .ffma d a b _ => { a, b, ds := [d], dst := some (.x d) }
  | .clz d a | .pop d a | .addi d a _ | .andi d a _ | .ori d a _ | .xori d a _ | .slti d a _ | .sltni d a _ | .slli d a _ | .srli d a _
  | .srai d a _ | .muli d a _ | .jalr d a _ | .fcvtw d a _ | .fcvtf d a | .fcvtfn d a _ => { a, dst := some d }
  | .lui d _ | .jal d _ | .take d => { dst := some d }
  | .ldb d a _ | .ldbn d a _ | .ldh d a _ | .ldhn d a _ | .ldw d a _ | .launch d a => { a, dst := some d, moves := true }
  | .pref _ a _ | .trap a | .yield a => { a }
  | .stb a b _ | .sth a b _ | .stw a b _ | .rstw a b _ | .await _ _ a b | .icsync a b => { a, b, moves := true }
  | .swp d a b _ _ | .aadd d a b _ _ | .aand d a b _ _ | .aor d a b _ _ | .axor d a b _ _ | .amin d a b _ _ | .amax d a b _ _
  | .aminn d a b _ _ | .amaxn d a b _ _ => { a, b, dst := some d, moves := true }
  | .cas m a b _ _ _ => { a, b, ds := [m], dst := some (.x m), moves := true }
  | .beq a b _ | .bne a b _ | .blt a b _ | .bge a b _ | .bltn a b _ | .bgen a b _ | .tmark a b | .stfl a b | .stiv a b | .stfil a b => { a, b }
  | .loop a l _ => { a, loop := some l }
  | .bes e _ _ | .bec e _ _ => { engs := [e] }
  | .align | .upret | .brk => {}
  | .phase _ _ => { moves := true }
  | .waitc c a =>
    let e : Option Engine := match c with
      | .MX => some .MX | .VX => some .VX | .CP => some .CP | .GL => some .GL | .PS => some .PS | _ => none
    { a, engs := e.toList, moves := e.isSome }
  | .arrive _ _ a | .sstep a | .resume a => { a, moves := true }
  | .efence => { engs := [.MX, .VX, .CP, .GL, .PS] }
  | .tdone => { engs := [.MX, .VX, .CP, .GL, .PS], moves := true }
  | .mark a => { a, engs := [.MX, .VX, .CP, .GL, .PS], moves := true }
  | .migr a => { a, engs := [.MX, .VX, .CP, .GL, .PS] }
  | .send a b eb n => { a, bs := (regsFrom b n.toNat).map (fun r => ⟨.x r, eb⟩), moves := true }
  | .sendb a b eb => { a, b := some ⟨.x b, eb⟩, ds := (regsFrom b 2).drop 1, moves := true }
  | .recv d a => { a, dst := some (.x d), nregs := 8, moves := true }
  | .recvb d a b => { a, b, dst := some (.x d), moves := true }
  | .pass a b eb => { a, bs := (regsFrom b 3).map (fun r => ⟨.x r, eb⟩), moves := true }
  | .eret | .halt => { floor := .supervisor }
  | .vadd _ _ _ x | .vsub _ _ _ x | .vmul _ _ _ x | .vfma _ _ _ _ x | .vmin _ _ _ x | .vmax _ _ _ x | .vcmp _ _ _ _ x | .vand _ _ _ x
  | .vor _ _ _ x | .vxor _ _ _ x | .vshl _ _ _ x | .vshr _ _ _ x | .vshrA _ _ _ x | .viadd _ _ _ x | .vimul _ _ _ x
  | .vmovBroadcast _ x | .vmovGet _ x | .vredget _ x => { ds := [x], engs := [.VX] }
  | .vld _ _ x | .vst _ _ x | .vgth _ _ _ x | .vsct _ _ _ x | .vredput _ x => { ds := [x], engs := [.VX], moves := true }
  | .vabs _ _ | .vneg _ _ | .vsel _ _ _ _ | .vcvt _ _ _ | .vrcp _ _ | .vrsq _ _ | .vexp2 _ _ | .vlog2 _ _ | .vtanh _ _ | .vred _ _
  | .vmovCopy _ _ | .vmovIdx _ | .vqnt _ _ _ | .vdq _ _ _ | .vrel => { engs := [.VX] }
  | .vclaim d a | .vyield d a => { a, dst := some d, engs := [.VX] }
  | .vloop a _ => { a, engs := [.VX], moves := true }
  | .mgeo a b | .mmul a b | .mdrn a b => { a, b, engs := [.MX], moves := true }
  | .midx a | .mzero a => { a, engs := [.MX], moves := true }
  | .mscac => { engs := [.MX], moves := true }
  | .mchk d a => { a, dst := some d, engs := [.MX], moves := true, late := true }
  | .gtw a b | .gtd a b | .ginj a b | .gbind a b | .gtake a b => { a, b, engs := [.GL], moves := true }
  | .gcmt d a => { a, dst := some d, engs := [.GL], moves := true }
  | .gctr d a b => { a, b, dst := some d, engs := [.GL], moves := true }
  | .psbind d a | .psdis d a => { a, dst := some d, engs := [.PS], moves := true }
  | .psread a b | .psadd a b | .psjoin a b | .psleave a b | .psqui a b => { a, b, engs := [.PS], moves := true }
  | .psmass d a | .psheld d a => { a, dst := some (.x d), nregs := 2, engs := [.PS], moves := true }
  | .psstep a => { a, engs := [.PS], moves := true }
  | .cpy d a => { a, dst := some d, engs := [.CP], moves := true }
  | .demote a b => { a, b, engs := [.CP], moves := true }
  | .promote a => { a, engs := [.CP], moves := true }
  | .tlbinv a b => { a, b, floor := .supervisor, moves := true }
  | _ => {}

/-- Code of a register in a source field, as TRDETAIL of EMPTY_READ gives it (R190): 0 to 23, 24 to 30 for q0 to q6. -/
def sourceCode : SrcReg → Nat
  | .x n => n.val
  | .q n => 24 + n.val

/-- The core takes a recorded cause (R109, R193): the access that owns register n stands rearmed and counts in LD again; a promotion brings
a demoted page in by itself. -/
def rearmed (n : XReg) (c : Core) : Core :=
  { c with
    acc := c.acc.map (fun a => match a.owns n, a.st with
      | true, .recorded cause addr _ => { a with st := .rearmed cause (cause == 0x11) addr.toNat }
      | _, _ => a)
    cnt := { c.cnt with LD := c.cnt.LD + 1 } }

end Sys2Proof.Claims

section
open Sys2Proof Sys2Proof.Machine Sys2Proof.Claims

/-- R41, R49, R109, R131, R138, R190, R432: what keeps an instruction from its effect, in the order of R49, the same for every instruction
but the CSR ones: its level (PRIVILEGE), an engine's waiting cause, an empty source marked e (EMPTY_READ, with the register's code, +32 for
the second operand, +64 with a recorded cause), LOOP_FAULT, a recorded cause of a register that it reads or writes, taken with the state it
was recorded with; and last, an empty source, an outstanding producer of a register that it writes at its issue, or a receive or atomic
still to be performed: it stands, and nothing but its standing changes; the ck of a stall on an empty register count from here (R318). -/
def Obligations.CheckOrder : Prop :=
  ∀ (s : State) (i : Instr), i.isWord = true → csrOp i = none → (s.core s.cur).hand = none →
    let u := uses i
    let k := s.cur
    let c := s.core k
    (c.priv.allows u.floor = false → exec i s = .next (takeTrap s k 0x06 0 0 c.pc)) ∧
    (c.priv.allows u.floor = true →
      (∀ e w, c.engineCause u = some (e, w) →
        exec i s = .next (deliver (s.updCore k (·.clearWaiting e w)) k w.cause w.detail w.addr c.pc (some e))) ∧
      (c.engineCause u = none →
        let empties := c.emptiness u.srcs []
        (∀ x isB em, empties.find? (fun y => y.1.e && y.2.2) = some (x, isB, em) →
          exec i s = .next (takeTrap s k 0x03 (BitVec.ofNat 32 (sourceCode x.reg + (if isB then 32 else 0) +
            (match x.reg with
              | .x n => if (c.recorded n).isSome then 64 else 0
              | .q _ => 0))) 0 c.pc)) ∧
        (empties.find? (fun y => y.1.e && y.2.2) = none →
          (c.loopFault u.loop = true → exec i s = .next (takeTrap s k 0x07 0 0 c.pc)) ∧
          (c.loopFault u.loop = false →
            (∀ n cause addr detail, u.order.find? (fun n => (c.recorded n).isSome) = some n → c.recorded n = some (cause, addr, detail) →
              exec i s = .next (deliver (s.updCore k (rearmed n)) k cause (detailOr i cause detail) addr c.pc)) ∧
            (u.order.find? (fun n => (c.recorded n).isSome) = none →
              (empties.any (fun y => y.2.2) = true ∨ (u.late = false ∧ u.dests.any (fun n => (c.owner n).isSome) = true) ∨
                (u.moves = true ∧ c.heldBack = true)) →
              ∃ t, exec i s = .next t ∧ Stands i s (t.updCore k (fun c => { c with emptySince := none })) ∧
                (t.core k).emptySince = if u.srcs.any (fun x => match x.1.reg with
                  | .x n => !c.regs.isFull n
                  | .q _ => false) then some s.ck else none)))))

end

/-! Commands to the engines. -/
namespace Sys2Proof.Claims
open Sys2Proof Sys2Proof.Machine

/-- Field of a word. -/
def fld (w : Word) (lo len : Nat) : Nat := w.toNat / 2 ^ lo % 2 ^ len

/-- The engine of each instruction that is handed over to one as a command (R230, R285, R322, R359, R391). -/
def issuesTo : Instr → Option Engine
  | .vld _ _ _ | .vst _ _ _ | .vgth _ _ _ _ | .vsct _ _ _ _ => some .VX
  | .mgeo _ _ | .midx _ | .mmul _ _ | .mzero _ | .mscac | .mdrn _ _ | .mchk _ _ => some .MX
  | .gtw _ _ | .gtd _ _ | .gcmt _ _ | .ginj _ _ | .gctr _ _ _ | .gbind _ _ => some .GL
  | .psread _ _ | .psadd _ _ | .psmass _ _ | .psdis _ _ | .psleave _ _ | .psqui _ _ | .psstep _ | .psheld _ _ => some .PS
  | .demote _ _ | .promote _ => some .CP
  | _ => none

/-- The scope at which an issue to an engine publishes (R32). -/
def issueScope : Engine → Scope
  | .MX | .VX | .CP => .K
  | .GL | .PS => .D

/-- N of R290: a multiple of 16 from 16 to 512. -/
def goodN (n : Word) : Prop := n.toNat % 16 = 0 ∧ 16 ≤ n.toNat ∧ n.toNat ≤ 512

/-- The gallery class that an instruction names (R322, R324). -/
def classOf (i : Instr) (v : Vals) : Nat :=
  match i with
  | .gtw _ _ | .gtd _ _ => fld v.a 26 3
  | .gctr _ _ _ => fld v.a 16 3
  | _ => v.a.toNat % 8

/-- A descriptor of R324 that names no entry: table above 4, bits 21 to 14 not 0, an index past its table, or a stage not bound to its class.
-/
def noEntry (g : GClass) (a : Word) : Prop :=
  4 < fld a 29 3 ∨ fld a 14 8 ≠ 0 ∨ [1, 16384, 1024, 512, 1024].getD (fld a 29 3) 0 ≤ fld a 0 14 ∨ g.stages / 2 ^ fld a 22 4 % 2 = 0

/-- A core of service level, or of the partition that owns a class, or a group (R322, R356). -/
def mayUseClass (s : State) (k c : Nat) : Prop :=
  let g := tget (s.die (coreDie k)).gal.cls {} c
  (s.core k).priv = .service ∨ g.ownValid = true ∧ g.ownPart = s.corePart k
def mayUseGroup (s : State) (k n : Nat) : Prop :=
  let g := tget (s.die (coreDie k)).fer.groups {} n
  (s.core k).priv = .service ∨ g.ownValid = true ∧ g.ownPart = s.corePart k

/-- The checks that each entry names for its operands, in order: each a condition, and the cause and the address of its trap (R253, R254,
R271, R288 to R296, R325 to R331, R361 to R367, R397). -/
def issueChecks (s : State) (i : Instr) (v : Vals) : List (Prop × Nat × Word) :=
  let c := s.core s.cur
  let d := s.die (coreDie s.cur)
  let g := tget d.gal.cls {} (classOf i v)
  let mine : Prop × Nat × Word := (¬ mayUseClass s s.cur (classOf i v), 0x40, 0)
  let blk := tfind d.fer.blocks (v.a.toNat % 4096)
  let bound : List (Prop × Nat × Word) :=
    [(∃ b, blk = some b ∧ ¬ mayUseGroup s s.cur b.group, 0x50, 0), (blk = none, 0x51, 0)]
  match i with
  | .vld f _ _ | .vst f _ _ => [(v.a.toNat % (match f with | .w => 4 | .h | .se2 | .se4 | .se7 => 2 | .b | .sc => 1) ≠ 0, 0x04, v.a)]
  | .mgeo _ _ => [(9 < v.b.toNat, 0x30, 0)]
  | .midx _ => [(v.a.toNat % 4 ≠ 0, 0x04, v.a)]
  | .mmul _ _ => [(¬ goodN v.a ∨ 2 ^ 16 ≤ v.b.toNat ∨ geometryBad c.mat.ahead false = true, 0x30, 0)]
  | .mzero _ => [(v.a.toNat = 0 ∨ 4 ≤ v.a.toNat, 0x30, 0)]
  | .mscac => [(geometryBad c.mat.ahead true = true, 0x30, 0)]
  | .mdrn _ _ => [(¬ goodN v.a ∨ fld v.b 7 1 ≠ 0 ∨ 2 ^ 16 ≤ v.b.toNat ∨ fld v.b 8 8 = 0 ∨ 128 < fld v.b 0 7 + fld v.b 8 8 ∨
      geometryBad c.mat.ahead false = true, 0x30, 0)]
  | .mchk _ _ => [(¬ goodN v.a ∨ geometryBad c.mat.ahead false = true, 0x30, 0)]
  | .gtw _ _ => [mine, (noEntry g v.a, 0x41, 0), (v.b.toNat % 16 ≠ 0, 0x04, v.b)]
  | .gtd _ _ => [mine, (noEntry g v.a ∨ [1, 16384, 1024, 512, 1024].getD (fld v.a 29 3) 0 < fld v.a 0 14 + v.b.toNat, 0x41, 0)]
  | .gcmt _ _ => [mine, (8 ≤ v.a.toNat, 0x41, 0)]
  | .ginj _ _ => [mine, (8 ≤ v.a.toNat, 0x41, 0), (v.b.toNat % 64 ≠ 0, 0x04, v.b)]
  | .gctr _ _ _ => [mine, (2 ^ 19 ≤ v.a.toNat ∨ 4 ≤ v.b.toNat ∨ (fld g.cwin 8 8 + 1) * 256 ≤ fld v.a 0 16, 0x41, 0)]
  | .gbind _ _ => [mine, ((∃ st, st < 16 ∧ v.b.toNat / 2 ^ st % 2 = 1 ∧ g.stgmask / 2 ^ st % 2 = 0), 0x40, 0),
      (8 ≤ v.a.toNat ∨ 2 ^ 18 ≤ v.b.toNat, 0x41, 0)]
  | .psread _ _ | .psadd _ _ => [(v.b.toNat % 4 ≠ 0, 0x04, v.b), (4096 ≤ v.a.toNat, 0x02, 0)] ++ bound
  | .psmass _ _ | .psdis _ _ | .psheld _ _ => (4096 ≤ v.a.toNat, 0x02, 0) :: bound
  | .psqui _ _ => (4096 ≤ v.a.toNat ∨ 2 ≤ v.b.toNat, 0x02, 0) :: bound
  | .psleave _ _ => (4096 ≤ v.a.toNat ∨ 64 ≤ v.b.toNat, 0x02, 0) :: bound
  | .psstep _ =>
    if fld v.a 31 1 = 1 then (fld v.a 12 19 ≠ 0, 0x02, 0) :: bound
    else [(fld v.a 8 23 ≠ 0, 0x02, 0), (¬ mayUseGroup s s.cur (fld v.a 0 8), 0x50, 0)]
  | .demote _ _ => [(v.a.toNat % 65536 ≠ 0, 0x04, v.a), (v.b.toNat = 0 ∨ 3 < v.b.toNat, 0x02, 0)]
  | .promote _ => [(v.a.toNat % 65536 ≠ 0, 0x04, v.a)]
  | _ => []

/-- TRDETAIL of a failed check (R190, R281, R333, R356). -/
def checkDetail (i : Instr) (v : Vals) (cause : Nat) : Word :=
  if cause = 0x02 then 0 else if cause = 0x04 ∨ cause = 0x30 then encode i else v.a

/-- The command that an issue offers. -/
def command (c : Core) (i : Instr) (v : Vals) (data : List Word) : Cmd :=
  { instr := i, a := v.a, b := v.b, pc := c.pc, word := encode i, asid := c.masid, launch := c.launch, data }

/-- The destination of a command that writes a register when it is done, and how many registers. -/
def commandDst : Instr → Option (Dst × Nat)
  | .mchk d _ | .gcmt d _ | .gctr d _ _ | .psbind d _ | .psdis d _ => some (d, 1)
  | .psmass d _ | .psheld d _ => some (.x d, 2)
  | _ => none

/-- The command's registers are marked empty and its producer is outstanding (R41). -/
def producing (e : Engine) (q : Cmd) (ck : Nat) (c : Core) : Core :=
  match commandDst q.instr with
  | some (d, n) => c.produce { op := .engine e, d, nregs := n, b := q.a, pc := q.pc, instr := q.word, issuedAt := ck }
  | none => c

/-- Addresses that an accepted command takes at its accept (R32, R282, R355): the drained rows of an MDRN, the destination of a PSREAD of a
bound block; none for the others. -/
def takesAt (s : State) (k : Nat) (q : Cmd) : Option (List Nat) :=
  match q.instr with
  | .mdrn _ _ =>
    let g := (s.core k).mat.ahead
    some (((List.range (fld q.b 8 8)).map (fun r => (List.range (4 * q.a.toNat)).map (fun i =>
      (g[8].toNat + (fld q.b 0 7 + r) * fld g[9] 0 20 + i) % 2 ^ 32))).flatten)
  | .psread _ _ =>
    (tfind (s.die (coreDie k)).fer.blocks (q.a.toNat % 4096)).map (fun x => (List.range x.n).map (fun i => (q.b.toNat + 4 * i) % 2 ^ 32))
  | _ => none

/-- Rows of addresses translated for stores, one after the other. -/
def translateRows (s : State) (die asid : Nat) : List (List Nat) → Option (List (List Nat) × State)
  | [] => some ([], s)
  | r :: rest =>
    match translateRun s die asid .store r [] with
    | (.inl pas, s1) => (translateRows s1 die asid rest).map (fun t => (pas :: t.1, t.2))
    | (.inr _, _) => none

/-- Destination addresses of row r of a CPY's descriptor (R393, R394). -/
def rowTo (data : List Word) (r : Nat) : List Nat :=
  vaRange (((data.getD 1 0).toNat + r * (data.getD 4 0).toNat) % 2 ^ 32) (fld (data.getD 2 0) 0 16)

/-- The sequencer entry that a vector command becomes (R224, R230). -/
def entryOf (q : Cmd) (poison : Bool) : VEntry :=
  { instr := q.instr, s := q.a, sp := poison, word := q.word, pc := q.pc, asid := q.asid, launch := q.launch }

/-- Lines that a list of bytes touches, each once. -/
def lines (pas : List Nat) : List Nat := (pas.map (· / 64)).eraseDups

end Sys2Proof.Claims

section
open Sys2Proof Sys2Proof.Machine Sys2Proof.Claims

/-- R32, R169, R230, R254, R285, R322, R359, R391: an instruction handed over to an engine takes the trap of the first of its entry's checks
that fails; passing them, it publishes the phase buffer at its engine's scope and offers its command with the operands read. A vector memory
instruction first takes NO_GRANT without a grant. A ferry instruction that names a block stands behind a bind or leave of its core. -/
def Sys2Proof.Claims.EngineIssues : Prop :=
  ∀ (s : State) (i : Instr) (e : Engine), issuesTo i = some e →
    let u := uses i
    let c := s.core s.cur
    let v : Vals := if e = .VX then { s.vals u with a := (s.vals u).ds.getD 0 0 } else s.vals u
    let checks := issueChecks s i v
    let binding := e = .PS ∧ c.fer.queue.any (fun q => isBinder q.instr) = true ∧ ¬ (∃ a, i = .psstep a ∧ fld v.a 31 1 = 0)
    s.ready u = true → c.hand = none →
    (e = .VX → c.vec.reneg = none → c.vec.grant = 0 → exec i s = .next (takeTrap s s.cur 0x20 (encode i) 0 c.pc)) ∧
    ((e = .VX → c.vec.reneg = none ∧ c.vec.grant ≠ 0) →
      (∀ (n : Nat) (x : Prop × Nat × Word), checks[n]? = some x → x.1 → (∀ m y, m < n → checks[m]? = some y → ¬ y.1) →
        (binding → x.2.1 ≠ 0x51) →
        exec i s = .next (takeTrap s s.cur x.2.1 (checkDetail i v x.2.1) x.2.2 c.pc)) ∧
      ((∀ x ∈ checks, ¬ x.1) → ¬ binding → c.pubDone = false → c.readsDone = true →
        Offers i u v.poison (.cmd e (command c i v [])) s
          (s.updCore s.cur (fun c => { published (issueScope e) c with pubDone := true }))))

/-- R360, R361, R393, R394: CPY, PSBIND and PSJOIN read their descriptor of 32 bytes by the core's read move at issue, A a multiple of 32; a
descriptor out of its limits traps RESERVED_FIELD (an array of a bind that is not 64-byte aligned, MISALIGNED; a group not owned,
GROUP_NOT_OWNED); otherwise the instruction publishes and offers its command with the descriptor's words. -/
def Sys2Proof.Claims.DescriptorIssues : Prop :=
  ∀ (s s1 s2 : State) (i : Instr) (e : Engine) (join : Bool) (pas : List Nat) (bs : List Byte) (p : Bool),
    ((∃ d a, i = .cpy d a ∧ e = .CP) ∨ (∃ d a, i = .psbind d a ∧ e = .PS ∧ join = false) ∨
      (∃ a b, i = .psjoin a b ∧ e = .PS ∧ join = true)) →
    let u := uses i
    let v := s.vals u
    let c := s.core s.cur
    let w := wordsOf 8 bs
    let x (n : Nat) : Nat := (w.getD n 0).toNat
    let mass := x 4 + x 5 * 2 ^ 32
    let bad : Prop := if e = .CP then
        x 0 % 4 ≠ 0 ∨ x 1 % 4 ≠ 0 ∨ x 2 % 2 ^ 16 % 4 ≠ 0 ∨ x 2 % 2 ^ 16 = 0 ∨ x 2 / 2 ^ 16 = 0 ∨ 4096 < x 2 / 2 ^ 16 ∨ x 3 % 4 ≠ 0 ∨
          x 4 % 4 ≠ 0 ∨ 1 < x 5 ∨ x 6 ≠ 0 ∨ x 7 ≠ 0
      else
        x 0 / 2 ^ 15 % 2 = 1 ∨ x 6 ≠ 0 ∨ x 7 ≠ 0 ∨ x 1 < 64 ∨ 16777216 < x 1 ∨
          (join = false ∧ (mass = 0 ∨ 2 ^ 40 < mass)) ∨ (join = true ∧ (mass ≠ 0 ∨ x 0 / 2 ^ 14 % 2 = 1 ∨ 4096 ≤ v.b.toNat))
    let crooked (n : Nat) : Prop := e = .PS ∧ x n % 64 ≠ 0
    s.ready u = true → c.hand = none →
    (v.a.toNat % 32 ≠ 0 → exec i s = .next (takeTrap s s.cur 0x04 (encode i) v.a c.pc)) ∧
    (v.a.toNat % 32 = 0 → translateRun s (coreDie s.cur) c.masid .load (vaRange v.a.toNat 32) [] = (.inl pas, s1) →
      readBytes s1 s.cur c.pc v.a.toNat pas = some (bs, p, s2) →
      (crooked 2 → exec i s = .next (takeTrap s2 s.cur 0x04 (encode i) (w.getD 2 0) c.pc)) ∧
      (¬ crooked 2 → crooked 3 → exec i s = .next (takeTrap s2 s.cur 0x04 (encode i) (w.getD 3 0) c.pc)) ∧
      (¬ crooked 2 → ¬ crooked 3 →
        (bad → exec i s = .next (takeTrap s2 s.cur 0x02 0 0 c.pc)) ∧
        (¬ bad → e = .PS → ¬ mayUseGroup s2 s.cur (x 0 % 256) → exec i s = .next (takeTrap s2 s.cur 0x50 v.a 0 c.pc)) ∧
        (¬ bad → (e = .PS → mayUseGroup s2 s.cur (x 0 % 256)) → c.pubDone = false → c.readsDone = true →
          Offers i u (v.poison || p) (.cmd e (command c i v w)) s
            (s2.updCore s.cur (fun c => { published (issueScope e) c with pubDone := true })))))

/-- R32, R172, R176, R224, R275, R282, R298, R323, R355, R372, R392, R394: ENGINE_ACCEPT of a command offered, its core's queue drained,
its engine not full and no cause of it waiting (a GBIND: its class's injection queue empty, R313): the command takes its place and number in
the engine's queue, the counter rises by one, a register that it will write is marked empty (CPY writes its sequence number at once), lines
that it will write enter the ownership map and fill the core's stash window, and its instruction completes. -/
def Obligations.EngineAccepts : Prop :=
  ∀ (s s1 : State) (k : Nat) (e : Engine) (q : Cmd) (pas : List Nat), (s.core k).hand = some (.cmd e q) → (s.core k).out = [] →
    (s.core k).unstepped = true → ¬ engineFlag (s.core k) e .full → (s.core k).waiting e = none → (s.core k).mat.clear = false →
    let c := s.core k
    let die := s.die (coreDie k)
    (∀ a b, q.instr = .gbind a b → (tget die.gal.cls {} (q.a.toNat % 8)).injq = []) →
    let n := match e with | .MX => c.mat.seq | .PS => die.fer.next | .GL => die.gal.next | _ => c.cpy.seq
    let q' : Cmd := { q with seq := n, wr := (takesAt s k q).map (fun _ => pas) }
    (∀ vas, takesAt s k q = some vas →
      engineRun s e k q.asid .store vas = (.inl pas, s1) ∧ ∀ a ∈ pas, s1.ms.owned (a / 64) = false) →
    let t := match takesAt s k q with
      | some vas => (s1.touchFor e k q.asid (vas.zip pas)).updMs (fun m =>
          { m with own := (lines pas).map (fun l => (l, e, k, n)) ++ m.own })
      | none => s
    (e = .VX → OfferCompletes (.engineAccept k) k s (s.updCore k (fun c => { c with
      vec := { c.vec with seq := c.vec.seq ++ [entryOf q c.handPoison] }
      cnt := { c.cnt with VX := c.cnt.VX + 1 } }))) ∧
    (e = .MX → issuesTo q.instr = some .MX → OfferCompletes (.engineAccept k) k s (t.updCore k (fun c => producing .MX q s.ck { c with
      mat := { c.mat with queue := c.mat.queue ++ [q'], seq := (c.mat.seq + 1) % 65536 }
      cnt := { c.cnt with MX := c.cnt.MX + 1 } }))) ∧
    (e = .GL → issuesTo q.instr = some .GL → OfferCompletes (.engineAccept k) k s
      ((s.updDie (coreDie k) (fun d => { d with gal := { d.gal with next := n + 1 } })).updCore k (fun c => producing .GL q s.ck { c with
        gal := { c.gal with queue := c.gal.queue ++ [{ q with seq := n }] }
        cnt := { c.cnt with gl := c.cnt.gl + 1 } }))) ∧
    (e = .PS → (issuesTo q.instr = some .PS ∨ isBinder q.instr = true) → OfferCompletes (.engineAccept k) k s
      ((t.updDie (coreDie k) (fun d => { d with fer := { d.fer with next := n + 1 } })).updCore k (fun c => producing .PS q s.ck { c with
        fer := { c.fer with queue := c.fer.queue ++ [q'] }
        cnt := { c.cnt with PS := c.cnt.PS + 1 } }))) ∧
    (e = .CP → issuesTo q.instr = some .CP → OfferCompletes (.engineAccept k) k s (s.updCore k (fun c => { c with
      cpy := { c.cpy with queue := c.cpy.queue ++ [{ q with seq := n }], seq := (c.cpy.seq + 1) % 65536 }
      cnt := { c.cnt with CP := c.cnt.CP + 1 } }))) ∧
    (∀ d a pass s2, e = .CP → q.instr = .cpy d a →
      translateRows s (coreDie k) q.asid ((List.range (fld (q.data.getD 2 0) 16 16)).map (rowTo q.data)) = some (pass, s2) →
      (∀ ps ∈ pass, ∀ a ∈ ps, s2.ms.owned (a / 64) = false) →
      OfferCompletes (.engineAccept k) k s ((s2.updMs (fun m =>
        { m with own := (((pass.map lines).flatten).eraseDups).map (fun l => (l, .CP, k, n)) ++ m.own })).updCore k (fun c =>
        ({ c with
          cpy := { c.cpy with queue := c.cpy.queue ++ [{ q with seq := n }], seq := (c.cpy.seq + 1) % 65536 }
          cnt := { c.cnt with CP := c.cnt.CP + 1 } } : Core).writeDst s.ck d (BitVec.ofNat 32 n) false)))

end

/-! The vector pool. -/
namespace Sys2Proof.Claims
open Sys2Proof Sys2Proof.Machine

/-- Lane i of a vector register. -/
def laneAt (v : VRegs) (n : VReg) (i : Nat) : PWord := v[n].getD i {}
/-- The b operand: the register's lane, or S in every lane (R239). -/
def laneB (v : VRegs) (n : VReg) (xs : XReg) (e : VEntry) (i : Nat) : PWord := if xs.val = 0 then laneAt v n i else ⟨e.s, e.sp⟩

/-- The lesser and the greater of R60. -/
def lesser (a b : Word) : Word :=
  if nan a && nan b then 0x7FC00000 else if nan a then b else if nan b then a else if below b a then b else a
def greater (a b : Word) : Word :=
  if nan a && nan b then 0x7FC00000 else if nan a then b else if nan b then a else if below a b then b else a

/-- The conditions of VCMP (R243). -/
def holds (c : VCond) (a b : Word) : Bool :=
  match c with
  | .eq => !nan a && !nan b && units a == units b
  | .lt => !nan a && !nan b && decide (units a < units b)
  | .le => !nan a && !nan b && decide (units a ≤ units b)
  | .ne => !(!nan a && !nan b && units a == units b)
  | .ieq => a == b
  | .ilt => decide (signed a < signed b)
  | .iltn => decide (a.toNat < b.toNat)

/-- A register whose lanes an entry computes from the same lanes of its sources: the register, the value of lane i, and the sources whose
poison it takes (R240 to R248; of sums, products and conversions by the model's rounding functions, whose meaning `FloatRounding` and
`FloatSpecials` give). -/
def laneOp (e : VEntry) (v : VRegs) : Option (VReg × (Nat → Word) × (Nat → List PWord)) :=
  let two (d a b : VReg) (xs : XReg) (f : Word → Word → Word) : Option (VReg × (Nat → Word) × (Nat → List PWord)) :=
    some (d, fun i => f (laneAt v a i).w (laneB v b xs e i).w, fun i => [laneAt v a i, laneB v b xs e i])
  let one (d a : VReg) (f : Word → Word) : Option (VReg × (Nat → Word) × (Nat → List PWord)) :=
    some (d, fun i => f (laneAt v a i).w, fun i => [laneAt v a i])
  match e.instr with
  | .vadd d a b xs => two d a b xs (fpAdd .rne)
  | .vsub d a b xs => two d a b xs (fpSub .rne)
  | .vmul d a b xs => two d a b xs (fpMul .rne)
  | .vmin d a b xs => two d a b xs lesser
  | .vmax d a b xs => two d a b xs greater
  | .vcmp c d a b xs => two d a b xs (fun x y => if holds c x y then 0xFFFFFFFF else 0)
  | .vand d a b xs => two d a b xs (fun x y => ofBits (fun i => bitOf x i && bitOf y i))
  | .vor d a b xs => two d a b xs (fun x y => ofBits (fun i => bitOf x i || bitOf y i))
  | .vxor d a b xs => two d a b xs (fun x y => ofBits (fun i => bitOf x i != bitOf y i))
  | .vshl d a b xs => two d a b xs (fun x y => BitVec.ofNat 32 (x.toNat * 2 ^ (y.toNat % 32)))
  | .vshr d a b xs => two d a b xs (fun x y => BitVec.ofNat 32 (x.toNat / 2 ^ (y.toNat % 32)))
  | .vshrA d a b xs => two d a b xs (fun x y => wrap (signed x / 2 ^ (y.toNat % 32)))
  | .viadd d a b xs => two d a b xs (fun x y => BitVec.ofNat 32 ((x.toNat + y.toNat) % 2 ^ 32))
  | .vimul d a b xs => two d a b xs (fun x y => BitVec.ofNat 32 (x.toNat * y.toNat % 2 ^ 32))
  | .vfma d a b c xs => some (d, fun i => fpFma .rne (laneAt v a i).w (laneB v b xs e i).w (laneAt v c i).w,
      fun i => [laneAt v a i, laneB v b xs e i, laneAt v c i])
  | .vsel d a b c => some (d, fun i => ofBits (fun j =>
      if bitOf (laneAt v a i).w j then bitOf (laneAt v b i).w j else bitOf (laneAt v c i).w j),
      fun i => [laneAt v a i, laneAt v b i, laneAt v c i])
  | .vabs d a => one d a (fun x => if nan x then 0x7FC00000 else BitVec.ofNat 32 (x.toNat % 2 ^ 31))
  | .vneg d a => one d a (fun x => if nan x then 0x7FC00000 else BitVec.ofNat 32 ((x.toNat + 2 ^ 31) % 2 ^ 32))
  | .vcvt k d a => one d a (fun x =>
      match k with
      | .f2i => fcvtw .rne x
      | .i2f => intToFP .rne (signed x)
      | .n2f => intToFP .rne x.toNat
      | .f2b => fpNarrow bf16 .rne x
      | .b2f => fpWiden bf16 (x.toNat % 2 ^ 16)
      | .f2h => fpNarrow fp16 .rne x
      | .h2f => fpWiden fp16 (x.toNat % 2 ^ 16)
      | .f2i8 => wrap (max (-128) (min 127 (signed (fcvtw .rne x))))
      | .f2n8 => wrap (max 0 (min 255 (signed (fcvtw .rne x))))
      | .i82f => intToFP .rne (if x.toNat % 256 < 128 then (x.toNat % 256 : Int) else (x.toNat % 256 : Int) - 256)
      | .n82f => intToFP .rne (x.toNat % 256))
  | .vrcp d a => one d a vrcp
  | .vrsq d a => one d a vrsq
  | .vexp2 d a => one d a vexp2
  | .vlog2 d a => one d a vlog2
  | .vtanh d a => one d a vtanh
  | .vmovCopy d a => one d a id
  | .vmovBroadcast d _ => some (d, fun _ => e.s, fun _ => [⟨e.s, e.sp⟩])
  | .vmovIdx d => some (d, fun i => BitVec.ofNat 32 i, fun _ => [])
  | _ => none

/-- Entries that VECTOR_ENTRY_COMPLETE turns into one word for q1 (R248, R249): its value over g lanes; the sum by the tree of R73. -/
def pushOp (e : VEntry) (v : VRegs) (g : Nat) : Option Word :=
  let ws (a : VReg) : List Word := (List.range g).map (fun i => (laneAt v a i).w)
  match e.instr with
  | .vmovGet a _ => some (if e.s.toNat < g then (laneAt v a e.s.toNat).w else 0)
  | .vred .sum a => some (pairwise 9 (ws a))
  | .vred .min a => some (((ws a).drop 1).foldl lesser ((ws a).headD 0))
  | .vred .max a => some (((ws a).drop 1).foldl greater ((ws a).headD 0))
  | .vred .isum a => some (BitVec.ofNat 32 (((ws a).map BitVec.toNat).sum % 2 ^ 32))
  | _ => none
where
  /-- One level of R73's tree, an odd one out passing up; then the next. -/
  pairwise : Nat → List Word → Word
    | _, [] => 0
    | _, [x] => x
    | 0, x :: _ => x
    | n + 1, l => pairwise n (level l)
  level : List Word → List Word
    | a :: b :: r => fpAdd .rne a b :: level r
    | l => l

/-- Instructions of opcodes 0x34 and 0x35 that touch no memory and no router (R230). -/
def lanesOnly (i : Instr) : Prop :=
  ∀ v : VRegs, (laneOp { instr := i, s := 0, word := 0, pc := 0 } v).isSome = true ∨
    (∃ a xs, i = .vmovGet a xs) ∨ (∃ r a, i = .vred r a) ∨ (∃ f d a, i = .vqnt f d a) ∨ (∃ f d a, i = .vdq f d a)

/-- The core hands one entry to its sequencer (R224). -/
def handed (i : Instr) (v : Vals) (c : Core) : Core :=
  { c with
    vec := { c.vec with seq := c.vec.seq ++ [entryOf (command c i { v with a := v.ds.getD 0 0 } []) v.poison] }
    cnt := { c.cnt with VX := c.cnt.VX + 1 } }

/-- The entry at its turn: the oldest, or, while a VLOOP runs, that of its body (R224, R225). -/
def entryAt (v : VecCore) : Option VEntry := if v.passes = 0 then v.seq.head? else v.seq[v.pos]?

/-- Adds n to a telemetry count of a die, for the partition that owns the unit (R318, log 68). -/
def tallied (die code unit n : Nat) (s : State) : State :=
  let key := code * 2 ^ 16 + unitPart s die code unit * 2 ^ 10 + unit
  s.updDie die (fun d => { d with tele := tset d.tele key (tget d.tele 0 key + n) })

/-- The entry at its turn is done (R224, R262): outside a VLOOP it leaves; in its body the next one follows, the body's end begins the next
pass, and in the last pass each entry falls from VX, the body leaving with the last. -/
def entryDone (c : Core) : Core :=
  let v := { c.vec with rd := none, wr := none, rearmed := none }
  let fall (v : VecCore) : Core := { c with vec := v, cnt := { c.cnt with VX := c.cnt.VX - 1 } }
  if v.passes = 0 then fall { v with seq := v.seq.drop 1 }
  else if v.pos + 1 < v.len then (if v.passes = 1 then fall { v with pos := v.pos + 1 } else { c with vec := { v with pos := v.pos + 1 } })
  else if v.passes = 1 then fall { v with seq := v.seq.drop v.len, passes := 0, pass := 0, pos := 0, len := 0, lstride := 0 }
  else { c with vec := { v with passes := v.passes - 1, pass := v.pass + 1, pos := 0 } }

/-- Poison that core k's instruction at `pc` consumes (R194). -/
def poisoned (s : State) (k : Nat) (pc : Word) (p : Bool) (c : Core) : Core :=
  if p then { c with tr := { c.tr with imp := c.tr.imp ++ [⟨0x71, pc, 0, s.impSrc k⟩] } } else c

/-- Addresses of a vector memory entry over g lanes (R253 to R255). -/
def entryBytes (e : VEntry) (v : VecCore) : List Nat :=
  let base := (e.s.toNat + v.pass * v.lstride.toNat) % 2 ^ 32
  let block (f : VForm) : Nat :=
    match f with
    | .w => 4 * v.grant
    | .h => 2 * v.grant
    | .b => v.grant
    | .se2 => 8 * ((v.grant + 15) / 16)
    | .se4 => 12 * ((v.grant + 15) / 16)
    | .se7 => 18 * ((v.grant + 15) / 16)
    | .sc => (v.grant + 15) / 16
  let each (f : VForm3) (off : VReg) : List Nat :=
    let size := match f with | .w => 4 | .h => 2 | .b => 1
    ((List.range v.grant).map (fun i =>
      let a := (base + (laneAt v.v off i).w.toNat) % 2 ^ 32
      (List.range size).map (a - a % size + ·))).flatten
  match e.instr with
  | .vld f _ _ | .vst f _ _ => (List.range (block f)).map (fun i => (base + i) % 2 ^ 32)
  | .vgth f _ a _ => each f a
  | .vsct f _ b _ => each f b
  | _ => []

/-- Bytes that an engine of core k's cluster reads, with their poison (R175, R194). -/
def engineBytes (s : State) (p : Party) (pas : List Nat) : List (Byte × Bool) :=
  pas.map (fun a => (s.ms.byteAt p a, s.linePoison (a / 64)))

/-- Lines of a core's stash window that are written in it: dirty there (R372). -/
def windowWritten (ls : List Nat) (c : Core) : Core :=
  (c.held.filter (fun h => ls.contains h.2 && c.inWindow (h.1 * 64))).foldl
    (fun c h => if c.dirty.contains h then c else { c with dirty := h :: c.dirty }) c

/-- Bytes that an engine writes when its command completes (R176, R194): events at P with the engine as origin, D of their pages set; a
poisoned byte poisons its line, and a line that a stash window holds is dirty there. -/
def engineStore (p : Party) (launch : Option Nat) (ws : List (Nat × Byte × Bool)) (s : State) : State :=
  let s1 := s.updMs (fun m =>
    ws.foldl (fun m w => if w.2.2 then m.poisonLine (w.1 / 64) else m) (m.put (ws.map (fun w => (w.1, w.2.1))) .P p launch))
  { s1 with cores := s1.cores.map (fun (c : Nat × Core) => (c.1, windowWritten (lines (ws.map (·.1))) c.2)) }

end Sys2Proof.Claims

section
open Sys2Proof Sys2Proof.Machine Sys2Proof.Claims

/-- R224, R230, R238, R256, R257, R229: a vector instruction without a grant traps NO_GRANT with its word; behind a renegotiation, or with the
sequencer full, it stands; otherwise one that touches no memory is handed over with the value of xs, VX rises, and it completes, publishing
nothing. VREDPUT publishes at K and drains first; its descriptor wrong, it traps TREE_FAULT with the tag, FAULT set; its tag taken at the
cluster router, it stands. VREDGET traps TREE_FAULT, FAULT set, where the tag is pending for another root. -/
def Sys2Proof.Claims.VectorHandOffs : Prop :=
  ∀ (s : State) (i : Instr),
    let u := uses i
    let v := s.vals u
    let c := s.core s.cur
    let put := ∃ a xs, i = .vredput a xs
    let get := ∃ d xs, i = .vredget d xs
    let desc := v.ds.getD 0 0
    let inside (w : Word) (row col : Nat) : Prop := fld w 4 3 ≤ row ∧ row ≤ fld w 7 3 ∧ fld w 10 4 ≤ col ∧ col ≤ fld w 14 4
    let badDesc : Prop := 2 ^ 25 ≤ desc.toNat ∨ fld desc 7 3 < fld desc 4 3 ∨ fld desc 14 4 < fld desc 10 4 ∨
      ¬ inside desc (coreRow s.cur) (coreCol s.cur) ∨ ¬ inside desc (fld desc 18 7 / 16) (fld desc 18 7 % 16)
    let otherRoot : Prop :=
      let roots := (s.reductions (coreDie s.cur) (desc.toNat % 16)).map (fun r => descRoot (coreDie s.cur) r.desc) ++
        ((s.die (coreDie s.cur)).totals.filter (fun t => t.2.1 == desc.toNat % 16)).map (·.1)
      roots ≠ [] ∧ s.cur ∉ roots
    let busy : Prop := ∃ r, tfind (s.cluster (s.cur / 8)).router (desc.toNat % 16) = some r ∧
      ((tfind r.kids (s.cur % 8)).isSome = true ∨ ¬ inside r.desc (coreRow s.cur) (coreCol s.cur))
    let faulted : State := s.updCore s.cur (fun c => { c with vec := { c.vec with flt := { fault := true, cause := 0x22 } } })
    (lanesOnly i ∨ put ∨ get) → s.ready u = true → s.cur < 1024 →
    (c.vec.reneg ≠ none → ∃ t, exec i s = .next t ∧ Stands i s t) ∧
    (c.vec.reneg = none → c.vec.grant = 0 → exec i s = .next (takeTrap s s.cur 0x20 (encode i) 0 c.pc)) ∧
    (c.vec.reneg = none → c.vec.grant ≠ 0 →
      (put → c.pubDone = false → c.readsDone = true → PublishesAndStands i .K s) ∧
      (put → c.pubDone = true → c.out = [] → badDesc →
        exec i s = .next (takeTrap faulted s.cur 0x22 (BitVec.ofNat 32 (desc.toNat % 16)) 0 c.pc)) ∧
      (put → c.pubDone = true → c.out = [] → ¬ badDesc → busy → ∃ t, exec i s = .next t ∧ Stands i s t) ∧
      (get → otherRoot → exec i s = .next (takeTrap faulted s.cur 0x22 (BitVec.ofNat 32 (desc.toNat % 16)) 0 c.pc)) ∧
      ((put → c.pubDone = true ∧ c.out = [] ∧ ¬ badDesc ∧ ¬ busy) → (get → ¬ otherRoot) →
        (c.vec.seq.length < 16 → Completes i u v.poison Core.advance s (s.updCore s.cur (handed i v))) ∧
        (16 ≤ c.vec.seq.length → ∃ t, exec i s = .next t ∧ Stands i s t)))

/-- R194, R224, R238 to R252: VECTOR_ENTRY_COMPLETE of the entry at its turn, of a running task: an entry of lanes writes each lane below the
grant of its register, the value poisoned where a source of it is, and leaves the other lanes; VQNT and VDQ write the fields of R250, by R65
and R63, block by block; VRED and VMOV.GET push their word to q1, or wait while a result is held for q1. The entry is done, and poisoned
lanes that it read are consumed. -/
def Obligations.VectorResults : Prop :=
  ∀ (s : State) (k : Nat) (e : VEntry),
    let v := (s.core k).vec
    let g := v.grant
    entryAt v = some e → v.waiting = none → v.dead = false →
    (∀ d f src, laneOp e v.v = some (d, f, src) →
      let ls : List PWord := (List.range g).map (fun i => ⟨f i, (src i).any (·.poison)⟩)
      exec (.vectorEntryComplete k) s = .next (s.updCore k (fun c => entryDone
        (poisoned s k e.pc (ls.any (·.poison) && !e.sp)
          { c with vec := { c.vec with v := c.vec.v.set d (ls ++ (c.vec.v[d]).drop ls.length) } })))) ∧
    (∀ f d a, (e.instr = .vqnt f d a ∨ e.instr = .vdq f d a) → (∀ i, (laneAt v.v a i).poison = false) →
      let x (b j : Nat) : Word := if 16 * b + j < g then (laneAt v.v a (16 * b + j)).w else 0
      let q (b : Nat) := quantise f ((List.range 16).map (x b))
      let m := match f with | .se2 => 2 | .se4 => 4 | .se7 => 7
      let ls : List PWord := (List.range g).map (fun i =>
        if e.instr = .vqnt f d a then
          ⟨BitVec.ofNat 32 ((q (i / 16)).2.1.getD (i % 16 / 2) 0 * 2 ^ 16 + (q (i / 16)).1 * 2 ^ 8 + (q (i / 16)).2.2.getD (i % 16) 0), false⟩
        else
          let w (j : Nat) : Nat := (laneAt v.v a j).w.toNat
          ⟨seValue f (w i % 2 ^ (m + 1)) (w (i / 16 * 16) / 2 ^ 8 % 2 ^ 8) (w (i / 2 * 2) / 2 ^ 16 % 2), false⟩)
      exec (.vectorEntryComplete k) s = .next (s.updCore k (fun c => entryDone
        { c with vec := { c.vec with v := c.vec.v.set d (ls ++ (c.vec.v[d]).drop ls.length) } }))) ∧
    (∀ w, pushOp e v.v g = some w → (∀ n i, (laneAt v.v n i).poison = false) → e.sp = false →
      ((s.core k).regs.held.any (fun h => h.1 == 1) = true → exec (.vectorEntryComplete k) s = .next s) ∧
      ((s.core k).regs.held.any (fun h => h.1 == 1) = false →
        exec (.vectorEntryComplete k) s = .next (s.updCore k (fun c => entryDone (
          if c.regs.q[1].length < 16 then { c with regs := { c.regs with q := c.regs.q.set 1 (c.regs.q[1] ++ [⟨w, false⟩]) }, woken := true }
          else { c with regs := { c.regs with held := c.regs.held ++ [(1, ⟨w, false⟩)] } })))))

/-- R175 to R177, R230, R234, R235, R253 to R255, R372: the turn of a vector memory entry. Its ENGINE_READ, where its addresses translate, reads a
load's bytes as the cluster's engine sees them, no line of them owned by another, or takes a store's lines where none is owned; a cause is
held at it, FAULT set unless it is a page's. VECTOR_ENTRY_COMPLETE then writes the loaded lanes, or makes the stored bytes events at P and
ends the ownership; the entry is done. Reads and taken lines fill the core's stash window. -/
def Sys2Proof.Claims.VectorMemory : Prop :=
  ∀ (s : State) (k : Nat) (e : VEntry),
    let v := (s.core k).vec
    let g := v.grant
    let va := entryBytes e v
    let loads := (∃ f d xs, e.instr = .vld f d xs) ∨ ∃ f d a xs, e.instr = .vgth f d a xs
    let stores := (∃ f a xs, e.instr = .vst f a xs) ∨ ∃ f a b xs, e.instr = .vsct f a b xs
    entryAt v = some e → v.waiting = none → v.rearmed = none → v.dead = false → k < 1024 →
    (v.rd = none → v.wr = none →
      (∀ pas s1, loads → translateRun s (coreDie k) e.asid .load va [] = (.inl pas, s1) →
        (∀ a ∈ pas, s1.ms.ownedByOther .VX k 0 (a / 64) = false ∧ s1.lineLost (a / 64) = false) →
        exec (.engineRead k .VX) s = .next ((s1.touchFor .VX k e.asid (va.zip pas)).updCore k (fun c =>
          { c with vec := { c.vec with rd := some (engineBytes s1 (.cluster (k / 8)) pas), rearmed := none } }))) ∧
      (∀ pas s1, stores → translateRun s (coreDie k) e.asid .store va [] = (.inl pas, s1) → (∀ a ∈ pas, s1.ms.owned (a / 64) = false) →
        exec (.engineRead k .VX) s = .next (((s1.touchFor .VX k e.asid (va.zip pas)).updMs (fun m =>
          { m with own := (lines pas).map (fun l => (l, .VX, k, 0)) ++ m.own })).updCore k (fun c => { c with vec := { c.vec with wr := some pas, rearmed := none } }))) ∧
      (∀ cause detail a s1, (loads ∧ translateRun s (coreDie k) e.asid .load va [] = (.inr (cause, detail, a), s1) ∨
          stores ∧ translateRun s (coreDie k) e.asid .store va [] = (.inr (cause, detail, a), s1)) →
        exec (.engineRead k .VX) s = .next (s1.updCore k (fun c => { c with vec := { c.vec with
          flt := { fault := c.vec.flt.fault || (cause ≠ 0x10 && cause ≠ 0x11), cause, f1 := c.vec.pos, f2 := c.vec.pass % 256,
                   addr := BitVec.ofNat 32 a },
          waiting := some ⟨cause, if cause = 0x60 then detail else e.word, BitVec.ofNat 32 a⟩ } })))) ∧
    (∀ f d xs bs, e.instr = .vld f d xs → v.rd = some bs →
      let num (at' n : Nat) : PWord := ⟨BitVec.ofNat 32 (number (((bs.drop at').take n).map (·.1))), ((bs.drop at').take n).any (·.2)⟩
      let ls : List PWord := (List.range g).map (fun i =>
        match f with
        | .w => num (4 * i) 4
        | .h => num (2 * i) 2
        | .b => num i 1
        | .sc => ⟨BitVec.ofNat 32 ((num (i / 16) 1).w.toNat * 2 ^ 8), (num (i / 16) 1).poison⟩
        | _ => loadLane f bs i)
      exec (.vectorEntryComplete k) s = .next (s.updCore k (fun c => entryDone
        { c with vec := { c.vec with v := c.vec.v.set d (ls ++ (c.vec.v[d]).drop ls.length) } }))) ∧
    (∀ f d a xs bs, e.instr = .vgth f d a xs → v.rd = some bs → (∀ i, (laneAt v.v a i).poison = false) →
      let size := match f with | .w => 4 | .h => 2 | .b => 1
      let ls : List PWord := (List.range g).map (fun i =>
        ⟨BitVec.ofNat 32 (number (((bs.drop (size * i)).take size).map (·.1))), ((bs.drop (size * i)).take size).any (·.2)⟩)
      exec (.vectorEntryComplete k) s = .next (s.updCore k (fun c => entryDone
        { c with vec := { c.vec with v := c.vec.v.set d (ls ++ (c.vec.v[d]).drop ls.length) } }))) ∧
    (∀ pas bs, v.wr = some pas → stores →
      ((∃ f a xs, e.instr = .vst f a xs ∧ bs = storeBytes f v.v a g) ∨
        (∃ f a b xs, e.instr = .vsct f a b xs ∧ (∀ i, (laneAt v.v b i).poison = false) ∧
          bs = storeBytes (match f with | .w => .w | .h => .h | .b => .b) v.v a g)) →
      exec (.vectorEntryComplete k) s = .next (((engineStore (.cluster (k / 8)) e.launch (pas.zip bs) s).updMs
        (·.release .VX k 0)).updCore k (fun c => entryDone (poisoned s k e.pc (bs.any (·.2)) c)))) ∧
    (∀ (w : VRegs) (a : VReg), storeBytes .w w a g = ((List.range g).map (fun i =>
      (List.range 4).map (fun j => (BitVec.ofNat 8 ((laneAt w a i).w.toNat / 256 ^ j), (laneAt w a i).poison)))).flatten)

end

/-! Grants, vector loops, reductions. -/
namespace Sys2Proof.Claims
open Sys2Proof Sys2Proof.Machine

/-- A number of lanes rounded up to a multiple of 8 (R220). -/
def roundUp (n : Nat) : Nat := (n + 7) / 8 * 8

/-- Lanes of a core's cluster that its other cores hold, those of ended tasks included (R219, R220). -/
def heldByOthers (s : State) (k : Nat) : Nat :=
  (((List.range 8).filter (fun n => k / 8 * 8 + n ≠ k)).map (fun n =>
    (s.core (k / 8 * 8 + n)).vec.grant + (s.core (k / 8 * 8 + n)).vec.heldLanes)).sum

/-- A grant of g lanes from a ck on (R222): lanes below both grants keep their contents, new lanes read 0. -/
def granted (ck g : Nat) (c : Core) : Core :=
  { c with
    vec := { c.vec with
      grant := g, reneg := none, v := c.vec.v.map (fun l => (List.range g).map (fun i => if i < c.vec.grant then l.getD i {} else {})) },
    dbg := { c.dbg with lanesAt := ck } }

/-- The lane-ck of core k's grant up to now are counted for its cluster (R318). -/
def lanesCounted (k : Nat) (s : State) : State :=
  let n := (s.core k).vec.grant * (s.ck - (s.core k).dbg.lanesAt)
  if n = 0 then s else tallied (coreDie k) 0x201 (k / 8) n s

/-- The body of a VLOOP of n words steps by as straight-line code (R262). -/
def stepOver (n : Nat) (c : Core) : Core := ({ c with pc := c.pc + BitVec.ofNat 32 (4 * n) } : Core).advance

/-- Alignment that a body instruction's base must have (R253). -/
def bodyAlign : Instr → Nat
  | .vld f _ _ | .vst f _ _ => match f with | .w => 4 | .h | .se2 | .se4 | .se7 => 2 | .b | .sc => 1
  | _ => 1

/-- Vectors added lane by lane in the order of the list (R74). -/
def sumOf : List (List PWord) → List PWord
  | [] => []
  | v :: rest => rest.foldl (fun a b => (a.zip b).map (fun p => ⟨fpAdd .rne p.1.w p.2.w, p.1.poison || p.2.poison⟩)) v

/-- A child's vector at a router: it opens the tag's reduction or joins it, a differing descriptor or grant marking it (R229). -/
def joined (r : Option Reduction) (child : Nat) (desc : Word) (g : Nat) (v : List PWord) (bad : Bool) : Reduction :=
  match r with
  | none => { desc, g, kids := [(child, v)], bad }
  | some r => { r with kids := tset r.kids child v, bad := r.bad || bad || r.desc != desc || r.g != g }

/-- The tag's place for a child at a router is free: no reduction is held, or one in which the child takes part and has not put (R229). -/
def placeFree (r : Option Reduction) (child : Nat) (cores : List Nat) : Prop :=
  ∀ x, r = some x → tfind x.kids child = none ∧ ∃ j ∈ cores, descHas x.desc j = true

/-- The rectangles of two descriptors share a core. -/
def sharesCore (a b : Word) : Bool :=
  decide (fld a 4 3 ≤ fld b 7 3 ∧ fld b 4 3 ≤ fld a 7 3 ∧ fld a 10 4 ≤ fld b 14 4 ∧ fld b 10 4 ≤ fld a 14 4)

/-- A router's slot once a mismatched reduction is discarded. -/
def slotAfter (desc : Word) (r : Option Reduction) : Option Reduction := r.filter (fun x => !sharesCore x.desc desc)

end Sys2Proof.Claims

section
open Sys2Proof Sys2Proof.Machine Sys2Proof.Claims

/-- R219 to R222, R258 to R261: VCLAIM, VYIELD and VREL issue once the sequencer is empty and the last renegotiation has taken effect: the
request is recorded, d marked empty, and they complete. GRANT_RENEGOTIATION, the sequencer empty, gives a claim what R220 computes, and a
yield or release the lesser of what stands and what it keeps: lanes below both grants keep their contents and new ones read 0, the lane-ck
until then are counted (R318), and d receives the grant. What the cluster's cores hold never passes 512. -/
def Sys2Proof.Claims.Renegotiations : Prop :=
  (∀ (s : State) (i : Instr) (r : Reneg),
    let u := uses i
    let v := s.vals u
    ((∃ d a, i = .vclaim d a ∧ r = ⟨true, v.a, some d⟩) ∨ (∃ d a, i = .vyield d a ∧ r = ⟨false, v.a, some d⟩) ∨
      (i = .vrel ∧ r = ⟨false, 0, none⟩)) →
    s.ready u = true →
    ((s.core s.cur).vec.reneg ≠ none ∨ (s.core s.cur).vec.seq ≠ [] → ∃ t, exec i s = .next t ∧ Stands i s t) ∧
    ((s.core s.cur).vec.reneg = none → (s.core s.cur).vec.seq = [] →
      (∀ d, r.d = some d → ∃ x : Access, x.op = .engine .VX ∧ x.d = d ∧ x.nregs = 1 ∧ x.bPoison = v.poison ∧ x.dead = false ∧
        Completes i u v.poison Core.advance s (s.updCore s.cur (fun c =>
          { c with vec := { c.vec with reneg := some r }, regs := emptied d c.regs, acc := c.acc ++ [x] }))) ∧
      (r.d = none → Completes i u v.poison Core.advance s (s.updCore s.cur (fun c => { c with vec := { c.vec with reneg := some r } }))))) ∧
  (∀ (s : State) (k : Nat) (r : Reneg), (s.core k).vec.reneg = some r →
    let c := s.core k
    let others := heldByOthers s k
    let g := if r.claim then min (min (min (roundUp r.ask.toNat) 256) c.vec.lim) (512 - others) / 8 * 8
      else min c.vec.grant (roundUp (min r.ask.toNat 256))
    (c.vec.seq ≠ [] → exec (.grantRenegotiation k) s = .next s) ∧
    (c.vec.seq = [] →
      (r.d = none → exec (.grantRenegotiation k) s = .next ((lanesCounted k s).updCore k (granted s.ck g))) ∧
      (∀ (d : Dst) (n : Nat) (x : Access), r.d = some d → c.acc[n]? = some x → x.op = .engine .VX →
        (∀ m y, m < n → c.acc[m]? = some y → y.op ≠ .engine .VX) →
        exec (.grantRenegotiation k) s = .next ((lanesCounted k s).updCore k (fun c =>
          produced s.ck n x (BitVec.ofNat 32 g) x.bPoison (granted s.ck g c))))) ∧
    (others + c.vec.grant ≤ 512 → others + g ≤ 512))

/-- R224, R225, R253, R262: VLOOP stands until the sequencer is empty and a renegotiation has taken effect. A bad body word traps SEQ_FAULT with
its place as detail; then NO_GRANT; then it stands at an empty xs of a body word; then a misaligned base traps. With a count of 0 it only
steps over its body; otherwise the body enters the sequencer with its xs values, the count and VSTRIDE: at once where it touches no memory,
else by an engine issue at K, which ENGINE_ACCEPT completes. -/
def Sys2Proof.Claims.VectorLoops : Prop :=
  (∀ (s : State) (a : Src) (n : BitVec 5),
    let i := Instr.vloop a n
    let u := uses i
    let v := s.vals u
    let c := s.core s.cur
    let body := fetchBody s s.cur n.toNat c.pc (List.range n.toNat) []
    s.ready u = true → c.hand = none →
    (c.vec.seq ≠ [] ∨ c.vec.reneg ≠ none → ∃ t, exec i s = .next t ∧ Stands i s t) ∧
    (c.vec.seq = [] → c.vec.reneg = none →
      (∀ place s1, body = .trap 0x21 place 0 s1 → exec i s = .next (takeTrap s1 s.cur 0x21 place 0 c.pc)) ∧
      (∀ is s1, body = .ok is s1 →
        let xs := is.map (fun j => (vecXs j).getD 0)
        let poison := v.poison || xs.any c.regs.isPoison
        let es := (is.zip xs).mapIdx (fun m p => ({
          instr := p.1, s := c.regs.get p.2, sp := c.regs.isPoison p.2, word := encode p.1,
          pc := BitVec.ofNat 32 (c.pc.toNat + 4 + 4 * m), asid := c.masid, launch := c.launch } : VEntry))
        (c.vec.grant = 0 → exec i s = .next (takeTrap s1 s.cur 0x20 (encode i) 0 c.pc)) ∧
        (c.vec.grant ≠ 0 →
          (∀ x, xs.find? (fun n => !c.regs.isFull n) = some x → c.recorded x = none → ∃ t, exec i s = .next t ∧ Stands i s1 t) ∧
          ((∀ x ∈ xs, c.regs.isFull x = true) →
            (∀ p, (is.zip xs).find? (fun p => (c.regs.get p.2).toNat % bodyAlign p.1 ≠ 0) = some p →
              exec i s = .next (takeTrap s1 s.cur 0x04 (encode i) (c.regs.get p.2) c.pc)) ∧
            ((∀ p ∈ is.zip xs, (c.regs.get p.2).toNat % bodyAlign p.1 = 0) →
              (v.a.toNat = 0 → Completes i u poison (stepOver n.toNat) s s1) ∧
              (v.a.toNat ≠ 0 → (∀ j ∈ is, issuesTo j ≠ some .VX) → Completes i u poison (stepOver n.toNat) s (s1.updCore s.cur (fun c =>
                { c with
                  vec := { c.vec with
                    seq := es, passes := v.a.toNat, pass := 0, pos := 0, len := es.length, lstride := c.vec.stride }
                  cnt := { c.cnt with VX := c.cnt.VX + es.length } }))) ∧
              (v.a.toNat ≠ 0 → (∃ j ∈ is, issuesTo j = some .VX) → c.pubDone = false → c.readsDone = true →
                Offers i u poison (.loop es v.a c.vec.stride) s
                  (s1.updCore s.cur (fun c => { published .K c with pubDone := true }))))))))) ∧
  (∀ (s : State) (k : Nat) (es : List VEntry) (count stride : Word), (s.core k).hand = some (.loop es count stride) → (s.core k).out = [] →
    (s.core k).vec.seq = [] → (s.core k).vec.waiting = none → (s.core k).unstepped = true →
    ∃ t, exec (.engineAccept k) s = .next { t with cur := s.cur } ∧
      Retires (popping (s.core k).pops) (s.core k).handPoison (stepOver es.length) { s.updCore k (fun c =>
        { c with
          vec := { c.vec with seq := es, passes := count.toNat, pass := 0, pos := 0, len := es.length, lstride := stride }
          cnt := { c.cnt with VX := c.cnt.VX + es.length } }) with cur := k } t) ∧
  (∀ (s : State) (k n : Nat) (pc w : Word) (j : Instr) (rest : List Nat) (acc : List Instr) (i : Nat),
    (s.core k).fbuf.find? (fun x => x.1 == (pc.toNat + 4 + 4 * i) % 2 ^ 32) = some ((pc.toNat + 4 + 4 * i) % 2 ^ 32, w) →
    let ends (l : Loop) : Prop := l.active = true ∧ l.le.toNat = (pc.toNat + 8 + 4 * i) % 2 ^ 32
    (decodeWord w = .ok j → (vecXs j).isSome = true → (∀ x xs, j ≠ .vredput x xs ∧ j ≠ .vredget x xs) →
      (i + 1 < n → ¬ ends (s.core k).loop0 ∧ ¬ ends (s.core k).loop1) →
      fetchBody s k n pc (i :: rest) acc = fetchBody s k n pc rest (j :: acc)) ∧
    (((∃ e, decodeWord w = .error e) ∨ (∃ j, decodeWord w = .ok j ∧ ((vecXs j).isNone = true ∨ ∃ x xs, j = .vredput x xs ∨ j = .vredget x xs)) ∨
        (∃ j, decodeWord w = .ok j ∧ i + 1 < n ∧ (ends (s.core k).loop0 ∨ ends (s.core k).loop1))) →
      fetchBody s k n pc (i :: rest) acc = .trap 0x21 (BitVec.ofNat 32 (i + 1)) 0 s))

/-- R74, R227, R229, R237, R256, R257: a VREDPUT entry gives its core's vector to its cluster's router for the tag, where the core's place is
free; a fenced core of the rectangle that has put nothing marks the reduction. ROUTER_REDUCE, every participating child delivered, adds their
vectors in ascending child order and passes the sum to the next level, and at the root to the root core; a mismatch discards the reduction,
its slot freed in every router. A VREDGET entry takes the oldest total of its tag at its core; a mismatch leaves its register and TREE_FAULT
waiting, counted (R318). -/
def Obligations.Reductions : Prop :=
  (∀ (s : State) (k : Nat) (e : VEntry) (a : VReg) (xs : XReg),
    let v := (s.core k).vec
    let ls := (List.range v.grant).map (laneAt v.v a)
    let slot := tfind (s.cluster (k / 8)).router (e.s.toNat % 16)
    entryAt v = some e → e.instr = .vredput a xs → v.waiting = none → v.dead = false →
    let bad := fencedOut s (coreDie k) e.s
    (bad = true ↔ ∃ p ∈ s.cores, p.2.fenced = true ∧ coreDie p.1 = coreDie k ∧ descHas e.s p.1 = true ∧
      s.hasPut p.1 (e.s.toNat % 16) = false) ∧
    (placeFree slot (k % 8) [k] → exec (.vectorEntryComplete k) s = .next ((s.updCluster (k / 8) (fun x =>
      { x with router := tset x.router (e.s.toNat % 16) (joined slot (k % 8) e.s v.grant ls bad) })).updCore k (fun c =>
        entryDone (poisoned s k e.pc (ls.any (·.poison)) c)))) ∧
    (¬ placeFree slot (k % 8) [k] → exec (.vectorEntryComplete k) s = .next s)) ∧
  (∀ (s : State) (die idx tag : Nat) (r : Reduction), tfind (s.cluster (die * 16 + idx)).router tag = some r → r.bad = false →
    (∀ n, n < 8 → descHas r.desc ((die * 16 + idx) * 8 + n) = true → (tfind r.kids n).isSome = true) →
    let up := tfind (s.die die).rowRouter (idx / 4 * 16 + tag)
    placeFree up (idx % 4) ((List.range 8).map ((die * 16 + idx) * 8 + ·)) → exec (.routerReduce die 0 idx tag) s = .next
      ((s.updCluster (die * 16 + idx) (fun c => { c with router := terase c.router tag })).updDie die (fun d => { d with
        rowRouter := tset d.rowRouter (idx / 4 * 16 + tag) (joined up (idx % 4) r.desc r.g (sumOf (r.kids.map (·.2))) false) }))) ∧
  (∀ (s : State) (die idx tag : Nat) (r : Reduction), tfind (s.die die).rowRouter (idx * 16 + tag) = some r → r.bad = false →
    (∀ n, n < 4 → (∃ m, m < 8 ∧ descHas r.desc ((die * 16 + 4 * idx + n) * 8 + m) = true) → (tfind r.kids n).isSome = true) →
    let up := tfind (s.die die).rootRouter tag
    placeFree up idx ((List.range 32).map ((die * 16 + 4 * idx) * 8 + ·)) → exec (.routerReduce die 1 idx tag) s = .next (s.updDie die (fun d => { d with
      rowRouter := terase d.rowRouter (idx * 16 + tag)
      rootRouter := tset d.rootRouter tag (joined up idx r.desc r.g (sumOf (r.kids.map (·.2))) false) }))) ∧
  (∀ (s : State) (die tag : Nat) (r : Reduction), tfind (s.die die).rootRouter tag = some r → r.bad = false →
    (∀ n, n < 4 → (∃ m, m < 32 ∧ descHas r.desc ((die * 16 + 4 * n) * 8 + m) = true) → (tfind r.kids n).isSome = true) →
    exec (.routerReduce die 2 0 tag) s = .next (s.updDie die (fun d => { d with
      rootRouter := terase d.rootRouter tag
      totals := d.totals ++ [(coreAt die (fld r.desc 18 7 / 16) (fld r.desc 18 7 % 16), tag, r.desc, some (sumOf (r.kids.map (·.2))))] }))) ∧
  (∀ (s : State) (die idx tag : Nat) (r : Reduction), tfind (s.cluster (die * 16 + idx)).router tag = some r → r.bad = true →
    let e : Nat × Nat × Word × Option (List PWord) := (coreAt die (fld r.desc 18 7 / 16) (fld r.desc 18 7 % 16), tag, r.desc, none)
    ∃ t, exec (.routerReduce die 0 idx tag) s = .next t ∧
      (∀ c, c < 16 → tfind (t.cluster (die * 16 + c)).router tag = slotAfter r.desc (tfind (s.cluster (die * 16 + c)).router tag)) ∧
      (∀ q, q < 4 → tfind (t.die die).rowRouter (q * 16 + tag) = slotAfter r.desc (tfind (s.die die).rowRouter (q * 16 + tag))) ∧
      tfind (t.die die).rootRouter tag = slotAfter r.desc (tfind (s.die die).rootRouter tag) ∧
      (t.die die).totals = (if e ∈ (s.die die).totals then (s.die die).totals else (s.die die).totals ++ [e]) ∧
      t.cores = s.cores ∧ t.ms = s.ms) ∧
  (∀ (s : State) (k : Nat) (e : VEntry) (d : VReg) (xs : XReg),
    let v := (s.core k).vec
    let tag := e.s.toNat % 16
    let mine (t : Nat × Nat × Word × Option (List PWord)) : Bool := t.1 == k && t.2.1 == tag
    entryAt v = some e → e.instr = .vredget d xs → v.waiting = none → v.dead = false →
    ((s.die (coreDie k)).totals.find? mine = none → exec (.vectorEntryComplete k) s = .next s) ∧
    (∀ t, (s.die (coreDie k)).totals.find? mine = some t →
      let s1 := s.updDie (coreDie k) (fun x => { x with totals := x.totals.erase t })
      (∀ ls, t.2.2.2 = some ls → exec (.vectorEntryComplete k) s = .next (s1.updCore k (fun c => entryDone { c with vec := { c.vec with
        v := c.vec.v.set d (ls.take v.grant ++ (c.vec.v[d]).drop (ls.take v.grant).length) } }))) ∧
      (t.2.2.2 = none → exec (.vectorEntryComplete k) s = .next (tallied (coreDie k) 0x202 (k / 8) 1 (s1.updCore k (fun c =>
        let c := entryDone c
        { c with vec := { c.vec with
            flt := { fault := true, cause := 0x22, f1 := 0, f2 := 0, addr := 0 },
            waiting := some ⟨0x22, BitVec.ofNat 32 (tag + 16), 0⟩ } }))))))

end

/-! The matrix unit. -/
namespace Sys2Proof.Claims
open Sys2Proof Sys2Proof.Machine

/-- The command q of core k's running task stands at its turn in the matrix queue: no cause waits and no page is awaited. -/
def matTurn (s : State) (k : Nat) (q : Cmd) (rest : List Cmd) : Prop :=
  let m := (s.core k).mat
  m.queue = q :: rest ∧ m.waiting = none ∧ m.rearmed = none ∧ m.clear = false ∧ q.dead = false ∧ k < 1024

/-- A result enters queue n, or is held where the queue is full or holds a result back (R22). -/
def pushed (n : Fin 7) (w : Word) (c : Core) : Core :=
  if c.regs.q[n].length < 16 ∧ ∀ h ∈ c.regs.held, h.1 ≠ n.val then
    { c with regs := { c.regs with q := c.regs.q.set n (c.regs.q[n] ++ [⟨w, false⟩]) }, woken := true }
  else { c with regs := { c.regs with held := c.regs.held ++ [(n.val, ⟨w, false⟩)] } }

/-- A token of R277: sequence number, fn, corrected, overflow, faulted. -/
def token (seq fn : Nat) (corr ovf fault : Bool) : Word :=
  BitVec.ofNat 32 (seq + fn * 2 ^ 16 + (if corr then 2 ^ 24 else 0) + (if ovf then 2 ^ 25 else 0) + (if fault then 2 ^ 26 else 0))

/-- The tile q has left the queue with its token. -/
def tileEnded (q : Cmd) (rest : List Cmd) (fn : Nat) (corr ovf : Bool) (m : MatCore) (c : Core) : Core :=
  pushed 0 (token q.seq fn corr ovf false) { c with mat := { m with queue := rest }, cnt := { c.cnt with MX := c.cnt.MX - 1 } }

/-- The command q completes with a cause (R281): FAULT is set with its fields, the cause waits, the commands behind it are gone, and where
it is a tile its token says so. -/
def matFaulted (q : Cmd) (rest : List Cmd) (fn cause : Nat) (addr : Word) (corr : Bool) (m : MatCore) (c : Core) : Core :=
  let c : Core := { c with
    mat := { m with
      queue := [], flt := { fault := true, cause, f1 := q.seq, f2 := 0, addr }
      waiting := some ⟨cause, BitVec.ofNat 32 (q.seq * 2 ^ 8 + cause), addr⟩ }
    cnt := { c.cnt with MX := c.cnt.MX - 1 - rest.length } }
  if fn = 0 then c else pushed 0 (token q.seq fn corr false true) c

/-- Ownership of the commands of a queue ended (R281). -/
def disowned (e : Engine) (k : Nat) (qs : List Cmd) (m : MemSys) : MemSys :=
  { m with own := m.own.filter (fun o => !(o.2.1 == e && o.2.2.1 == k && qs.any (fun q => q.seq == o.2.2.2))) }

/-- Bytes per 64 elements (R272). -/
def runLen (g : MG) : Nat := match fld g[0] 0 4 with | 0 | 1 => 128 | 2 | 3 => 64 | 4 => 32 | 5 => 48 | _ => 72

/-- Byte o of a B column's run under the swizzle (R273). -/
def swizzled (g : MG) (o j : Nat) : Nat :=
  match fld g[0] 4 3 with
  | 1 => o / 2 ^ 8 * 2 ^ 8 + (o / 2 ^ 4 % 2 ^ 4 ^^^ j % 2 ^ 4) * 2 ^ 4 + o % 2 ^ 4
  | 2 => o / 2 ^ 9 * 2 ^ 9 + (o / 2 ^ 5 % 2 ^ 4 ^^^ j % 2 ^ 4) * 2 ^ 5 + o % 2 ^ 5
  | _ => o

/-- The body bytes of a gathered row with index x, and of a column, at K step s (R272). -/
def rowBody (g : MG) (s x : Nat) : List Nat :=
  (List.range (runLen g)).map (fun o => (g[1].toNat + x * fld g[2] 0 16 + s * runLen g + o) % 2 ^ 32)
def colBody (g : MG) (s j : Nat) : List Nat :=
  (List.range (runLen g)).map (fun o => (g[4].toNat + j * fld g[5] 0 16 + swizzled g (s * runLen g + o) j) % 2 ^ 32)

/-- All operand addresses of an MMUL over n columns at step s: rows, their scales, columns, their scales. -/
def mmulReads (g : MG) (idx : List Nat) (n s : Nat) : List Nat :=
  let rows := (List.range 128).map (fun i => idx.getD i 0)
  let four (a : Nat) : List Nat := (List.range 4).map (fun i => (a + i) % 2 ^ 32)
  (rows.map (rowBody g s)).flatten ++
  (if fld g[0] 0 4 < 4 then [] else (rows.map (fun x => four (g[3].toNat + x * fld g[2] 16 16 + 4 * s))).flatten) ++
  ((List.range n).map (colBody g s)).flatten ++
  (if fld g[0] 0 4 < 4 then [] else ((List.range n).map (fun j => four (g[6].toNat + j * fld g[5] 16 16 + 4 * s))).flatten)

/-- A byte as a signed or an unsigned number. -/
def elem (sgn : Bool) (b : Byte) : Int := if sgn then b.toInt else b.toNat

/-- The block sum of row i and column j over K block kb of an INT8 or UINT8 step whose operand bytes are bs (R76). -/
def blockInt (sgn : Bool) (bs : List (Byte × Bool)) (i j kb : Nat) : Int :=
  ((List.range 16).map (fun k => elem sgn (bs.getD (64 * i + 16 * kb + k) (0, false)).1 *
    elem sgn (bs.getD (64 * 128 + 64 * j + 16 * kb + k) (0, false)).1)).sum

/-- One addition of R76, saturating or modulo 2^32, and whether the exact sum leaves INT32. -/
def addInt32 (sat : Bool) (v : Word) (x : Int) : Word := if sat then wrap (max (-(2 ^ 31)) (min (2 ^ 31 - 1) (signed v + x))) else wrap (signed v + x)
def leavesInt32 (v : Word) (x : Int) : Bool := decide (signed v + x < -(2 ^ 31)) || decide (2 ^ 31 ≤ signed v + x)

/-- An accumulator element over four block sums in ascending order, and the flag. -/
def accInt (sat : Bool) (v : Word) (x : Nat → Int) : Word := (List.range 4).foldl (fun v kb => addInt32 sat v (x kb)) v
def overflows (sat : Bool) (v : Word) (x : Nat → Int) : Bool :=
  (List.range 4).any (fun kb => leavesInt32 ((List.range kb).foldl (fun v n => addInt32 sat v (x n)) v) (x kb))

/-- Element k of row i (or of column i, from byte 128 × 128 on) of a BF16 or FP16 step (R75, R290). -/
def elemFP (fmt : Nat) (bs : List (Byte × Bool)) (at' i k : Nat) : FV :=
  (if fmt = 0 then bf16 else fp16).decode (number [(bs.getD (at' + 128 * i + 2 * k) (0, false)).1, (bs.getD (at' + 128 * i + 2 * k + 1) (0, false)).1])

/-- One accumulator element of R75: four block additions, products and block sum exact, one rounding each. -/
def accFP (fmt : Nat) (bs : List (Byte × Bool)) (i j : Nat) (v : Word) : Word :=
  (List.range 4).foldl (fun v kb => roundFP32 .rne (sumFV .rne [f32 v,
    sumFV .rne ((List.range 16).map (fun k => (elemFP fmt bs 0 i (16 * kb + k)).mul (elemFP fmt bs (128 * 128) j (16 * kb + k))))])) v

/-- The addition of MSCAC (R77) for one K block: partial, scales, m. -/
def scaled (m : Nat) (v p : Word) (ea eb : Nat) : Word :=
  if ea = 255 ∨ eb = 255 then 0x7FC00000
  else roundFP32 .rne (sumFV .rne [f32 v, f32 (roundFP32 .rne (.fin (signed p < 0) (signed p).natAbs ((ea : Int) + eb - 256 - 2 * ((m : Int) - 1))))])

/-- The element (i, j) of an accumulator that MG7.ACC selects; the other accumulator. -/
def accOf (m : MatCore) : Accum := if m.mg[7].getLsbD 3 then m.acc1 else m.acc0
def otherAcc (m : MatCore) : Accum := if m.mg[7].getLsbD 3 then m.acc0 else m.acc1
def ovfOf (m : MatCore) : Bool := if m.mg[7].getLsbD 3 then m.ovf1 else m.ovf0

/-- The multiply-accumulates of an MMUL of N columns are counted for its core (R318): 128 rows, N columns, 64 elements. -/
def multiplied (k n : Nat) (s : State) : State := tallied (coreDie k) 0x103 k (128 * n * 64) s

/-- Nothing of the unit but the named accumulator, the partial sets with their checks, the scale latches, the flag, MCORR and the queue. -/
def matFrame (m m' : MatCore) : Prop :=
  m' = { m with
    acc0 := m'.acc0, acc1 := m'.acc1, pp := m'.pp, ppPoison := m'.ppPoison, ppChk := m'.ppChk, la := m'.la, lb := m'.lb, np := m'.np,
    ovf0 := m'.ovf0, ovf1 := m'.ovf1, corr := m'.corr, inj := m'.inj } ∧ otherAcc m' = otherAcc m

end Sys2Proof.Claims

section
open Sys2Proof Sys2Proof.Machine Sys2Proof.Claims

/-- R176, R265, R270, R271, R288, R289, R293: at their turn MGEO writes its register, MIDX, whose list ENGINE_READ has read, the index list, and
MZERO clears the selected accumulators; each leaves the queue with no token. MATRIX_CSR_WRITE waits for MX = 0 and then writes; MINJ with
TARGET 6 or 7 traps RESERVED_FIELD. -/
def Sys2Proof.Claims.MatrixSetUp : Prop :=
  (∀ (s : State) (k : Nat) (q : Cmd) (rest : List Cmd), matTurn s k q rest →
    let ends (f : MatCore → MatCore) : State := s.updCore k (fun c =>
      { c with mat := { f c.mat with queue := rest }, cnt := { c.cnt with MX := c.cnt.MX - 1 } })
    (∀ a b (n : Fin 10), q.instr = .mgeo a b → q.b.toNat = n.val →
      exec (.engineComplete k .MX) s = .next (ends (fun m => { m with mg := m.mg.set n q.a }))) ∧
    (∀ a pas s1, q.instr = .midx a → q.started = false → q.rd = none → q.wr = none →
      translateRun s (coreDie k) q.asid .load ((List.range 256).map (fun i => (q.a.toNat + i) % 2 ^ 32)) [] = (.inl pas, s1) →
      (∀ a ∈ pas, s1.ms.ownedByOther .MX k q.seq (a / 64) = false ∧ s1.lineLost (a / 64) = false) →
      exec (.engineRead k .MX) s = .next ((s1.touchFor .MX k q.asid
        (((List.range 256).map (fun i => (q.a.toNat + i) % 2 ^ 32)).zip pas)).updCore k (fun c => { c with
        mat := { c.mat with queue := { q with rd := some (engineBytes s1 (.cluster (k / 8)) pas) } :: rest } }))) ∧
    (∀ a bs, q.instr = .midx a → q.rd = some bs → (∀ b ∈ bs, b.2 = false) →
      exec (.engineComplete k .MX) s = .next (ends (fun m => { m with
        idx := (List.range 128).map (fun i => number (((bs.drop (2 * i)).take 2).map (·.1))) }))) ∧
    (∀ a, q.instr = .mzero a → exec (.engineComplete k .MX) s = .next (ends (fun m => { m with
      acc0 := if q.a.getLsbD 0 then {} else m.acc0, acc1 := if q.a.getLsbD 1 then {} else m.acc1 })))) ∧
  (∀ (s : State) (k : Nat) (n : BitVec 12) (v : Word),
    ((s.core k).cnt.MX ≠ 0 → exec (.matrixCsrWrite k n v) s = .next s) ∧
    ((s.core k).cnt.MX = 0 →
      let becomes (f : MatCore → MatCore) : Prop :=
        exec (.matrixCsrWrite k n v) s = .next (s.updCore k (fun c => { c with mat := f c.mat }))
      (∀ i : Fin 10, n.toNat = 0x200 + i.val → becomes (fun m => { m with mg := m.mg.set i (if i.val = 9 then BitVec.ofNat 32 (v.toNat % 2 ^ 20) else v) })) ∧
      (n = 0x210 → becomes (fun m => { m with ovf0 := m.ovf0 && !v.getLsbD 0, ovf1 := m.ovf1 && !v.getLsbD 1 })) ∧
      (n = 0x213 → becomes (fun m => { m with corr := v.toNat })) ∧
      (n = 0x214 → fld v 28 3 < 6 → becomes (fun m => { m with inj := v &&& 0xFFFFF01F })) ∧
      (n = 0x214 → 6 ≤ fld v 28 3 →
        exec (.matrixCsrWrite k n v) s = .next (takeTrap s k 0x02 (csrDetail (s.core k).standing 0x214 0x02 0) 0 (s.core k).pc))))

/-- R175, R272, R273, R274, R281, R372: MMUL's ENGINE_READ. A gathered row, or failing any a column, with a body byte outside the core's stash
completes it with INDEX_RANGE, MFADDR naming the lowest such row or column; otherwise it reads the bodies and scales at the addresses of R272
under the swizzle, filling the core's stash window. A page cause is held at it without FAULT and the command stays. -/
def Sys2Proof.Claims.MatrixReads : Prop :=
  ∀ (s : State) (k : Nat) (q : Cmd) (rest : List Cmd) (a b : Src), matTurn s k q rest → q.instr = .mmul a b → q.started = false →
    q.rd = none → q.wr = none →
    let c := s.core k
    let g := c.mat.mg
    let outRow (i : Nat) : Bool := (rowBody g q.b.toNat (c.mat.idx.getD i 0)).any (fun a => !c.inWindow a)
    let outCol (j : Nat) : Bool := (colBody g q.b.toNat j).any (fun a => !c.inWindow a)
    let va := mmulReads g c.mat.idx q.a.toNat q.b.toNat
    let faults (addr : Word) : Prop := exec (.engineRead k .MX) s = .next ((s.updMs (disowned .MX k (q :: rest))).updCore k (fun c =>
      matFaulted q rest 2 0x31 addr false c.mat c))
    ((∀ x ∈ c.acc, x.op ≠ .engine .MX) →
      (∀ i, (List.range 128).find? outRow = some i → faults (BitVec.ofNat 32 (0xFFFF0000 + i))) ∧
      (∀ j, (List.range 128).find? outRow = none → (List.range q.a.toNat).find? outCol = some j →
        faults (BitVec.ofNat 32 (j * 2 ^ 16 + 0xFFFF)))) ∧
    ((List.range 128).find? outRow = none → (List.range q.a.toNat).find? outCol = none →
      (∀ pas s1, translateRun s (coreDie k) q.asid .load va [] = (.inl pas, s1) →
        (∀ a ∈ pas, s1.ms.ownedByOther .MX k q.seq (a / 64) = false ∧ s1.lineLost (a / 64) = false) →
        exec (.engineRead k .MX) s = .next ((s1.touchFor .MX k q.asid (va.zip pas)).updCore k (fun c => { c with
          mat := { c.mat with queue := { q with rd := some (engineBytes s1 (.cluster (k / 8)) pas) } :: rest } }))) ∧
      (∀ cause detail x s1, translateRun s (coreDie k) q.asid .load va [] = (.inr (cause, detail, x), s1) → cause = 0x10 ∨ cause = 0x11 →
        exec (.engineRead k .MX) s = .next (s1.updCore k (fun c => { c with mat := { c.mat with
          flt := { fault := c.mat.flt.fault, cause, f1 := q.seq, f2 := 0, addr := BitVec.ofNat 32 x }
          waiting := some ⟨cause, BitVec.ofNat 32 (q.seq * 2 ^ 8 + cause), BitVec.ofNat 32 x⟩ } }))))

/-- R275: MATRIX_TILE_START, no tile of the cluster on the array, starts the tile of the core whose turn it is: the last core's while its
weight allows one more in a row, else that of the next core in ascending order with a tile queued; until that core's tile is ready the array
waits. A core has none queued where its queue holds no tile or a cause of the unit waits there. -/
def Sys2Proof.Claims.MatrixTurns : Prop :=
  ∀ (s : State) (c k : Nat) (q : Cmd) (rest : List Cmd), k < 8 → (s.cluster c).lastCore < 8 →
    (∀ n, n < 8 → ∀ x ∈ (s.core (8 * c + n)).mat.queue.head?, x.started = false) →
    (s.core (8 * c + k)).mat.queue = q :: rest →
    let x := s.cluster c
    let starts : Prop := exec (.matrixTileStart c k) s = .next
      ((s.updCore (8 * c + k) (fun y => { y with mat := { y.mat with queue := { q with started := true } :: rest } })).updCluster c (fun y =>
        { y with inRow := (if y.lastCore = k then y.inRow + 1 else 1), lastCore := k }))
    (k = x.lastCore → tileReady s (8 * c + k) = true → x.inRow < fld x.mweight (3 * k) 3 + 1 → starts) ∧
    (tileReady s (8 * c + k) = true → (tileQueued s (8 * c + x.lastCore) = false ∨ fld x.mweight (3 * x.lastCore) 3 + 1 ≤ x.inRow) →
      (∀ n, n < (k + 7 - x.lastCore) % 8 → tileQueued s (8 * c + (x.lastCore + 1 + n) % 8) = false) → starts) ∧
    (∀ j, j < 8 → j ≠ k → tileQueued s (8 * c + j) = true → (tileQueued s (8 * c + x.lastCore) = false ∨
        fld x.mweight (3 * x.lastCore) 3 + 1 ≤ x.inRow ∨ j = x.lastCore) →
      (j = x.lastCore → x.inRow < fld x.mweight (3 * j) 3 + 1) →
      (j ≠ x.lastCore → ∀ n, n < (j + 7 - x.lastCore) % 8 → tileQueued s (8 * c + (x.lastCore + 1 + n) % 8) = false) →
      exec (.matrixTileStart c k) s = .next s) ∧
    (∀ j, ((∀ y ∈ (s.core j).mat.queue, ∀ a b d, y.instr ≠ .mmul a b ∧ y.instr ≠ .mscac ∧ y.instr ≠ .mdrn a b ∧ y.instr ≠ .mchk d a) ∨
      (s.core j).mat.waiting ≠ none) → tileQueued s j = false)

/-- R76, R265, R277, R278, R290, R291: MMUL of INT8 or UINT8 on its operand bytes, none poisoned and MINJ not armed for a partial set: under
every CHK, for a sum formed right passes its check, the partial sets hold the exact block sums, each accumulator element of the N columns takes
them in ascending order, wrapping or saturating, the flag of the accumulator is set where a sum leaves INT32, columns from N on and the other
accumulator stay, and the token carries fn 2, no correction, and the overflow. Its multiply-accumulates are counted (R318). -/
def Sys2Proof.Claims.MatrixIntegers : Prop :=
  ∀ (s : State) (k : Nat) (q : Cmd) (rest : List Cmd) (a b : Src) (bs : List (Byte × Bool)), matTurn s k q rest → q.instr = .mmul a b →
    q.started = true → q.rd = some bs → q.a.toNat ≤ 512 → bs.length = 64 * (128 + q.a.toNat) → (∀ b ∈ bs, b.2 = false) →
    let m := (s.core k).mat
    let n := q.a.toNat
    let sgn := fld m.mg[0] 0 4 == 2
    let sat := m.mg[7].getLsbD 0
    (fld m.mg[0] 0 4 = 2 ∨ fld m.mg[0] 0 4 = 3) → fld m.mg[7] 1 2 < 3 → m.inj.getLsbD 31 = false → m.pp.length = 4 →
    let v (i j : Nat) : Word := ((accOf m).el.getD i []).getD j 0
    ∃ m' ovf, exec (.engineComplete k .MX) s = .next (multiplied k n (s.updCore k (tileEnded q rest 2 false ovf m'))) ∧ matFrame m m' ∧
      (ovf = true ↔ ∃ i j, i < 128 ∧ j < n ∧ overflows sat (v i j) (blockInt sgn bs i j) = true) ∧
      ovfOf m' = (ovfOf m || ovf) ∧ (m.corr < 2 ^ 32 → m'.corr = m.corr) ∧ m'.la = m.la ∧ m'.lb = m.lb ∧ m'.np = n ∧ (accOf m').count = (accOf m).count + 4 ∧
      (∀ i j kb, i < 128 → j < n → kb < 4 → ((m'.pp.getD kb []).getD i []).getD j 0 = wrap (blockInt sgn bs i j kb)) ∧
      (∀ i j, i < 128 → j < n → ((accOf m').el.getD i []).getD j 0 = accInt sat (v i j) (blockInt sgn bs i j)) ∧
      (∀ i j, i < 128 → n ≤ j → ((accOf m').el.getD i []).getD j 0 = v i j ∧
        ∀ kb, kb < 4 → ((m'.pp.getD kb []).getD i []).getD j 0 = ((m.pp.getD kb []).getD i []).getD j 0) ∧
      (∀ i j, i < 128 → j < 512 → (512 * i + j ∈ (accOf m').poison ↔ 512 * i + j ∈ (accOf m).poison))

/-- R62, R75, R77, R265, R290, R291, R294: MMUL of BF16 or FP16 adds four block sums to each element, one rounding each; MMUL of a
shared-exponent format forms the partial sets and latches its scales, no accumulator changing; MSCAC then adds each partial, scaled, in
ascending order, and before any MMUL changes nothing. Each leaves its token, and an MMUL's multiply-accumulates are counted (R318). MINJ is not
armed, no byte poisoned, and for MSCAC, CHK is off. -/
def Sys2Proof.Claims.MatrixFloats : Prop :=
  ∀ (s : State) (k : Nat) (q : Cmd) (rest : List Cmd), matTurn s k q rest → q.started = true →
    let m := (s.core k).mat
    let fmt := fld m.mg[0] 0 4
    let v (i j : Nat) : Word := ((accOf m).el.getD i []).getD j 0
    let keeps (m' : MatCore) (n : Nat) : Prop := matFrame m m' ∧ m'.ovf0 = m.ovf0 ∧ m'.ovf1 = m.ovf1 ∧
      (m.corr < 2 ^ 32 → m'.corr = m.corr) ∧
      (∀ i j, i < 128 → n ≤ j → ((accOf m').el.getD i []).getD j 0 = v i j) ∧
      (∀ i j, i < 128 → j < 512 → (512 * i + j ∈ (accOf m').poison ↔ 512 * i + j ∈ (accOf m).poison))
    m.inj.getLsbD 31 = false →
    (∀ a b bs, q.instr = .mmul a b → q.rd = some bs → q.a.toNat ≤ 512 → (∀ b ∈ bs, b.2 = false) →
      bs.length = (128 + q.a.toNat) * (runLen m.mg + if fmt < 4 then 0 else 4) →
      (fmt < 2 → ∃ m', exec (.engineComplete k .MX) s = .next (multiplied k q.a.toNat (s.updCore k (tileEnded q rest 2 false false m'))) ∧
        keeps m' q.a.toNat ∧
        m'.pp = m.pp ∧ m'.la = m.la ∧ m'.lb = m.lb ∧ m'.np = m.np ∧ (accOf m').count = (accOf m).count + 4 ∧
        ∀ i j, i < 128 → j < q.a.toNat → ((accOf m').el.getD i []).getD j 0 = accFP fmt bs i j (v i j)) ∧
      (∀ f, seFmt fmt = some f →
        let n := q.a.toNat
        let body (i : Nat) : List Byte := ((bs.drop (runLen m.mg * i + if i < 128 then 0 else 4 * 128)).take (runLen m.mg)).map (·.1)
        let scale (i kb : Nat) : Nat := (bs.getD (if i < 128 then runLen m.mg * 128 + 4 * i + kb
          else (runLen m.mg + 4) * 128 + runLen m.mg * n + 4 * (i - 128) + kb) (0, false)).1.toNat
        let el (i kb x : Nat) : Int :=
          let u := seUnpack f (((body i).drop (runLen m.mg / 4 * kb)).take (runLen m.mg / 4))
          seInt f (u.2.getD x 0) (u.1.getD (x / 2) 0) (scale i kb)
        ∃ m', exec (.engineComplete k .MX) s = .next (multiplied k n (s.updCore k (tileEnded q rest 2 false false m'))) ∧ keeps m' n ∧
          accOf m' = accOf m ∧ m'.np = n ∧
          (∀ i j kb, i < 128 → j < n → kb < 4 → ((m'.pp.getD kb []).getD i []).getD j 0 =
            wrap ((List.range 16).map (fun x => el i kb x * el (128 + j) kb x)).sum) ∧
          (∀ i kb, i < 128 → kb < 4 → (m'.la.getD i []).getD kb 0 = scale i kb) ∧
          (∀ j kb, j < n → kb < 4 → (m'.lb.getD j []).getD kb 0 = scale (128 + j) kb))) ∧
    (q.instr = .mscac → m.np = 0 → exec (.engineComplete k .MX) s = .next (s.updCore k (fun c => tileEnded q rest 4 false false c.mat c))) ∧
    (∀ f, q.instr = .mscac → seFmt fmt = some f → m.np ≤ 512 → fld m.mg[7] 1 2 = 0 → (∀ x ∈ m.ppPoison, x = []) → m.pp.length = 4 →
      ∃ m', exec (.engineComplete k .MX) s = .next (s.updCore k (tileEnded q rest 4 false false m')) ∧ keeps m' m.np ∧ m'.pp = m.pp ∧
        m'.la = m.la ∧ m'.lb = m.lb ∧ m'.np = m.np ∧ (accOf m').count = (accOf m).count + 4 ∧
        ∀ i j, i < 128 → j < m.np → ((accOf m').el.getD i []).getD j 0 = (List.range 4).foldl (fun v kb =>
          scaled (match f with | .se2 => 2 | .se4 => 4 | .se7 => 7) v (((m.pp.getD kb []).getD i []).getD j 0) ((m.la.getD i []).getD kb 0)
            ((m.lb.getD j []).getD kb 0)) (v i j))

/-- R269, R278, R281, R284: MINJ armed for a partial set inverts one bit of the element that an INT8 or UINT8 MMUL forms there. Under CHK off
the flipped element stands and is added; under CHK detect the MMUL completes with CHECK_FAILED, MFADDR naming column and row, and the
accumulator stays; under CHK correct the element is put right, MCORR rises, the token says so, and the accumulator is what it would be
without the injection. ARM is clear after it. Corrections and failed checks are counted (R318). -/
def Sys2Proof.Claims.MatrixChecks : Prop :=
  ∀ (s : State) (k : Nat) (q : Cmd) (rest : List Cmd) (a b : Src) (bs : List (Byte × Bool)) (i0 j0 kb0 : Nat), matTurn s k q rest →
    q.instr = .mmul a b → q.started = true → q.rd = some bs → q.a.toNat ≤ 512 → bs.length = 64 * (128 + q.a.toNat) →
    (∀ b ∈ bs, b.2 = false) → (∀ x ∈ (s.core k).acc, x.op ≠ .engine .MX) →
    let m := (s.core k).mat
    let n := q.a.toNat
    let sgn := fld m.mg[0] 0 4 == 2
    let sat := m.mg[7].getLsbD 0
    (fld m.mg[0] 0 4 = 2 ∨ fld m.mg[0] 0 4 = 3) →
    m.inj.getLsbD 31 = true → fld m.inj 28 3 = kb0 → kb0 < 4 → fld m.inj 21 7 = i0 → fld m.inj 12 9 = j0 → j0 < n →
    let v (i j : Nat) : Word := ((accOf m).el.getD i []).getD j 0
    let flipped : Word := wrap (blockInt sgn bs i0 j0 kb0) ^^^ BitVec.ofNat 32 (2 ^ fld m.inj 0 5)
    let bent (i j kb : Nat) : Int := if i = i0 ∧ j = j0 ∧ kb = kb0 then signed flipped else blockInt sgn bs i j kb
    let ends (m' : MatCore) (corr : Bool) (x : Nat → Nat → Nat → Int) : Prop := ∃ ovf,
      exec (.engineComplete k .MX) s = .next (multiplied k n ((if corr then tallied (coreDie k) 0x101 k 1 else id)
        (s.updCore k (tileEnded q rest 2 corr ovf m')))) ∧ matFrame m m' ∧
      m'.inj = m.inj &&& 0x7FFFFFFF ∧
      (∀ i j kb, i < 128 → j < n → kb < 4 → ((m'.pp.getD kb []).getD i []).getD j 0 = wrap (x i j kb)) ∧
      (∀ i j, i < 128 → j < n → ((accOf m').el.getD i []).getD j 0 = accInt sat (v i j) (x i j)) ∧
      (∀ i j, i < 128 → n ≤ j → ((accOf m').el.getD i []).getD j 0 = v i j)
    (fld m.mg[7] 1 2 = 0 → ∃ m', ends m' false bent ∧ (m.corr < 2 ^ 32 → m'.corr = m.corr)) ∧
    (fld m.mg[7] 1 2 = 2 → ∃ m', ends m' true (blockInt sgn bs) ∧ m'.corr = min (m.corr + 1) 0xFFFFFFFF) ∧
    (fld m.mg[7] 1 2 = 1 → ∃ m', matFrame m m' ∧ accOf m' = accOf m ∧ (m.corr < 2 ^ 32 → m'.corr = m.corr) ∧ m'.inj = m.inj &&& 0x7FFFFFFF ∧
      ((m'.pp.getD kb0 []).getD i0 []).getD j0 0 = flipped ∧
      exec (.engineComplete k .MX) s = .next (multiplied k n (tallied (coreDie k) 0x102 k 1 ((s.updMs (disowned .MX k (q :: rest))).updCore k (fun c =>
        matFaulted q rest 2 0x32 (BitVec.ofNat 32 (j0 * 2 ^ 16 + i0)) false m' c)))))

/-- R176, R279, R295 to R297: MDRN, its lines taken and its test passed or not made, writes rows f to f + c - 1 of the accumulator as words at
P, ends its ownership and leaves its token, the accumulator unchanged; its test failed, it writes nothing and completes with CHECK_FAILED, counted.
MCHK writes 0, or 0x80000000 where nothing is tested, and leaves its token; only the write waits while an earlier producer owes the register
(R297). With CHK off nothing is tested. -/
def Sys2Proof.Claims.MatrixDrains : Prop :=
  ∀ (s : State) (k : Nat) (q : Cmd) (rest : List Cmd), matTurn s k q rest → q.started = true →
    let m := (s.core k).mat
    let n := q.a.toNat
    let test := accTest m.mg (accOf m) (ovfOf m) n
    (fld m.mg[7] 1 2 = 0 → test = .untested) ∧
    ((fld m.mg[0] 0 4 = 2 ∨ fld m.mg[0] 0 4 = 3) → fld m.mg[7] 1 2 ≠ 0 → ¬ (m.mg[7].getLsbD 0 = true ∧ ovfOf m = true) →
      (test = .pass ↔
        (∀ i, i < 128 → ((List.range 512).map (fun j => ((accOf m).el.getD i []).getD j 0)).foldl (· + ·) 0 = (accOf m).rowI.getD i 0) ∧
        (∀ j, j < n → ((List.range 128).map (fun i => ((accOf m).el.getD i []).getD j 0)).foldl (· + ·) 0 = (accOf m).colI.getD j 0))) ∧
    (∀ a b pas, q.instr = .mdrn a b → q.wr = some pas →
      let f := fld q.b 0 7
      let count := fld q.b 8 8
      let bytes : List Byte := ((List.range count).map (fun r => ((List.range n).map (fun j => (List.range 4).map (fun x =>
        BitVec.ofNat 8 ((((accOf m).el.getD (f + r) []).getD j 0).toNat / 256 ^ x)))).flatten)).flatten
      (test = .untested ∨ test = .pass → (accOf m).poison = [] → exec (.engineComplete k .MX) s = .next
        (((engineStore (.cluster (k / 8)) q.launch ((pas.zip bytes).map (fun p => (p.1, p.2, false))) s).updMs
          (·.release .MX k q.seq)).updCore k (fun c => tileEnded q rest 5 false false c.mat c))) ∧
      (∀ cols rows, test = .fail cols rows → (∀ x ∈ (s.core k).acc, x.op ≠ .engine .MX) →
        let one (l : List Nat) : Nat := if l.length = 1 then l.headD 0 else 0xFFFF
        exec (.engineComplete k .MX) s = .next (tallied (coreDie k) 0x102 k 1 ((s.updMs (disowned .MX k (q :: rest))).updCore k (fun c =>
          matFaulted q rest 5 0x32 (BitVec.ofNat 32 (one cols * 2 ^ 16 + one rows)) false c.mat c))))) ∧
    (∀ d a i x, q.instr = .mchk d a → (test = .untested ∨ test = .pass) → (s.core k).acc[i]? = some x → x.op = .engine .MX →
      x.st = .issued → x.nregs = 1 → x.d = d → (∀ j y, j < i → (s.core k).acc[j]? = some y → y.op ≠ .engine .MX) →
      let w : Word := match test with
        | .pass => 0
        | _ => 0x80000000
      let owes (y : Access) : Prop := ∃ n : XReg, d = .x n ∧ y.owns n = true
      ((∀ j y, j < i → (s.core k).acc[j]? = some y → ¬ owes y) → exec (.engineComplete k .MX) s = .next (s.updCore k (fun c =>
        let c := produced s.ck i x w false c
        tileEnded q rest 6 false false c.mat c))) ∧
      ((∃ (j : Nat) (y : Access), j < i ∧ (s.core k).acc[j]? = some y ∧ owes y) → exec (.engineComplete k .MX) s = .next (s.updCore k (fun c =>
        tileEnded q rest 6 false false c.mat { c with acc := c.acc.set i { x with st := .got w false } }))))

end

/-! The gallery. -/
namespace Sys2Proof.Claims
open Sys2Proof Sys2Proof.Machine

/-- The command q takes effect next in core k's gallery queue: those before it have, none has faulted, no page is awaited, and its number is
its own (R323, R333). -/
def galTurnAt (s : State) (k : Nat) (b : List Cmd) (q : Cmd) (r : List Cmd) : Prop :=
  let g := (s.core k).gal
  g.queue = b ++ q :: r ∧ (∀ x ∈ b ++ r, x.seq ≠ q.seq) ∧ (∀ x ∈ b ++ q :: r, x.cause = none) ∧ (∀ x ∈ b, x.started = true) ∧
  q.started = false ∧ q.dead = false ∧ g.waiting = none ∧ g.rearmed = none ∧ coreDie k < 8

/-- The command q has changed. -/
def galNow (b : List Cmd) (q : Cmd) (r : List Cmd) (c : Core) : Core := { c with gal := { c.gal with queue := b ++ q :: r } }
/-- It has taken effect, with its result. -/
def galTook (b : List Cmd) (q : Cmd) (r : List Cmd) (v : Option Word) : Core → Core := galNow b { q with started := true, done := v } r
/-- It ends with a cause, delivered when it completes (R333). -/
def galEnds (b : List Cmd) (q : Cmd) (r : List Cmd) (cause : Nat) (addr : Word) : Core → Core :=
  galNow b { q with started := true, done := some 0, cause := some ⟨cause, q.a, addr⟩ } r

def classAt (s : State) (die c : Nat) : GClass := tget (s.die die).gal.cls {} c
def setClassAt (die c : Nat) (g : GClass) (s : State) : State :=
  s.updDie die (fun d => { d with gal := { d.gal with cls := tset d.gal.cls c g } })

/-- Words of a GTW's data, and what makes them malformed (R302, R304, R305, R317, R325). -/
def badConf (w : Word) : Prop :=
  fld w 18 1 = 1 ∨ (fld w 30 2 = 0 ∧ (fld w 29 1 = 1 ∨ fld w 16 2 ≠ 0)) ∨ (fld w 30 2 = 1 ∧ 1 < fld w 16 2) ∨ (fld w 30 2 = 3 ∧ fld w 16 2 ≠ 0)
def badSlot (cls : Nat) (w : Word) : Prop :=
  if fld w 30 2 = 0 then w ≠ 0
  else
    (fld w 26 4 = 0 ∨ 8 ≤ fld w 26 4) ∨ (fld w 26 4 = 3 ∧ fld w 0 18 ≠ 0) ∨
    (fld w 26 4 = 5 ∧ (fld w 0 19 ≠ 0 ∨ 4 < fld w 23 3 ∨ (cls ≠ 0 ∧ fld w 23 3 = 4) ∨ (cls = 0 ∧ fld w 23 3 < 3))) ∨
    (fld w 26 4 = 6 ∧ (fld w 0 26 ≠ 0 ∨ cls = 0))
def badData (tbl cls : Nat) (x : Nat → Word) : Prop :=
  match tbl with
  | 0 => badConf (x 0) ∨ x 1 ≠ 0 ∨ x 2 ≠ 0 ∨ x 3 ≠ 0
  | 1 | 3 => fld (x 2) 10 21 ≠ 0 ∨ x 3 ≠ 0
  | 2 => fld (x 8) 10 21 ≠ 0 ∨ x 9 ≠ 0 ∨ x 10 ≠ 0 ∨ x 11 ≠ 0
  | _ => ∃ n, n < 4 ∧ badSlot cls (x n)

/-- The entry that a GTW's data writes (R325). -/
def entryWritten (tbl i : Nat) (x : Nat → Word) (t : GTab) : GTab :=
  let big (f n : Nat) : Nat := ((List.range n).map (fun j => (x (f + j)).toNat * 2 ^ (32 * j))).sum
  match tbl with
  | 0 => { t with conf := x 0 }
  | 1 => { t with exact := if fld (x 2) 31 1 = 1 then tset t.exact i (big 0 2, fld (x 2) 0 10) else terase t.exact i }
  | 2 => { t with tern := if fld (x 8) 31 1 = 1 then tset t.tern i (big 0 4, big 4 4, fld (x 8) 0 10) else terase t.tern i }
  | 3 => { t with range := if fld (x 2) 31 1 = 1 then tset t.range i ((x 0).toNat, (x 1).toNat, fld (x 2) 0 10) else terase t.range i }
  | _ => { t with act := if x 0 = 0 ∧ x 1 = 0 ∧ x 2 = 0 ∧ x 3 = 0 then terase t.act i else tset t.act i [x 0, x 1, x 2, x 3] }

/-- A table whose entries lo to hi - 1 are cleared (R326). -/
def entriesCleared (tbl lo hi : Nat) (t : GTab) : GTab :=
  let out {α : Type} (l : Tbl α) : Tbl α := l.filter (fun e => decide (e.1 < lo ∨ hi ≤ e.1))
  match tbl with
  | 0 => { t with conf := 0 }
  | 1 => { t with exact := out t.exact }
  | 2 => { t with tern := out t.tern }
  | 3 => { t with range := out t.range }
  | _ => { t with act := out t.act }

/-- The key of a record at a stage (R302). -/
def keyOf (conf : Word) (r : GRec) : Nat :=
  ((List.range (fld conf 16 2 + 1)).map (fun i => (r.f.getD (fld conf (4 * i) 4) 0).toNat * 2 ^ (32 * i))).sum

/-- Entry i of the stage's table matches and names an action (R303). -/
def hits (t : GTab) (r : GRec) (i act : Nat) : Prop :=
  match fld t.conf 30 2 with
  | 1 => (i, keyOf t.conf r, act) ∈ t.exact
  | 2 => ∃ v m, (i, v, m, act) ∈ t.tern ∧ (keyOf t.conf r ^^^ v) &&& m = 0
  | 3 => ∃ lo hi, (i, lo, hi, act) ∈ t.range ∧ lo ≤ keyOf t.conf r ∧ keyOf t.conf r ≤ hi
  | _ => False

/-- The action that the stage runs, if any: that of the lowest matching entry, else on a miss the miss action (R303). -/
def chosen (t : GTab) (r : GRec) (a : Option Nat) : Prop :=
  if fld t.conf 30 2 = 0 then a = none
  else (∃ i act, a = some act ∧ hits t r i act ∧ ∀ j b, hits t r j b → i ≤ j) ∨
    ((∀ i b, ¬ hits t r i b) ∧ a = if fld t.conf 29 1 = 1 then some (fld t.conf 19 10) else none)

/-- Entries of a table lie in rising order. -/
def rising {α : Type} (t : Tbl α) : Prop := t.Pairwise (fun a b => a.1 < b.1)

/-- One slot on a record and the counters (R304, R305, R314). -/
def slotRun (base : Nat) (x : GRec × Tbl Nat) (w : Word) : GRec × Tbl Nat :=
  let r := x.1
  let d := fld w 22 4
  let imm : Nat := fld w 0 22
  let high : Nat := if imm < 2 ^ 21 then imm else imm + (2 ^ 32 - 2 ^ 22)
  let put (v : Nat) : GRec × Tbl Nat := ({ r with f := r.f.set d (BitVec.ofNat 32 v) }, x.2)
  let f (n : Nat) : Nat := (r.f.getD n 0).toNat
  let runs := fld w 30 2 = 1 ∨ (fld w 30 2 = 2 ∧ r.c = false) ∨ (fld w 30 2 = 3 ∧ r.c = true)
  if ¬ runs then x
  else match fld w 26 4 with
  | 1 => put imm
  | 2 => put ((f d + high) % 2 ^ 32)
  | 3 => put (f (fld w 18 4))
  | 4 =>
    let i := base + fld w 10 16
    let v := tget x.2 0 i
    if fld w 0 10 ≠ 0 ∧ fld w 0 10 ≤ v then ({ r with c := true }, x.2)
    else ({ r with c := false }, tset x.2 i ((v + 1) % 2 ^ 64))
  | 5 => ({ r with kind := fld w 23 3, k := fld w 19 4 }, x.2)
  | 6 => ({ r with rq := true }, x.2)
  | 7 => put (f d &&& high)
  | _ => x

/-- The result word of R329 with no handle. -/
def resultWord (r : GRec) (status : Nat) : Word :=
  BitVec.ofNat 32 (status * 2 ^ 28 + (if r.lim then 2 ^ 27 else 0) + r.pass * 2 ^ 25 + r.gen * 2 ^ 16 + 0xFFFF)

/-- The record's command, n, has its result, and the record where it returns (R329). -/
def recordEnds (r : GRec) (n status : Nat) (back : Bool) (s : State) : State :=
  s.updCore r.src (fun c => { c with gal := { c.gal with queue := c.gal.queue.map (fun q =>
    if q.seq = n then { q with done := some (resultWord r status), ret := if back then some r else none } else q) } })

/-- The record's command still stands in its core's queue, its task still running. -/
def commandStands (s : State) (r : GRec) (n : Nat) : Prop :=
  r.cmd = some n ∧ (∃ q ∈ (s.core r.src).gal.queue, q.seq = n) ∧ ∀ q ∈ (s.core r.src).gal.queue, q.seq = n → q.dead = false

/-- A class-0 record of a tenant's partition: its policy alone decides it (R319, log 60). -/
def underPolicy (r : GRec) : Prop := r.cls = 0 ∧ fld (r.f.getD 0 0) 16 6 < 48

/-- The core's other producers before the i-th leave its registers to it (R41). -/
def owesNothing (c : Core) (i : Nat) : Prop :=
  ∀ x, c.acc[i]? = some x → ∀ n : XReg, x.d = .x n → ∀ r ∈ regsFrom n x.nregs, ∀ j y, j < i → c.acc[j]? = some y → y.owns r = false

end Sys2Proof.Claims

section
open Sys2Proof Sys2Proof.Machine Sys2Proof.Claims

/-- R311, R312, R313, R323 to R328, R332 to R334: the table commands at their turn. GTW, its data read, and GTD write the shadow copy of their
stage alone while OLD is 0, malformed data ending GTW with ACTION_FORMAT and a counter index outside the window with TABLE_INDEX. A commit,
behind every earlier GTW and GTD of its class, makes the shadow copy active and keeps the old set; once no record of an old generation is
left, the new set is copied to the shadow. GBIND resets the stages that it takes or gives. While OLD is 1 all wait. -/
def Sys2Proof.Claims.GalleryTables : Prop :=
  ∀ (s : State) (k : Nat) (b : List Cmd) (q : Cmd) (r : List Cmd), galTurnAt s k b q r →
    let die := coreDie k
    let tbl := fld q.a 29 3
    let st := fld q.a 22 4
    let i := fld q.a 0 14
    let c := match q.instr with | .gtw _ _ | .gtd _ _ => fld q.a 26 3 | _ => q.a.toNat % 8
    let g := classAt s die c
    let tab := tget (s.die die).gal.shadow {} st
    let bound := g.stages / 2 ^ st % 2 = 1
    let shadow (t : GTab) : State := s.updDie die (fun d => { d with gal := { d.gal with shadow := tset d.gal.shadow st t } })
    (∀ x y pas s1, q.instr = .gtw x y → q.rd = none → g.old = false →
      translateRun s die q.asid .load ((List.range (if tbl = 2 then 48 else 16)).map (fun i => (q.b.toNat + i) % 2 ^ 32)) [] = (.inl pas, s1) →
      (∀ a ∈ pas, s1.ms.ownedByOther .GL k q.seq (a / 64) = false ∧ s1.lineLost (a / 64) = false) →
      exec (.engineRead k .GL) s = .next (s1.updCore k (galNow b { q with rd := some (engineBytes s1 (.die die) pas) } r))) ∧
    (∀ x y bs, q.instr = .gtw x y → q.rd = some bs → g.old = false → tbl < 5 → bs.length = (if tbl = 2 then 48 else 16) →
      (∀ b ∈ bs, b.2 = false) →
      let w (n : Nat) : Word := BitVec.ofNat 32 (number (((bs.drop (4 * n)).take 4).map (·.1)))
      let outside := ∃ n, n < 4 ∧ fld (w n) 30 2 ≠ 0 ∧ fld (w n) 26 4 = 4 ∧ (fld g.cwin 8 8 + 1) * 256 ≤ fld (w n) 10 16
      (¬ bound → exec (.galleryShadowWrite k) s = .next (s.updCore k (galEnds b q r 0x40 0))) ∧
      (bound → badData tbl c w → exec (.galleryShadowWrite k) s = .next (s.updCore k (galEnds b q r 0x42 q.b))) ∧
      (bound → ¬ badData tbl c w → tbl = 4 → outside → exec (.galleryShadowWrite k) s = .next (s.updCore k (galEnds b q r 0x41 0))) ∧
      (bound → ¬ badData tbl c w → (tbl = 4 → ¬ outside) → exec (.galleryShadowWrite k) s =
        .next ((shadow (entryWritten tbl i w tab)).updCore k (galTook b q r (some 0))))) ∧
    (∀ x y, q.instr = .gtd x y → g.old = false → bound → tbl < 5 → exec (.galleryShadowWrite k) s =
      .next ((shadow (entriesCleared tbl i (if q.b = 0 then [1, 16384, 1024, 512, 1024].getD tbl 0 else i + q.b.toNat) tab)).updCore k
        (galTook b q r (some 0)))) ∧
    ((∃ x y, q.instr = .gtw x y ∨ q.instr = .gtd x y) → g.old = true → exec (.galleryShadowWrite k) s = .next s) ∧
    (∀ d x, q.instr = .gcmt d x →
      (∀ j q', coreDie j = die → (s.core j).gal.turn = some q' → (∃ d x, q'.instr = .gcmt d x) → q'.a.toNat % 8 = c → j ≠ k → q.seq < q'.seq) →
      (g.old = true → exec (.galleryCommit die c) s = .next s) ∧
      (g.old = false → (∀ j, coreDie j = die → ∀ x ∈ (s.core j).gal.queue, (∃ a b, x.instr = .gtw a b ∨ x.instr = .gtd a b) →
          fld x.a 26 3 = c → x.seq < q.seq → x.started = true) →
        ∃ act old, exec (.galleryCommit die c) s = .next ((setClassAt die c { g with gen := (g.gen + 1) % 256, old := true }
            (s.updDie die (fun d => { d with gal := { d.gal with active := act, oldTab := old } }))).updCore k
          (galTook b q r (some (BitVec.ofNat 32 ((g.gen + 1) % 256))))) ∧
          ∀ n, n < 16 →
            (g.stages / 2 ^ n % 2 = 1 → tfind act n = tfind (s.die die).gal.shadow n ∧ tfind old n = tfind (s.die die).gal.active n) ∧
            (g.stages / 2 ^ n % 2 = 0 → tfind act n = tfind (s.die die).gal.active n ∧ tfind old n = tfind (s.die die).gal.oldTab n))) ∧
    (∀ x y, q.instr = .gbind x y →
      (∀ j q', coreDie j = die → (s.core j).gal.turn = some q' → (∃ x y, q'.instr = .gbind x y) → q'.a.toNat % 8 = c → j ≠ k → q.seq < q'.seq) →
      ((g.old = true ∨ g.exitq ≠ [] ∨ ∃ x ∈ (s.die die).gal.flight, x.cls = c) → exec (.galleryBindEffect die c) s = .next s) ∧
      (g.old = false → g.exitq = [] → (∀ x ∈ (s.die die).gal.flight, x.cls ≠ c) →
        (c = 0 → fld q.b 16 2 ≠ 0 → exec (.galleryBindEffect die c) s = .next (s.updCore k (galEnds b q r 0x42 0))) ∧
        ((c = 0 → fld q.b 16 2 = 0) → ∃ act sha old, exec (.galleryBindEffect die c) s =
          .next ((setClassAt die c { g with stages := fld q.b 0 16, rlim := fld q.b 16 2 }
            (s.updDie die (fun d => { d with gal := { d.gal with active := act, shadow := sha, oldTab := old } }))).updCore k
            (galTook b q r (some 0))) ∧
          ∀ n, n < 16 →
            (g.stages / 2 ^ n % 2 ≠ fld q.b 0 16 / 2 ^ n % 2 → tfind act n = none ∧ tfind sha n = none ∧ tfind old n = none) ∧
            (g.stages / 2 ^ n % 2 = fld q.b 0 16 / 2 ^ n % 2 → tfind act n = tfind (s.die die).gal.active n ∧
              tfind sha n = tfind (s.die die).gal.shadow n ∧ tfind old n = tfind (s.die die).gal.oldTab n)))) ∧
    (∀ d x y, q.instr = .gctr d x y →
      let n := fld (classAt s die (fld q.a 16 3)).cwin 24 8 * 256 + fld q.a 0 16
      let v := tget (s.die die).gal.ctr 0 n
      let s1 := if q.b.getLsbD 1 then s.updDie die (fun d => { d with gal := { d.gal with ctr := tset d.gal.ctr n 0 } }) else s
      exec (.engineRead k .GL) s = .next (s1.updCore k (galTook b q r (some (BitVec.ofNat 32 (if q.b.getLsbD 0 then v / 2 ^ 32 else v))))))

/-- R312, R316: GALLERY_SHADOW_COPY_DONE, no record of an old generation left, copies the active set of the class's stages to the shadow
copy, and OLD reads 0. GOWN_WRITE waits while the class holds a record; then it sets the owner and resets the stages and the counter window;
an owner numbered 48 or more traps RESERVED_FIELD at the service core (log 86). -/
def Sys2Proof.Claims.GallerySets : Prop :=
  (∀ (s : State) (die c : Nat),
    let g := classAt s die c
    let left := ∃ x ∈ (s.die die).gal.flight, x.cls = c ∧ x.gen ≠ g.gen
    g.old = true →
    (left → exec (.galleryShadowCopyDone die c) s = .next s) ∧
    (¬ left → ∃ sha old, exec (.galleryShadowCopyDone die c) s = .next (setClassAt die c { g with old := false }
        (s.updDie die (fun d => { d with gal := { d.gal with shadow := sha, oldTab := old } }))) ∧
      ∀ n, n < 16 → (g.stages / 2 ^ n % 2 = 1 → tfind sha n = tfind (s.die die).gal.active n ∧ tfind old n = none) ∧
        (g.stages / 2 ^ n % 2 = 0 → tfind sha n = tfind (s.die die).gal.shadow n ∧ tfind old n = tfind (s.die die).gal.oldTab n))) ∧
  (∀ (s : State) (die c : Nat) (v : Word),
    let g := classAt s die c
    let busy := g.injq ≠ [] ∨ g.exitq ≠ [] ∨ ∃ x ∈ (s.die die).gal.flight, x.cls = c
    let lo := fld g.cwin 24 8 * 256
    let hi := lo + (fld g.cwin 8 8 + 1) * 256
    let none48 := v.getLsbD 31 = true ∧ c ≠ 0 ∧ 48 ≤ fld v 16 6
    (none48 → exec (.gownWrite die c v) s = .next (takeTrap s (1024 + die) 0x02
      (csrDetail (s.core (1024 + die)).standing (0xC40 + c) 0x02 0) 0 (s.core (1024 + die)).pc)) ∧
    (¬ none48 → busy → exec (.gownWrite die c v) s = .next s) ∧
    (¬ none48 → ¬ busy → ∃ act sha old ctr, exec (.gownWrite die c v) s = .next (setClassAt die c { g with
          stages := 0, rlim := 0, old := false, ownValid := v.getLsbD 31 && c != 0, ownRsv := fld v 22 9, ownPart := fld v 16 6,
          stgmask := fld v 0 16 }
        (s.updDie die (fun d => { d with gal := { d.gal with active := act, shadow := sha, oldTab := old, ctr } }))) ∧
      (∀ n, n < 16 → g.stages / 2 ^ n % 2 = 1 → tfind act n = none ∧ tfind sha n = none ∧ tfind old n = none) ∧
      (∀ n, g.stages / 2 ^ n % 2 = 0 → tfind act n = tfind (s.die die).gal.active n ∧ tfind sha n = tfind (s.die die).gal.shadow n) ∧
      (∀ n, tget ctr 0 n = if lo ≤ n ∧ n < hi then 0 else tget (s.die die).gal.ctr 0 n)))

/-- R299 to R310, R314, R318, R319, R334: GINJ's record, read at its turn, joins its class's injection queue once it has room. GALLERY_ADMIT,
no record recirculating or still at stage 0, admits the next one of the class whose turn it is; GALLERY_STAGE runs its next stage's action on
it, in place, records keeping their order; GALLERY_LEAVE takes the oldest past stage 15, to recirculate or to its sink. A record that a
policy decides meets no entry. -/
def Sys2Proof.Claims.GalleryRecords : Prop :=
  (∀ (s s1 : State) (k : Nat) (b : List Cmd) (q : Cmd) (r : List Cmd) (x y : Src) (pas : List Nat), galTurnAt s k b q r →
    q.instr = .ginj x y →
    let die := coreDie k
    let c := q.a.toNat % 8
    let g := classAt s die c
    (q.rd = none → translateRun s die q.asid .load ((List.range 64).map (fun i => (q.b.toNat + i) % 2 ^ 32)) [] = (.inl pas, s1) →
      (∀ a ∈ pas, s1.ms.ownedByOther .GL k q.seq (a / 64) = false ∧ s1.lineLost (a / 64) = false) →
      exec (.engineRead k .GL) s = .next (s1.updCore k (galNow b { q with rd := some (engineBytes s1 (.die die) pas) } r))) ∧
    (∀ bs, q.rd = some bs → bs.length = 64 → (∀ x ∈ bs, x.2 = false) →
      (64 ≤ g.injq.length → exec (.engineRead k .GL) s = .next s) ∧
      (g.injq.length < 64 → exec (.engineRead k .GL) s = .next ((setClassAt die c { g with injq := g.injq ++ [{
          cls := c, src := k, kind := if c = 0 then 3 else 0, cmd := some q.seq
          f := (List.range 16).map (fun n => BitVec.ofNat 32 (number (((bs.drop (4 * n)).take 4).map (·.1)))) }] } s).updCore k
        (galTook b q r none))))) ∧
  (∀ (s : State) (die c : Nat) (x : GRec) (rest : List GRec), c < 8 → die < 8 →
    let d := s.die die
    let g := classAt s die c
    let may (c : Nat) : Prop := (classAt s die c).injq ≠ [] ∧ (classAt s die c).exitq.length < 16 ∧
      ∀ j, coreDie j = die → ∀ q ∈ (s.core j).gal.queue, (∃ a b, q.instr = .gbind a b) → q.a.toNat % 8 = c → q.started = true
    g.injq = x :: rest → may c → (∀ n, n < (c + 7 - d.gal.last % 8) % 8 → ¬ may ((d.gal.last + 1 + n) % 8)) →
    d.gal.flight.length < 16 → (∀ y ∈ d.gal.flight, y.stage ≠ 0 ∧
      ¬ (y.stage = 16 ∧ y.rq = true ∧ y.pass < (classAt s die y.cls).rlim)) → ¬ underPolicy x →
    exec (.galleryAdmit die c) s = .next (tallied die (0x300 + c) c 1 ((setClassAt die c { g with injq := rest } s).updDie die (fun d =>
      { d with gal := { d.gal with flight := d.gal.flight ++ [{ x with gen := g.gen, stage := 0, pass := 0 }], last := c } })))) ∧
  (∀ (s : State) (die n : Nat) (x : GRec), (s.die die).gal.flight[n]? = some x → x.stage < 16 →
    (∀ m y, m < n → (s.die die).gal.flight[m]? = some y → x.stage + 1 < y.stage) →
    let d := s.die die
    let g := classAt s die x.cls
    let t := tget (if x.gen = g.gen then d.gal.active else d.gal.oldTab) {} x.stage
    let ends (y : GRec) (ctr : Tbl Nat) : Prop := exec (.galleryStage die n) s = .next (s.updDie die (fun d =>
      { d with gal := { d.gal with flight := d.gal.flight.set n { y with stage := x.stage + 1 }, ctr := ctr } }))
    (g.stages / 2 ^ x.stage % 2 = 0 ∨ underPolicy x → ends { x with c := false } d.gal.ctr) ∧
    (g.stages / 2 ^ x.stage % 2 = 1 → ¬ underPolicy x → x.poison = 0 → rising t.exact → rising t.tern → rising t.range →
      ∀ a, chosen t x a →
        let y := ((a.map (tget t.act [])).getD []).foldl (slotRun (fld g.cwin 24 8 * 256)) ({ x with c := false }, d.gal.ctr)
        ends y.1 y.2) ∧
    (g.stages / 2 ^ x.stage % 2 = 1 → ¬ underPolicy x → x.cmd = none → fld t.conf 30 2 ≠ 0 →
      (∃ i, i ≤ fld t.conf 16 2 ∧ x.poison.getLsbD (fld t.conf (4 * i) 4) = true) →
      exec (.galleryStage die n) s = .next (tallied die (0x310 + x.cls) x.cls 1 (setClassAt die x.cls { g with
        drop := min (g.drop + 1) 0xFFFFFFFF } (s.updDie die (fun d => { d with gal := { d.gal with flight := d.gal.flight.eraseIdx n } })))))) ∧
  (∀ (s : State) (die : Nat) (x : GRec) (rest : List GRec), (s.die die).gal.flight = x :: rest → 16 ≤ x.stage →
    let g := classAt s die x.cls
    let s1 := s.updDie die (fun d => { d with gal := { d.gal with flight := rest } })
    let leaves (y : GRec) (s1 : State) : Prop :=
      let t := fun s' => exec (.galleryLeave die 0) s = .next s'
      let g1 := classAt s1 die y.cls
      (∀ m, y.kind = 0 → commandStands s y m → t (recordEnds y m 0 true s1)) ∧
      (∀ m, y.kind = 3 → commandStands s y m → t (recordEnds y m 3 false (tallied die (0x310 + y.cls) y.cls 1
        (setClassAt die y.cls { g1 with drop := min (g1.drop + 1) 0xFFFFFFFF } s1)))) ∧
      (y.kind = 3 → y.cmd = none → t (tallied die (0x310 + y.cls) y.cls 1
        (setClassAt die y.cls { g1 with drop := min (g1.drop + 1) 0xFFFFFFFF } s1))) ∧
      (y.kind = 4 → y.cmd = none → t { s1 with exported := s1.exported ++ [y.f] }) ∧
      (∀ m, y.kind = 4 → commandStands s y m → ∃ st, st < 8 ∧
        t (recordEnds y m st false { s1 with exported := s1.exported ++ [y.f], fresh := s1.fresh + 1 })) ∧
      (∀ m, y.kind = 1 → (s.core y.src).rank = none → commandStands s y m → t (recordEnds y m 4 true s1)) ∧
      (∀ m, y.kind = 2 → (s1.byHandle die (fld (y.f.getD y.k 0) 8 16) = none) → commandStands s y m → t (recordEnds y m 5 true s1)) ∧
      (∀ l x, y.kind = 2 → s1.byHandle die (fld (y.f.getD y.k 0) 8 16) = some (l, x) → fld (y.f.getD y.k 0) 0 3 + 1 < x.flights.length →
        t (setClassAt die y.cls { g1 with exitq := g1.exitq ++ [{ y with land := some (l, fld (y.f.getD y.k 0) 0 3) }] } s1))
    (x.rq = true → x.pass < g.rlim → x.stage = 16 → (∃ y ∈ rest, y.stage = 0) → exec (.galleryLeave die 0) s = .next s) ∧
    (x.rq = true → x.pass < g.rlim → (∀ y ∈ rest, y.stage ≠ 0) → exec (.galleryLeave die 0) s = .next (s.updDie die (fun d => { d with gal := { d.gal with
      flight := rest ++ [{ x with pass := x.pass + 1, stage := 0, c := false, rq := false }] } }))) ∧
    (x.rq = true → g.rlim ≤ x.pass → leaves { x with lim := true }
      (tallied die (0x320 + x.cls) x.cls 1 (setClassAt die x.cls { g with limhit := min (g.limhit + 1) 0xFFFFFFFF } s1))) ∧
    (x.rq = false → leaves x s1))

/-- R93, R176, R309, R310, R323, R329, R330, R333: EXIT_BUFFER_RELEASE pushes the head's item into its landing, or hands its message to the
network interface; a refused one waits. A done command completes at the head of its queue: GINJ pushes its result, a returned record in a free
slot named in it; GCMT and GCTR write d; one with a cause sets FAULT and discards those behind it. GTAKE stores a returned record's fields
at B, or discards it, and frees its slot. -/
def Sys2Proof.Claims.GalleryResults : Prop :=
  (∀ (s : State) (die c : Nat) (x : GRec) (rest : List GRec),
    let g := classAt s die c
    g.exitq = x :: rest →
    (∀ l f s1 m, x.land = some (l, f) → pushItem s l die f ((x.f.drop 12).take 4) = some s1 → commandStands s1 x m →
      exec (.exitBufferRelease die c) s = .next (recordEnds x m 2 false (setClassAt die c { classAt s1 die c with exitq := rest } s1))) ∧
    (∀ l f, x.land = some (l, f) → pushItem s l die f ((x.f.drop 12).take 4) = none → exec (.exitBufferRelease die c) s = .next s) ∧
    (∀ s1 s2 w me m, x.land = none → x.sent = none → fld (x.f.getD x.k 0) 28 4 = 0 → (s.core x.src).rank = some me → (s1.core x.src).rank = some me →
      resolve s x.src (fld (x.f.getD x.k 0) 0 24) = (some w, s1) → entryPkg w = s1.pkg → (s1.core (entryCore w)).fenced = false →
      acceptMsg s1 (s1.corePart x.src) (fld (x.f.getD x.k 0) 0 24)
        (message x.f 0 (fld (x.f.getD x.k 0) 24 4) me ((x.f.map (fun w => bytesLE 4 w.toNat)).flatten) (x.poison != 0)) = some s2 →
      commandStands s2 x m →
      exec (.exitBufferRelease die c) s = .next (recordEnds x m 1 false (setClassAt die c { classAt s2 die c with exitq := rest } s2)))) ∧
  (∀ (s : State) (k : Nat) (q : Cmd) (rest : List Cmd) (v : Word), (s.core k).gal.queue = q :: rest → q.started = true → q.done = some v →
    q.dead = false → (s.core k).gal.waiting = none →
    let gone (c : Core) : Core := { c with gal := { c.gal with queue := rest }, cnt := { c.cnt with gl := c.cnt.gl - 1 } }
    (∀ x y, q.instr = .ginj x y → q.cause = none → q.ret = none → exec (.engineComplete k .GL) s = .next (s.updCore k (fun c =>
      pushed 2 v (gone c)))) ∧
    (∀ x y r, q.instr = .ginj x y → q.cause = none → q.ret = some r → (∃ h, h < 16 ∧ tfind (s.core k).gal.slots h = none) →
      ∃ h, h < 16 ∧ tfind (s.core k).gal.slots h = none ∧ exec (.engineComplete k .GL) s = .next (s.updCore k (fun c =>
        let c := gone c
        pushed 2 (BitVec.ofNat 32 (v.toNat / 2 ^ 16 * 2 ^ 16 + h)) { c with gal := { c.gal with slots := tset c.gal.slots h r } }))) ∧
    (∀ d i x, ((∃ a, q.instr = .gcmt d a) ∨ ∃ a b, q.instr = .gctr d a b) → q.cause = none → (s.core k).acc[i]? = some x →
      x.op = .engine .GL → x.st = .issued → owesNothing (s.core k) i →
      (∀ j y, j < i → (s.core k).acc[j]? = some y → y.op ≠ .engine .GL) →
      exec (.engineComplete k .GL) s = .next (s.updCore k (fun c => produced s.ck i x v false (gone c)))) ∧
    ((∃ x y, q.instr = .gtw x y ∨ q.instr = .gtd x y ∨ q.instr = .gbind x y) → q.cause = none →
      exec (.engineComplete k .GL) s = .next (s.updCore k gone)) ∧
    (∀ w, q.cause = some w → (∀ x ∈ (s.core k).acc, x.op ≠ .engine .GL) →
      let table := ∃ x y, q.instr = .gtw x y ∨ q.instr = .gtd x y
      let ends (f : Core → Core) (cls st : Nat) : Prop := exec (.engineComplete k .GL) s = .next ((s.updMs (disowned .GL k (q :: rest))).updCore k
        (fun c => f { c with
          gal := { c.gal with queue := [], flt := { fault := true, cause := w.cause, f1 := cls, f2 := st, addr := w.addr }, waiting := some w }
          cnt := { c.cnt with gl := c.cnt.gl - 1 - rest.length } }))
      (table → ends id (fld q.a 26 3) (fld q.a 22 4)) ∧
      ((∃ x y, q.instr = .gbind x y) → ends id (q.a.toNat % 8) 0xFF) ∧
      ((∃ x y, q.instr = .ginj x y) → ends (pushed 2 0x7000FFFF) (q.a.toNat % 8) 0xFF))) ∧
  (∀ (s : State) (a b : Src),
    let i := Instr.gtake a b
    let u : Uses := { a, b, engs := [.GL], moves := true }
    let v := s.vals u
    let slot := tfind (s.core s.cur).gal.slots (v.a.toNat % 16)
    let pc := (s.core s.cur).pc
    let freed (c : Core) : Core := { c with gal := { c.gal with slots := terase c.gal.slots (v.a.toNat % 16) } }
    s.ready u = true →
    (slot = none ∨ 2 ^ 17 ≤ v.a.toNat ∨ fld v.a 4 12 ≠ 0 → exec i s = .next (takeTrap s s.cur 0x41 v.a 0 pc)) ∧
    (∀ r, slot = some r → v.a.toNat < 2 ^ 17 → fld v.a 4 12 = 0 →
      (fld v.a 16 1 = 1 → b ≠ ⟨.x 0, false⟩ → exec i s = .next (takeTrap s s.cur 0x02 0 0 pc)) ∧
      (fld v.a 16 1 = 1 → b = ⟨.x 0, false⟩ → Completes i u v.poison Core.advance s (s.updCore s.cur freed)) ∧
      (fld v.a 16 1 = 0 → v.b.toNat % 4 ≠ 0 → exec i s = .next (takeTrap s s.cur 0x04 (encode i) v.b pc)) ∧
      (∀ pas s1, fld v.a 16 1 = 0 → v.b.toNat % 4 = 0 →
        translateWords s (coreDie s.cur) (s.core s.cur).masid ((List.range 16).map (fun n => (v.b.toNat + 4 * n) % 2 ^ 32)) [] = (.inl pas, s1) →
        (∀ p ∈ pas, s1.ms.owned (p.1 / 64) = false) →
        Completes i u v.poison Core.advance s (s1.updCore s.cur (fun c => freed (c.storeWords s.ck v.b.toNat (v.poison || r.poison != 0) pas
          ((r.f.map (fun w => bytesLE 4 w.toNat)).flatten)))))))

end

/-! The ferry. -/
namespace Sys2Proof.Claims
open Sys2Proof Sys2Proof.Machine

/-- The command q of core k's running task stands at its turn at the ferry: no cause waits and no page is awaited. -/
def ferTurn (s : State) (k : Nat) (q : Cmd) (rest : List Cmd) : Prop :=
  let f := (s.core k).fer
  f.queue = q :: rest ∧ f.waiting = none ∧ f.rearmed = none ∧ q.dead = false ∧ coreDie k < 8

/-- The command at the turn changes; it completes, with a further effect on its core. -/
def ferNow (q : Cmd) (rest : List Cmd) (c : Core) : Core := { c with fer := { c.fer with queue := q :: rest } }
def ferEnds (k : Nat) (q : Cmd) (rest : List Cmd) (f : Core → Core) (s : State) : State :=
  (s.updCore k (fun c => f { c with fer := { c.fer with queue := rest }, cnt := { c.cnt with PS := c.cnt.PS - 1 } })).updMs (fun m =>
    { m with own := m.own.filter (fun o => o.2 != (.PS, k, q.seq)) })

/-- It completes with a cause (R356): FAULT is set, the cause waits, those behind it are gone. -/
def ferFaults (k : Nat) (q : Cmd) (rest : List Cmd) (cause : Nat) (addr : Word) (blk : Nat) (s : State) : State :=
  (s.updMs (disowned .PS k (q :: rest))).updCore k (fun c => { c with
    fer := { c.fer with queue := [], flt := { fault := true, cause, f1 := blk, f2 := 0, addr }, waiting := some ⟨cause, q.a, addr⟩ }
    cnt := { c.cnt with PS := c.cnt.PS - 1 - rest.length } })

def groupAt (s : State) (die g : Nat) : FGroup := tget (s.die die).fer.groups {} g
def setGroupAt (die g : Nat) (x : FGroup) (s : State) : State :=
  s.updDie die (fun d => { d with fer := { d.fer with groups := tset d.fer.groups g x } })
def blockAt (s : State) (die b : Nat) : Option FBlock := tfind (s.die die).fer.blocks b
def setBlockAt (die b : Nat) (x : FBlock) (s : State) : State :=
  s.updDie die (fun d => { d with fer := { d.fer with blocks := tset d.fer.blocks b x } })

/-- A ferry word (R354), and its posting to a group's queue of 64. -/
def eventWord (kind b detail : Nat) : Word := BitVec.ofNat 32 (kind * 2 ^ 28 + b * 2 ^ 16 + detail)
def posted (die g : Nat) (w : Word) (s : State) : State :=
  let x := groupAt s die g
  setGroupAt die g (if x.evq.length < 64 then { x with evq := x.evq ++ [w] } else { x with evlost := min (x.evlost + 1) 0xFFFFFFFF }) s

/-- Order in which a Merge takes halves (R344). -/
def comesFirst (a b : FHalf) : Prop :=
  a.round < b.round ∨ (a.round = b.round ∧ (a.fid.toNat < b.fid.toNat ∨ (a.fid = b.fid ∧ a.seq < b.seq)))

/-- A block takes one half (R344); of a half whose element count differs, the elements that both have (log 78). -/
def meets (b : FBlock) (h : FHalf) : FBlock :=
  let ds := (h.v.zip b.values).map (fun p =>
    BitVec.ofNat 32 ((fpSub .rne (fpDivNat p.1 h.mass) (fpDivNat p.2 b.mass)).toNat % 2 ^ 31))
  { b with
    dis := if 0 < b.mass ∧ 0 < h.mass then (if ds.any nan then 0x7FC00000 else greater b.dis (ds.foldl greater 0)) else b.dis
    values := (List.range b.values.length).map (fun i => match h.v[i]? with
      | some x => fpAdd .rne (b.values.getD i 0) x
      | none => b.values.getD i 0)
    mass := (b.mass + h.mass) % 2 ^ 64, pend := b.pend - h.mass }

/-- A Merge, its halves taken in the order hs: the block, and the state with JOINED posted where it first gains mass (R344, R350). -/
def mergedBlock (x : FBlock) (hs : List FHalf) : FBlock :=
  let y := { hs.foldl meets x with pending := [] }
  if y.join && y.mass != 0 then { y with join := false } else y
def mergedState (die b : Nat) (x : FBlock) (hs : List FHalf) (s : State) : State :=
  let y := hs.foldl meets x
  let s := setBlockAt die b (mergedBlock x hs) s
  if y.join && y.mass != 0 then posted die x.group (eventWord 5 b 0) s else s

/-- hs lists a block's pending halves in their order. -/
def inOrder (x : FBlock) (hs : List FHalf) : Prop := hs.Perm x.pending ∧ hs.Pairwise comesFirst

/-- The half that a block sends (R344). -/
def sentHalf (s : State) (die : Nat) (x : FBlock) (mass : Nat) (v : List Word) : FHalf :=
  { tag := (groupAt s die x.group).tag, key := x.key, seq := (x.seq + 1) % 2 ^ 32, round := x.round, fid := (s.die die).fer.fid,
    bind := x.bind, mass, v, poison := x.vpas.any (fun p => s.linePoison (p / 64)) }

/-- A block that returns its held half (R347). -/
def returns (x : FBlock) (h : HeldHalf) (late : Bool) : FBlock :=
  { x with
    held := none, pending := x.pending ++ [h.half], pend := x.pend + h.half.mass
    unc := if late then (x.unc + h.half.mass) % 2 ^ 64 else x.unc
    returned := if late then tset x.returned h.half.seq (h.half.mass, h.entry) else x.returned }

/-- What travels to a ferry of this package. -/
def towards (die : Nat) (m : FMsg) (s : State) : State :=
  s.updDie die (fun d => { d with fer := { d.fer with transit := d.fer.transit ++ [m] } })

/-- The n-th item on its way to a ferry has arrived. -/
def arrived (die n : Nat) (s : State) : State :=
  s.updDie die (fun d => { d with fer := { d.fer with transit := d.fer.transit.eraseIdx n } })

/-- CRC-32C (R386) bit by bit, each byte's lowest bit first, continued over bytes; and whole, from all ones and inverted at the end. -/
def crcRun (c : Nat) (bs : List Byte) : Nat :=
  let step (c : Nat) (bit : Bool) : Nat := if (c % 2 == 1) != bit then c / 2 ^^^ 0x82F63B78 else c / 2
  bs.foldl (fun c b => (List.range 8).foldl (fun c i => step c (b.getLsbD i)) c) c
def crcOf (bs : List Byte) : Word := BitVec.ofNat 32 (2 ^ 32 - 1 - crcRun (2 ^ 32 - 1) bs)

/-- Mass of a block, held and pending mass included (R349). -/
def massOf (x : FBlock) : Nat := x.mass + x.pend + (x.held.map (fun h => h.half.mass)).getD 0
/-- PEND counts the pending halves, and no sum leaves 64 bits (R338). -/
def massSound (x : FBlock) : Prop := x.pend = (x.pending.map (·.mass)).sum ∧ massOf x < 2 ^ 64

end Sys2Proof.Claims

section
open Sys2Proof Sys2Proof.Machine Sys2Proof.Claims

/-- R338, R350, R352, R353, R355, R356, R361 to R367: a ferry command at its turn, its block bound. PSBIND takes the lowest unbound handle, its
arrays writable and not owned, in the address space that its group has or takes from it (log 30); PSREAD writes the estimates; PSADD adds the weighted deltas; PSMASS, PSHELD and PSDIS give their values; PSQUI
sets or clears QUI; PSLEAVE marks the block or fails at once; PSSTEP runs a round of a stepped group. A command that finds its block unbound
ends with BLOCK_UNBOUND, PSADD and a block's PSSTEP on a quiesced one with BLOCK_QUIESCED. -/
def Sys2Proof.Claims.FerryCommands : Prop :=
  (∀ (s : State) (k : Nat) (q : Cmd) (rest : List Cmd), ferTurn s k q rest →
    let die := coreDie k
    let h := q.a.toNat % 4096
    let words (a n : Nat) : List Nat := (List.range n).map (fun i => (a + 4 * i) % 2 ^ 32)
    let done (s' : State) : Prop := exec (.engineComplete k .PS) s = .next s'
    let fails (cause : Nat) (blk : Nat) : Prop := (∀ x ∈ (s.core k).acc, x.op ≠ .engine .PS) → done (ferFaults k q rest cause 0 blk s)
    let own (n : Nat) (i : Nat) (x : Access) : Prop := (s.core k).acc[i]? = some x ∧ x.op = .engine .PS ∧ x.st = .issued ∧ x.dead = false ∧
      x.nregs = n ∧ owesNothing (s.core k) i ∧ ∀ j y, j < i → (s.core k).acc[j]? = some y → y.op ≠ .engine .PS
    let pair (i : Nat) (d : XReg) (m : Nat) (c : Core) : Core := { c with
      acc := c.acc.eraseIdx i
      regs := (((regsFrom d 2).zip [BitVec.ofNat 32 m, BitVec.ofNat 32 (m / 2 ^ 32)])).foldl (fun r p => r.put p.1 p.2 false) c.regs }
    (blockAt s die h = none → ((∃ a b, q.instr = .psread a b ∨ q.instr = .psadd a b) ∨ ∃ d a, q.instr = .psmass d a ∨ q.instr = .psheld d a ∨
      q.instr = .psdis (.x d) a) → fails 0x51 h) ∧
    (∀ x, blockAt s die h = some x →
      (∀ a b pas, q.instr = .psread a b → q.done = none → x.copying = false → q.wr = some pas → (∀ p ∈ x.vpas, s.linePoison (p / 64) = false) →
        let est := x.values.map (fun v => if x.mass = 0 then (0x7FE00000 : Word) else fpDivNat v x.mass)
        let ws := ((pas.zip est).map (fun p => (List.range 4).map (fun i => (p.1 + i, (bytesLE 4 p.2.toNat).getD i 0, false)))).flatten
        (∀ w ∈ ws, s.blockByte w.1 = none) →
        done (if x.mass = 0 then (ferEnds k q rest id (engineStore (.die die) q.launch ws s)).updCore k (pushed 4 (eventWord 8 h 0))
          else ferEnds k q rest id (engineStore (.die die) q.launch ws s))) ∧
      (∀ a b pas s1, q.instr = .psadd a b → q.rd = none → q.done = none → x.qui = false →
        engineRun s .PS k q.asid .load ((List.range (4 * x.n)).map (fun i => (q.b.toNat + i) % 2 ^ 32)) = (.inl pas, s1) →
        (∀ a ∈ pas, s1.ms.ownedByOther .PS k q.seq (a / 64) = false ∧ s1.lineLost (a / 64) = false ∧ s1.blockByte a = none) →
        exec (.engineRead k .PS) s = .next (s1.updCore k (ferNow { q with rd := some (engineBytes s1 (.die die) pas) } rest))) ∧
      (∀ a b bs, q.instr = .psadd a b → q.done = none → q.rd = some bs →
        (x.qui = true → fails 0x52 h) ∧
        (x.qui = false → (∀ b ∈ bs, b.2 = false) →
          let d (i : Nat) : Word := BitVec.ofNat 32 (number (((bs.drop (4 * i)).take 4).map (·.1)))
          (x.mass = 0 → done (ferEnds k q rest id s)) ∧
          (x.mass ≠ 0 → done (ferEnds k q rest id (setBlockAt die h { x with values := ((x.values.zip ((List.range x.n).map d)).map (fun p =>
            roundFP32 .rne (sumFV .rne [f32 p.1, (f32 p.2).mul (.fin false x.mass 0)]))) } s))))) ∧
      (∀ d a i y, q.instr = .psmass d a → q.done = none → own 2 i y → y.d = .x d → d.val ≠ 0 →
        done ((ferEnds k q rest id s).updCore k (pair i d x.mass))) ∧
      (∀ d a i y, q.instr = .psheld d a → q.done = none → own 2 i y → y.d = .x d → d.val ≠ 0 →
        done ((ferEnds k q rest id s).updCore k (pair i d ((x.held.map (fun h => h.half.mass)).getD 0)))) ∧
      (∀ d a i y, q.instr = .psdis d a → q.done = none → own 1 i y → y.d = d →
        done ((ferEnds k q rest id (setBlockAt die h { x with dis := 0 } s)).updCore k (produced s.ck i y x.dis false))) ∧
      (∀ a b, q.instr = .psqui a b → q.done = none → q.b.getLsbD 0 = false → x.copying = false →
        done (ferEnds k q rest id (setBlockAt die h { x with qui := false } s))) ∧
      (∀ a b, q.instr = .psqui a b → q.done = none → q.b.getLsbD 0 = true →
        (x.qui = true → exec (.engineRead k .PS) s = .next (s.updCore k (ferNow { q with started := true, done := some (eventWord 9 h 0) } rest))) ∧
        (x.qui = false → x.held ≠ none → exec (.engineRead k .PS) s =
          .next ((setBlockAt die h { x with quiWait := true } s).updCore k (ferNow { q with started := true } rest))) ∧
        (∀ hs, x.qui = false → x.held = none → inOrder x hs → (∀ j, j ≠ k → (s.core j).fer.queue = []) →
          exec (.engineRead k .PS) s = .next ((setBlockAt die h { mergedBlock x hs with qui := true, quiWait := false, senders := [] }
            (mergedState die h x hs s)).updCore k (ferNow { q with started := true, done := some (eventWord 9 h 0) } rest)))) ∧
      (∀ a b, q.instr = .psleave a b → q.done = none → q.started = false → x.copying = false → x.leave = none →
        let e := fld q.b 0 6
        let g := groupAt s die x.group
        let ok := e < g.ncount ∧ fld (tget g.nb 0 e) 24 2 = 1
        (ok → exec (.engineRead k .PS) s = .next ((setBlockAt die h { x with leave := some e } s).updCore k
          (ferNow { q with started := true, data := [BitVec.ofNat 32 x.group] } rest))) ∧
        (¬ ok → exec (.engineRead k .PS) s =
          .next (s.updCore k (ferNow { q with
            started := true, data := [BitVec.ofNat 32 x.group], done := some (eventWord 7 h e) } rest)))) ∧
      (∀ a, q.instr = .psstep a → q.a.getLsbD 31 = true →
        let g := groupAt s die x.group
        (g.en = false ∨ g.mode = true ∨ s.ck < g.due → done (ferEnds k q rest id s)) ∧
        (g.en = true → g.mode = false → g.due ≤ s.ck → x.qui = true → fails 0x52 h) ∧
        (g.en = true → g.mode = false → g.due ≤ s.ck → x.qui = false → done (tallied die 0x401 x.group 1 (ferEnds k q rest id (roundBlock s die h)))))) ∧
    (∀ a, q.instr = .psstep a → q.a.getLsbD 31 = false →
      let n := fld q.a 0 8
      let g := groupAt s die n
      (g.en = false ∨ g.mode = true ∨ s.ck < g.due → done (ferEnds k q rest id s)) ∧
      (g.en = true → g.mode = false → g.due ≤ s.ck → done (ferEnds k q rest id (roundGroup s die n)))) ∧
    (∀ a b w, (q.instr = .psqui a b ∨ q.instr = .psleave a b) → q.done = some w → done ((ferEnds k q rest id s).updCore k (pushed 4 w))) ∧
    (∀ d a w i y, q.instr = .psbind d a → q.done = some w → own 1 i y → done ((ferEnds k q rest id s).updCore k (produced s.ck i y w false))) ∧
    (∀ a b w, q.instr = .psjoin a b → q.done = some w → done (ferEnds k q rest id s)) ∧
    (∀ (join : Bool) (h : Nat), q.done = none → ((∃ d a, q.instr = .psbind d a ∧ join = false) ∨ (∃ a b, q.instr = .psjoin a b ∧ join = true)) →
      (if join then h = q.b.toNat % 4096 else h < 4096 ∧ blockAt s die h = none ∧ ∀ j, j < h → blockAt s die j ≠ none) →
      let x (n : Nat) : Nat := (q.data.getD n 0).toNat
      let g := x 0 % 2 ^ 8
      let key := x 0 / 2 ^ 16
      let refused := (∃ b ∈ (s.die die).fer.blocks, b.2.group = g ∧ b.2.key = key) ∨
        (∃ b ∈ (s.die die).fer.blocks, b.2.group ≠ g ∧ (groupAt s die b.2.group).tag = (groupAt s die g).tag) ∨
        (join = true ∧ blockAt s die h ≠ none)
      let now (w : Word) (s : State) : Prop := exec (.engineRead k .PS) s = .next (s.updCore k (ferNow { q with done := some w } rest))
      (refused → now 0xFFFFFFFE s) ∧
      (∀ vpas hpas s1 s2, ¬ refused → 4 * x 1 ≤ (x 3 + 2 ^ 32 - x 2) % 2 ^ 32 → 4 * x 1 ≤ (x 2 + 2 ^ 32 - x 3) % 2 ^ 32 →
        let asid := if ∀ b ∈ (s.die die).fer.blocks, b.2.group ≠ g then q.asid else (groupAt s die g).asid
        translateRun s die asid .store (words (x 2) (x 1)) [] = (.inl vpas, s1) →
        translateRun s1 die asid .store (words (x 3) (x 1)) [] = (.inl hpas, s2) →
        (∀ p ∈ vpas ++ hpas, s2.ms.owned (p / 64) = false ∧ s2.linePoison (p / 64) = false) →
        let mass := x 4 + x 5 * 2 ^ 32
        let raw := vpas.map (fun p => BitVec.ofNat 32 (number ((List.range 4).map (fun i => s2.ms.byteAt (.die die) (p + i)))))
        let blk : FBlock := {
          n := x 1, vaddr := q.data.getD 2 0, haddr := q.data.getD 3 0, asid, vpas, hpas, mass, key, group := g,
          boff := x 0 / 2 ^ 8 % 2 ^ 6, bind := (s.die die).fer.binds, join
          values := if join then raw.map (fun _ => (0 : Word)) else if x 0 / 2 ^ 14 % 2 = 1 then raw
            else raw.map (fun v => roundFP32 .rne ((f32 v).mul (.fin false mass 0))) }
        exec (.engineRead k .PS) s = .next (((setGroupAt die g { groupAt s2 die g with asid } (setBlockAt die h blk s2)).updDie die
          (fun d => { d with fer := { d.fer with binds := d.fer.binds + 1 } })).updCore k (ferNow { q with done := some (BitVec.ofNat 32 h) } rest)))))

/-- R344, R345, R347, R350: a round of a bound, unquiesced block. Its pending halves merge in their order; then, where the group has neighbours,
no half is held, the block is not leaving or quiescing, its mass is 2 or more and its entry is live, half of its mass and values leaves for
the entry's rank and is held until FTMO × 256 ck; its round count rises. With no route the half returns at once. FERRY_ROUND, a free-running
group's period passed and its die not lost, rounds its blocks in ascending order; otherwise nothing happens. -/
def Sys2Proof.Claims.FerryRounds : Prop :=
  (∀ (s : State) (die b : Nat) (x : FBlock) (hs : List FHalf), blockAt s die b = some x → x.qui = false → x.leaveSent = false → inOrder x hs →
    let s1 := mergedState die b x hs s
    let y := mergedBlock x hs
    let g := groupAt s1 die y.group
    let e := (y.round + y.boff) % g.ncount
    let w := tget g.nb 0 e
    let rank := fld w 0 24
    let round := (y.round + 1) % 2 ^ 32
    let splits := g.ncount ≠ 0 ∧ y.held = none ∧ y.leave = none ∧ y.quiWait = false ∧ 2 ≤ y.mass ∧ fld w 24 2 = 1
    (¬ splits → roundBlock s die b = setBlockAt die b { y with round } s1) ∧
    (splits →
      let hm := y.mass / 2
      let v := y.values.map (fun a => fpMul .rne a 0x3F000000)
      let half := sentHalf s1 die y hm v
      let z : FBlock := { y with mass := y.mass - hm, values := v, heldVals := v, seq := half.seq, round }
      let out : HeldHalf := ⟨e, rank, half, s.ck + (s.die die).fer.ftmo * 256⟩
      let s2 := setBlockAt die b { z with held := some out } (setBlockAt die b z s1)
      let f := (s.die die).fer
      (∀ s3, rankEntry s2 die g.ownPart rank = (none, s3) → s3.dies = s2.dies →
        roundBlock s die b = tallied die 0x404 y.group 1 (setBlockAt die b (returns { z with held := some out } out false) s3)) ∧
      (∀ s3 m, rankEntry s2 die g.ownPart rank = (some m, s3) → entryPkg m = s3.pkg → ¬ (fld f.finj 30 2 = 2 ∧ fld f.finj 0 12 = b) →
        roundBlock s die b = towards (coreDie (entryCore m)) (.half { half with src := some die }) (tallied die 0x402 y.group 1 s3)) ∧
      (∀ s3 m, rankEntry s2 die g.ownPart rank = (some m, s3) → s3.dies = s2.dies → fld f.finj 30 2 = 2 ∧ fld f.finj 0 12 = b →
        roundBlock s die b = (tallied die 0x402 y.group 1 s3).updDie die (fun d => { d with fer := { d.fer with
          finj := BitVec.ofNat 32 (d.fer.finj.toNat % 2 ^ 31) } })))) ∧
  (∀ (s : State) (die b : Nat) (x : FBlock), blockAt s die b = some x → x.qui = true → roundBlock s die b = s) ∧
  (∀ (s : State) (die g : Nat),
    let x := groupAt s die g
    let now := x.en = true ∧ x.mode = true ∧ x.due ≤ s.ck ∧ (s.die die).lost = false
    let hs := ((s.die die).fer.blocks.filter (fun b => b.2.group == g)).map (·.1)
    let s1 := hs.foldl (fun s b => roundBlock s die b) s
    (¬ now → exec (.ferryRound die g) s = .next s) ∧
    (now → exec (.ferryRound die g) s = .next (tallied die 0x401 g 1 (setGroupAt die g
      { groupAt s1 die g with due := s.ck + (groupAt s1 die g).period * 256 } s1))))

/-- R342, R346 to R348, R351, R354, R367: the halves' fates. FERRY_HALF_ARRIVAL answers by the first case of R346 that holds, the answer going
back to its ferry of this package. FERRY_ACK_ARRIVAL ends the hold, or moves a late half's mass from FBUNC to FBGAIN; FERRY_REFUSAL_ARRIVAL
returns the half, or clears FBUNC; FERRY_HALF_TIMEOUT returns it at its deadline, FBUNC rising. FERRY_HANDOVER merges and sends the whole
share of a leaving block, or fails where its entry is dead. Hand-overs not yet sent aside, the block is not quiescing; the die is not lost. -/
def Sys2Proof.Claims.FerryHalves : Prop :=
  (∀ (s : State) (die n d : Nat) (h : FHalf), (s.die die).fer.transit[n]? = some (.half h) → h.src = some d →
    (s.die die).lost = false →
    let s1 := arrived die n s
    let answers (ack : Bool) (s : State) : State := towards d (.reply h.bind h.seq ack) s
    let now (s' : State) : Prop := exec (.ferryHalfArrival die n) s = .next s'
    let names (b : Nat × FBlock) : Bool := b.2.key == h.key && (groupAt s die b.2.group).tag == h.tag
    ((∀ b ∈ (s.die die).fer.blocks, names b = false) → now (answers false s1)) ∧
    (∀ b x, (s.die die).fer.blocks.find? names = some (b, x) →
      let last := tfind x.senders h.fid.toNat
      let older (l : Nat) : Prop := h.seq ≠ l ∧ ¬ ((h.seq + 2 ^ 32 - l) % 2 ^ 32 ≠ 0 ∧ (h.seq + 2 ^ 32 - l) % 2 ^ 32 < 2 ^ 31)
      let taken := setBlockAt die b { x with
        pending := x.pending ++ [h], pend := x.pend + h.mass, senders := tset x.senders h.fid.toNat h.seq } s1
      let fi := (s.die die).fer.finj
      let closed := x.qui = true ∨ x.leaveSent = true ∨ h.poison = true
      (closed → now (answers false s1)) ∧
      (¬ closed → last = some h.seq → now (answers true s1)) ∧
      (¬ closed → (∃ l, last = some l ∧ older l) ∨ (last = none ∧ 64 ≤ x.senders.length) → now (answers false s1)) ∧
      (¬ closed → (∀ l, last = some l → l ≠ h.seq ∧ ¬ older l) → (last = none → x.senders.length < 64) →
        (¬ (fld fi 30 2 = 3 ∧ fld fi 0 12 = b) → now (answers true taken)) ∧
        (fld fi 30 2 = 3 ∧ fld fi 0 12 = b → now (taken.updDie die (fun d => { d with fer := { d.fer with
          finj := BitVec.ofNat 32 (d.fer.finj.toNat % 2 ^ 31) } })))))) ∧
  (∀ (s : State) (die n bind seq b : Nat) (x : FBlock) (ack : Bool), (s.die die).fer.transit[n]? = some (.reply bind seq ack) →
    (s.die die).fer.blocks.find? (fun b => b.2.bind == bind) = some (b, x) → blockAt s die b = some x → x.quiWait = false →
    (s.die die).lost = false →
    let s1 := arrived die n s
    let e := if ack then Instr.ferryAckArrival die n else Instr.ferryRefusalArrival die n
    (∀ h, x.held = some h → h.half.seq = seq → x.leaveSent = false →
      exec e s = .next (if ack then setBlockAt die b { x with held := none } s1
        else tallied die 0x404 x.group 1 (setBlockAt die b (returns x h false) s1))) ∧
    (∀ hm ent, (∀ h, x.held = some h → h.half.seq ≠ seq) → tfind x.returned seq = some (hm, ent) → exec e s = .next
      (posted die x.group (eventWord (if ack then 3 else 4) b ent) (setBlockAt die b { x with
        returned := terase x.returned seq, unc := (x.unc + 2 ^ 64 - hm) % 2 ^ 64
        gain := if ack then (x.gain + hm) % 2 ^ 64 else x.gain } s1))) ∧
    (∀ h, ack = true → x.held = some h → h.half.seq = seq → x.leaveSent = true → x.leaveRecalled = true →
      ∃ t, exec e s = .next t ∧ blockAt t die b = none ∧ (∀ j, j ≠ b → blockAt t die j = blockAt s die j) ∧
        (groupAt t die x.group).evq = (if (groupAt s die x.group).evq.length < 64 then (groupAt s die x.group).evq ++ [eventWord 6 b h.entry]
          else (groupAt s die x.group).evq) ∧ t.cores = s.cores ∧
        let ws (pas : List Nat) (vs : List Word) : List (Nat × Byte) :=
          ((pas.zip vs).map (fun p => (List.range 4).map (fun i => (p.1 + i, (bytesLE 4 p.2.toNat).getD i 0)))).flatten
        t.ms = s.ms.put (ws x.vpas x.values ++ ws x.hpas x.heldVals) .P (.die die) none)) ∧
  (∀ (s : State) (die b : Nat) (x : FBlock) (h : HeldHalf), blockAt s die b = some x → x.held = some h → x.quiWait = false → x.leaveSent = false →
    (s.die die).lost = false →
    (s.ck < h.deadline → exec (.ferryHalfTimeout die b) s = .next s) ∧
    (h.deadline ≤ s.ck → exec (.ferryHalfTimeout die b) s = .next
      (posted die x.group (eventWord 1 b h.entry) (tallied die 0x403 x.group 1 (setBlockAt die b (returns x h true) s))))) ∧
  (∀ (s : State) (die b e : Nat) (x : FBlock) (hs : List FHalf), blockAt s die b = some x → x.leave = some e → x.leaveSent = false →
    x.held = none → x.quiWait = false → inOrder x hs → (s.die die).lost = false →
    let g := groupAt s die x.group
    let w := tget g.nb 0 e
    let ok := e < g.ncount ∧ fld w 24 2 = 1
    (¬ ok → x.leaveRecalled = true → exec (.ferryHandover die b) s = .next (posted die x.group (eventWord 7 b e)
      (setBlockAt die b { x with leave := none, leaveRecalled := false } s))) ∧
    (∀ s3 m, ok →
      let s1 := mergedState die b x hs s
      let y := mergedBlock x hs
      let half := sentHalf s1 die y y.mass y.values
      let z : FBlock := { y with mass := 0, values := y.values.map (fun _ => 0), seq := half.seq, leaveSent := true }
      rankEntry (setBlockAt die b { z with held := some ⟨e, fld w 0 24, half, s.ck + (s.die die).fer.ftmo * 256⟩ } (setBlockAt die b z s1)) die
        (groupAt s1 die y.group).ownPart (fld w 0 24) = (some m, s3) → entryPkg m = s3.pkg →
      ¬ (fld (s.die die).fer.finj 30 2 = 2 ∧ fld (s.die die).fer.finj 0 12 = b) →
      exec (.ferryHandover die b) s = .next
        (towards (coreDie (entryCore m)) (.half { half with src := some die }) (tallied die 0x402 y.group 1 s3))))

/-- R349: no round, timeout or refusal changes the mass of a block, held and pending mass included; an accepted half adds its mass. -/
def Sys2Proof.Claims.FerryMass : Prop :=
  (∀ (s t : State) (die g b : Nat) (x : FBlock), (∀ n y, blockAt s die n = some y → massSound y) →
    exec (.ferryRound die g) s = .next t → blockAt s die b = some x →
    ∃ y, blockAt t die b = some y ∧ massOf y = massOf x ∧ massSound y) ∧
  (∀ (s t : State) (die b : Nat) (x : FBlock), blockAt s die b = some x → massSound x → x.leaveSent = false →
    exec (.ferryHalfTimeout die b) s = .next t → ∃ y, blockAt t die b = some y ∧ massOf y = massOf x ∧ massSound y) ∧
  (∀ (s t : State) (die n b : Nat) (x : FBlock) (bind seq : Nat), rising (s.die die).fer.blocks → blockAt s die b = some x → massSound x →
    x.leaveSent = false → (s.die die).fer.transit[n]? = some (.reply bind seq false) → exec (.ferryRefusalArrival die n) s = .next t →
    ∃ y, blockAt t die b = some y ∧ massOf y = massOf x ∧ massSound y) ∧
  (∀ (s t : State) (die n b : Nat) (x : FBlock) (h : FHalf), rising (s.die die).fer.blocks → blockAt s die b = some x → massSound x →
    massOf x + h.mass < 2 ^ 64 → (s.die die).fer.transit[n]? = some (.half h) → exec (.ferryHalfArrival die n) s = .next t →
    ∃ y, blockAt t die b = some y ∧ massSound y ∧ (massOf y = massOf x ∨ massOf y = massOf x + h.mass))

/-- R339, R341, R343, R348, R354: FGEVQ_READ pops the selected group's oldest event, for a core of its partition. Writes of FNB, FGTAG, FGOWN
and FERRYID take effect or are refused as their tables say; DEAD = 1 in FNB marks every entry of the partition's groups that names the rank
and returns the half held towards it. -/
def Sys2Proof.Claims.FerryRegisters : Prop :=
  ∀ (s : State) (k : Nat) (v : Word),
    let die := coreDie k
    let n := (s.core k).fer.gsel
    let g := groupAt s die n
    let traps (e : Instr) (j csr cause : Nat) : Prop :=
      exec e s = .next (takeTrap s j cause (csrDetail (s.core j).standing csr cause 0) 0 (s.core j).pc)
    let bound := ∃ b ∈ (s.die die).fer.blocks, b.2.group = n
    let clash := ∃ b ∈ (s.die die).fer.blocks, b.2.group ≠ n ∧ (groupAt s die b.2.group).tag = v
    let rank := fld v 0 24
    (¬ mayUseGroup s k n → exec (.fgevqRead k) s = .next s ∧ traps (.fnbWrite k v) k 0x404 0x50 ∧ traps (.fgtagWrite k v) k 0x402 0x50) ∧
    (mayUseGroup s k n →
      (g.evq = [] → exec (.fgevqRead k) s = .next s) ∧
      (∀ w r, g.evq = w :: r → exec (.fgevqRead k) s = .next (setGroupAt die n { g with evq := r } s)) ∧
      (bound → clash → traps (.fgtagWrite k v) k 0x402 0x02) ∧
      (¬ (bound ∧ clash) → exec (.fgtagWrite k v) s = .next (setGroupAt die n { g with tag := v } s)) ∧
      (fld v 24 1 = 0 → exec (.fnbWrite k v) s =
        .next (setGroupAt die n { g with nb := tset g.nb (s.core k).fer.nbsel (BitVec.ofNat 32 (v.toNat % 2 ^ 26)) } s)) ∧
      (∀ s1, fld v 24 1 = 1 → rankEntry s die g.ownPart rank = (none, s1) → traps (.fnbWrite k v) k 0x404 0x53) ∧
      (∀ m s1, fld v 24 2 = 1 → rankEntry s die g.ownPart rank = (some m, s1) → exec (.fnbWrite k v) s =
        .next (setGroupAt die n { groupAt s1 die n with
          nb := tset (groupAt s1 die n).nb (s.core k).fer.nbsel (BitVec.ofNat 32 (v.toNat % 2 ^ 26)) } s1)) ∧
      (∀ m s1, fld v 24 2 = 3 → rankEntry s die g.ownPart rank = (some m, s1) →
        (∀ b ∈ (s.die die).fer.blocks, ∀ h, b.2.held = some h → h.rank ≠ rank) →
        ∃ t, exec (.fnbWrite k v) s = .next t ∧ (t.die die).fer.blocks = (s.die die).fer.blocks ∧
          (∀ j e, tget (groupAt t die j).nb 0 e =
            let w := if j = n ∧ e = (s.core k).fer.nbsel then BitVec.ofNat 32 (v.toNat % 2 ^ 26) else tget (groupAt s die j).nb 0 e
            if (groupAt s die j).ownValid = true ∧ (groupAt s die j).ownPart = g.ownPart ∧ fld w 24 1 = 1 ∧ fld w 0 24 = rank then
              w ||| 0x02000000 else w))) ∧
    (die < 8 →
      let o := (s.die die).fer.ownsel
      let none48 := v.getLsbD 31 = true ∧ 48 ≤ fld v 16 6
      (none48 → traps (.fgownWrite die v) (1024 + die) 0xC51 0x02) ∧
      (¬ none48 → (∃ b ∈ (s.die die).fer.blocks, b.2.group = o) → exec (.fgownWrite die v) s = .next s) ∧
      (¬ none48 → (∀ b ∈ (s.die die).fer.blocks, b.2.group ≠ o) → exec (.fgownWrite die v) s =
        .next (setGroupAt die o { ownValid := v.getLsbD 31, ownPart := fld v 16 6 } s)) ∧
      ((∃ x ∈ (s.die die).fer.groups, x.2.en = true) → traps (.ferryidWrite die v) (1024 + die) 0xC52 0x06) ∧
      ((∀ x ∈ (s.die die).fer.groups, x.2.en = false) → exec (.ferryidWrite die v) s =
        .next (s.updDie die (fun d => { d with fer := { d.fer with fid := v } }))))

/-- R386, R414: FCKCTL with GO starts the copy of a bound, quiesced block that no copy holds, or sets STATUS refused and a REASON; while a copy is
busy it sets REASON 4 alone. FERRY_CHECKPOINT_COPY_DONE writes the block's values at P at FCKADDR, sets FCKCRC to the CRC-32C of what stands
there, and STATUS to done; a destination fault writes nothing and refuses with REASON 3. -/
def Sys2Proof.Claims.FerryCopies : Prop :=
  ∀ (s : State) (k : Nat) (v : Word),
    let die := coreDie k
    let sup := (s.core k).sup
    let b := fld v 0 12
    let blk := blockAt s die b
    let sets (status reason : Nat) (c : Core) : Core := { c with sup := { c.sup with fckblock := b, fckStatus := status, fckReason := reason } }
    ((∃ x, blk = some x ∧ ¬ mayUseGroup s k x.group) → exec (.fckctlGo k v) s =
      .next (takeTrap s k 0x50 (csrDetail (s.core k).standing 0x8F1 0x50 0) 0 (s.core k).pc)) ∧
    ((∀ x, blk = some x → mayUseGroup s k x.group) → v.getLsbD 31 = true →
      (sup.fckStatus = 1 → exec (.fckctlGo k v) s = .next (s.updCore k (fun c => { c with sup := { c.sup with fckReason := 4 } }))) ∧
      (sup.fckStatus ≠ 1 → blk = none → exec (.fckctlGo k v) s = .next (s.updCore k (sets 3 2))) ∧
      (∀ x, sup.fckStatus ≠ 1 → blk = some x → x.qui = false → exec (.fckctlGo k v) s = .next (s.updCore k (sets 3 1))) ∧
      (∀ x, sup.fckStatus ≠ 1 → blk = some x → x.qui = true → x.copying = true → exec (.fckctlGo k v) s = .next (s.updCore k (sets 3 4))) ∧
      (∀ x, sup.fckStatus ≠ 1 → blk = some x → x.qui = true → x.copying = false → exec (.fckctlGo k v) s =
        .next ((setBlockAt die b { x with copying := true } s).updCore k (sets 1 0)))) ∧
    (sup.fckStatus ≠ 1 → exec (.ferryCheckpointCopyDone k) s = .next s) ∧
    (∀ x, sup.fckStatus = 1 → blockAt s die sup.fckblock = some x →
      let va := (List.range x.n).map (fun i => (sup.fckaddr.toNat + 4 * i) % 2 ^ 32)
      let ends (status reason : Nat) (crc : Word) (s : State) : State :=
        (setBlockAt die sup.fckblock { x with copying := false } s).updCore k (fun c =>
          { c with sup := { c.sup with fckStatus := status, fckReason := reason, fckcrc := crc } })
      (∀ e s1, translateRun s die x.asid .store va [] = (.inr e, s1) →
        exec (.ferryCheckpointCopyDone k) s = .next (ends 3 3 sup.fckcrc s1)) ∧
      (∀ pas s1, translateRun s die x.asid .store va [] = (.inl pas, s1) → (∀ p ∈ pas, s1.ms.owned (p / 64) = false) →
        (∀ p ∈ x.vpas, s1.linePoison (p / 64) = false) →
        let ws := ((pas.zip x.values).map (fun p => (List.range 4).map (fun i => (p.1 + i, (bytesLE 4 p.2.toNat).getD i 0, false)))).flatten
        (∀ w ∈ ws, s1.blockByte w.1 = none) →
        let s2 := engineStore (.die die) none ws s1
        exec (.ferryCheckpointCopyDone k) s = .next (ends 2 0
          (crcOf ((pas.map (fun p => (List.range 4).map (fun i => s2.ms.byteAt (.die die) (p + i)))).flatten)) s2)))

end

/-! Stash, copies, tiers. -/
namespace Sys2Proof.Claims
open Sys2Proof Sys2Proof.Machine

/-- A virtual address lies in the core's stash window (R372). -/
abbrev windowHas (c : Core) (va : Nat) : Prop := c.stbase.toNat ≤ va ∧ va < c.stbase.toNat + (1536 - 256 - 128 * c.cache) * 1024

/-- A line lies in [A, A + length) (R395): B[20:0] rounded up to whole lines, 0 for the whole window. -/
abbrev rangeHas (a b : Word) (line : Nat) : Prop :=
  fld b 0 21 = 0 ∨ (a.toNat ≤ line * 64 ∧ line * 64 < a.toNat + (fld b 0 21 + 63) / 64 * 64)

/-- The copy engine's command q stands at core k's turn: no cause waits and no page is awaited. -/
def cpyTurn (s : State) (k : Nat) (q : Cmd) (rest : List Cmd) : Prop :=
  let c := (s.core k).cpy
  c.queue = q :: rest ∧ c.waiting = none ∧ c.rearmed = none ∧ q.dead = false

def cpyNow (q : Cmd) (rest : List Cmd) (c : Core) : Core := { c with cpy := { c.cpy with queue := q :: rest } }

/-- The word of R392. -/
def copyWord (kind status : Nat) (ver : Bool) (seq : Nat) : Word :=
  BitVec.ofNat 32 (kind * 2 ^ 28 + status * 2 ^ 24 + (if ver then 2 ^ 16 else 0) + seq)

/-- A copy's bytes are counted for its cluster (R318). -/
def copied (k n : Nat) (s : State) : State := if n = 0 then s else tallied (coreDie k) 0x504 (k / 8) n s

/-- The command has left the copy engine, its word in q3. -/
def copyEnded (rest : List Cmd) (w : Word) (c : Core) : Core :=
  pushed 3 w { c with
    cpy := { c.cpy with queue := rest, row := 0, c1 := 0xFFFFFFFF, c2 := 0xFFFFFFFF, pend := [] }
    cnt := { c.cnt with CP := c.cnt.CP - 1 } }

/-- A cause that completes a copy-engine command with STATUS 3 (R386), nothing of it pending. -/
def copyFaults (k : Nat) (q : Cmd) (rest : List Cmd) (kind cause : Nat) (addr : Word) (s : State) : State :=
  (s.updMs (disowned .CP k (q :: rest))).updCore k (fun c => pushed 3 (copyWord kind 3 false q.seq) { c with
    cpy := { c.cpy with
      queue := [], flt := { fault := true, cause, f1 := q.seq, f2 := 0, addr }, waiting := some ⟨cause, q.a, addr⟩
      row := 0, c1 := 0xFFFFFFFF, c2 := 0xFFFFFFFF, pend := [] }
    cnt := { c.cnt with CP := c.cnt.CP - 1 - rest.length } })

/-- Source address of row r (R394). -/
def rowFrom (data : List Word) (r : Nat) : List Nat :=
  vaRange (((data.getD 0 0).toNat + r * (data.getD 3 0).toNat) % 2 ^ 32) (fld (data.getD 2 0) 0 16)

/-- The eight bytes of a page-table entry as a walk reads them, at H for a table in host memory (R375, R398), and the leaf of a page, its
level-1 entry valid (R375, R376). -/
def entry8 (s : State) (a : Nat) : Nat :=
  number ((List.range 8).map (fun i => s.ms.byteAt (if s.ms.hostFrame (a / 65536) then .host else .walker) (a + i)))
def level1 (s : State) (asid page : Nat) : Nat := entry8 s ((tget s.ms.asidPt 0 asid).toNat * 65536 + 8 * (page / 256))
def leafPlace (s : State) (asid page : Nat) : Nat := level1 s asid page / 2 ^ 11 * 2 ^ 11 + 8 * (page % 256)
def leafIs (s : State) (asid page l : Nat) : Prop :=
  tget s.ms.asidPt 0 asid ≠ 0 ∧ level1 s asid page % 2 = 1 ∧ level1 s asid page / 2 % 2 ^ 10 = 0 ∧ level1 s asid page / 2 ^ 48 = 0 ∧
  entry8 s (leafPlace s asid page) = l

/-- Frames of a move's source; the address that a byte of them has at the target. -/
def setMoveAt (n : Nat) (m : TierMove) (s : State) : State := s.updMs (fun ms => { ms with moves := ms.moves.set n m })
abbrev inSource (m : TierMove) (a : Nat) : Prop := m.frame ≤ a / 65536 ∧ a / 65536 ≤ m.frame + m.run
abbrev inTarget (m : TierMove) (a : Nat) : Prop := m.target ≤ a / 65536 ∧ a / 65536 ≤ m.target + m.run
def moved (m : TierMove) (a : Nat) : Nat := a - m.frame * 65536 + m.target * 65536

/-- A move is started, at the end of the moves under way (R381); a run that it takes from the host stands in host memory. -/
def moveAdded (m : TierMove) (ms : MemSys) : MemSys :=
  let ms := if m.src = 2 then ms.setHost m.frame m.run true else ms
  { ms with moves := ms.moves ++ [m] }

/-- The leaf i entries before a move's own, in its level-2 table, begins a run in the same tier that takes in the move's (R378). -/
def runBegins (ms : MemSys) (m : TierMove) (i : Nat) : Prop :=
  let l := ms.walk8 (m.leaf - 8 * i)
  l % 2 = 1 ∧ l / 2 ^ 6 % 4 = m.src ∧ i + m.run ≤ l / 2 ^ 8 % 2 ^ 8 ∧
    (if m.src = 3 then 2 ^ 32 + l / 2 ^ 16 % 2 ^ 32 else l / 2 ^ 16 % 2 ^ 32) + i = m.frame

end Sys2Proof.Claims

section
open Sys2Proof Sys2Proof.Machine Sys2Proof.Claims

/-- R190, R372, R395: STFL leaves no line of its range dirty in the window, STIV also drops the range's window lines, STFIL brings in every
window line of its range that is not held, one after the other, taking a cause at itself, each fill's latency accumulated where DLATCTL is on
(R215); a misaligned A and reserved bits of B trap. Lines outside the window and everything else stay. -/
def Sys2Proof.Claims.StashControl : Prop :=
  ∀ (s : State) (a b : Src),
    let u : Uses := { a, b }
    let v := s.vals u
    let c := s.core s.cur
    let bad (intent : Bool) : Prop := fld v.b 21 10 ≠ 0 ∨ (intent = false ∧ fld v.b 31 1 = 1)
    s.ready u = true →
    (∀ i intent, (i, intent) ∈ [(Instr.stfl a b, false), (.stiv a b, false), (.stfil a b, true)] →
      (v.a.toNat % 64 ≠ 0 → exec i s = .next (takeTrap s s.cur 0x04 (encode i) v.a c.pc)) ∧
      (v.a.toNat % 64 = 0 → bad intent → exec i s = .next (takeTrap s s.cur 0x02 0 0 c.pc))) ∧
    (v.a.toNat % 64 = 0 → ¬ bad false →
      let clean := c.dirty.filter (fun l => ¬ (windowHas c (l.1 * 64) ∧ rangeHas v.a v.b l.1))
      Completes (.stfl a b) u v.poison Core.advance s (s.updCore s.cur (fun c => { c with dirty := clean })) ∧
      Completes (.stiv a b) u v.poison Core.advance s (s.updCore s.cur (fun c =>
        { c with dirty := clean, held := c.held.filter (fun l => ¬ rangeHas v.a v.b l.1) }))) ∧
    (v.a.toNat % 64 = 0 → ¬ bad true →
      ((∀ l, l < 2 ^ 26 → windowHas c (l * 64) → c.stbase.toNat % 64 = 0 → rangeHas v.a v.b l → ∃ p, (l, p) ∈ c.held) →
        c.stbase.toNat % 64 = 0 → Completes (.stfil a b) u v.poison Core.advance s s) ∧
      (∀ l, c.stbase.toNat % 64 = 0 → l < 2 ^ 26 → windowHas c (l * 64) → rangeHas v.a v.b l → (∀ p, (l, p) ∉ c.held) →
        (∀ j, j < l → windowHas c (j * 64) → rangeHas v.a v.b j → ∃ p, (j, p) ∈ c.held) →
        let kind := if fld v.b 31 1 = 1 then AccKind.store else .load
        (∀ cause detail s1, translate s (coreDie s.cur) c.masid (l * 64) kind = (.bad cause detail, s1) → cause ≠ 0x10 → cause ≠ 0x11 →
          exec (.stfil a b) s = .next (takeTrap s1 s.cur cause (if cause = 0x60 then detail else encode (.stfil a b)) (BitVec.ofNat 32 (l * 64)) c.pc)) ∧
        (∀ pa host s1, translate s (coreDie s.cur) c.masid (l * 64) kind = (.ok pa host, s1) → s1.ms.owned (pa / 64) = false →
          (∀ j, l < j → j < 2 ^ 26 → windowHas c (j * 64) → rangeHas v.a v.b j → ∃ p, (j, p) ∈ c.held) →
          let since := if c.standing = some (.stfil a b) then c.waitSince else s.ck
          Completes (.stfil a b) u v.poison Core.advance s
            ((s1.latencyAny s.cur c.masid (l * 64) since).updCore s.cur (fun c => { c with held := (l, pa / 64) :: c.held }))) ∧
        (∀ pa host s1, translate s (coreDie s.cur) c.masid (l * 64) kind = (.ok pa host, s1) → s1.ms.owned (pa / 64) = true →
          ∃ t, exec (.stfil a b) s = .next t ∧ Stands (.stfil a b) s t)))

/-- R371, R372, R396: TLBINV of an ASID not the partition's traps PRIVILEGE, of a range past page 65,535 RESERVED_FIELD. It publishes at P and
drains; then, no claimed move of a named page under way and no instruction waiting for a page, every port's translations of the named pages
are gone, no core of the ASID holds a line of them, what is held on them at a core or in a saved context walks again, and it completes. -/
def Sys2Proof.Claims.Invalidations : Prop :=
  ∀ (s : State) (a b : Src),
    let i := Instr.tlbinv a b
    let u : Uses := { a, b, floor := .supervisor, moves := true }
    let v := s.vals u
    let c := s.core s.cur
    let asid := v.a.toNat % 65536
    let first := fld v.b 16 16
    let count := fld v.b 0 16
    let named (page : Nat) : Bool := count = 0 ∨ (first ≤ page ∧ page < first + count)
    let mine := c.priv = .service ∨ tget s.ms.asidPart 63 asid = s.corePart s.cur
    s.ready u = true → c.priv ≠ .task →
    (2 ^ 16 ≤ v.a.toNat ∨ 65536 < first + count → exec i s = .next (takeTrap s s.cur 0x02 0 0 c.pc)) ∧
    (v.a.toNat < 2 ^ 16 → first + count ≤ 65536 →
      (¬ mine → exec i s = .next (takeTrap s s.cur 0x06 0 0 c.pc)) ∧
      (mine → c.pubDone = false → c.readsDone = true → PublishesAndStands i .P s) ∧
      (mine → c.pubDone = true → c.out = [] →
        (∃ m ∈ s.ms.moves, 1 ≤ m.stage ∧ m.asid = asid ∧ ∃ n, n ≤ m.run ∧ named (m.page + n)) → ∃ t, exec i s = .next t ∧ Stands i s t) ∧
      (mine → c.pubDone = true → c.out = [] →
        (∀ m ∈ s.ms.moves, 1 ≤ m.stage → m.asid = asid → ∀ n, n ≤ m.run → ¬ named (m.page + n)) →
        (∀ k c, (k, c) ∈ s.cores → c.pageWaits = []) → rising s.cores →
        let out (c : Core) (l : Nat × Nat) : Bool := decide (c.masid = asid ∧ named (l.1 / 1024))
        Completes i u v.poison Core.advance s { s with
          ms := { s.ms with tlb := s.ms.tlb.filter (fun e =>
            !((e.asid == asid) && (List.range (e.run + 1)).any (fun n => decide (named (e.page + n))))) }
          saved := s.saved.map (fun (x : Nat × Saved) => (x.1, { x.2 with ctx := x.2.ctx.walkAgain asid v.b }))
          cores := s.cores.map (fun (x : Nat × Core) => (x.1, ({ x.2 with
            dirty := x.2.dirty.filter (fun l => !out x.2 l), held := x.2.held.filter (fun l => !out x.2 l) } : Core).walkAgain asid v.b)) })) ∧
    (∀ (x : Core) (asid' : Nat) (w : Word),
      let within (va : Nat) : Prop := fld w 0 16 = 0 ∨ (fld w 16 16 ≤ va / 65536 ∧ va / 65536 < fld w 16 16 + fld w 0 16)
      (x.walkAgain asid' w).acc = x.acc.map (fun y => match y.st with
        | .rearmed cause _ va => if y.asid = asid' ∧ within va then { y with st := .rearmed cause true va } else y
        | _ => y) ∧
      (∀ e z, x.rearmedOf e = some (0x10, z) → (x.walkAgain asid' w).rearmedOf e =
        some (0x10, z || decide (x.turnAsid e = some asid' ∧ within (x.fltOf e).addr.toNat))) ∧
      (∀ e, (∀ z, x.rearmedOf e ≠ some (0x10, z)) → (x.walkAgain asid' w).rearmedOf e = x.rearmedOf e))

/-- R175 to R177, R372, R386, R392 to R394, R398: COPY_ROW_READ reads the next row whole, bytes that earlier rows will write taken from them, and adds
its writes; under VERIFY both CRC-32C values go on over it. ENGINE_COMPLETE, every row done, makes the writes events at P, whole clean lines
cleaned, ends the ownership and pushes the word; a mismatch sets COPY_MISMATCH. A cause at a row completes it with STATUS 3, a page's holds
it. The bytes written are counted (R318), and the lines read and taken fill the core's stash window. -/
def Sys2Proof.Claims.CopyRows : Prop :=
  ∀ (s : State) (k : Nat) (q : Cmd) (rest : List Cmd) (d : Dst) (a : Src), cpyTurn s k q rest → q.instr = .cpy d a → k < 1024 →
    let c := (s.core k).cpy
    let rows := fld (q.data.getD 2 0) 16 16
    let verify := fld (q.data.getD 5 0) 0 1 = 1
    let src := rowFrom q.data c.row
    let dst := rowTo q.data c.row
    let writes := c.pend
    let whole (l : Nat) : Bool := (List.range 64).all (fun i => writes.any (fun w => w.1 == l * 64 + i))
    let stores (s : State) : State :=
      (engineStore (.cluster (k / 8)) q.launch writes (s.updMs (fun m => { m with
        poison := m.poison.filter (fun l => !whole l), lostLines := m.lostLines.filter (fun l => !whole l) }))).updMs (·.release .CP k q.seq)
    (∀ spas dpas s0 s2, c.row < rows → translateRun s (coreDie k) q.asid .load src [] = (.inl spas, s0) →
      let s1 := s0.touchFor .CP k q.asid (src.zip spas)
      (translateRun s1 (coreDie k) q.asid .load src []).1 = .inl spas →
      (∀ p ∈ spas, s0.ms.ownedByOther .CP k q.seq (p / 64) = false ∧ s0.lineLost (p / 64) = false) →
      translateRun s1 (coreDie k) q.asid .store dst [] = (.inl dpas, s2) →
      (∀ p ∈ dpas, s2.ms.ownedByOther .CP k q.seq (p / 64) = false) → dpas.Nodup → dpas.length = spas.length →
      let row := (spas.zip (engineBytes s1 (.cluster (k / 8)) spas)).map (fun p =>
        ((c.pend.reverse.find? (fun w => w.1 == p.1)).map (·.2)).getD p.2)
      let crc (x : Word) : Word := if verify then BitVec.ofNat 32 (crcRun x.toNat (row.map (·.1))) else x
      exec (.copyRowRead k) s = .next (((s2.touchFor .CP k q.asid (dst.zip dpas)).updMs (fun m => { m with
          own := ((lines dpas).filter (fun l => !m.owned l)).map (fun l => (l, .CP, k, q.seq)) ++ m.own })).updCore k (fun c => { c with
        cpy := { c.cpy with row := c.cpy.row + 1, pend := c.cpy.pend ++ (dpas.zip row), c1 := crc c.cpy.c1, c2 := crc c.cpy.c2 } }))) ∧
    (∀ cause detail x s1, c.row < rows → translateRun s (coreDie k) q.asid .load src [] = (.inr (cause, detail, x), s1) →
      cause = 0x10 ∨ cause = 0x11 → exec (.copyRowRead k) s = .next (s1.updCore k (fun c => { c with cpy := { c.cpy with
        flt := { fault := c.cpy.flt.fault, cause, f1 := q.seq, f2 := 0, addr := BitVec.ofNat 32 x }
        waiting := some ⟨cause, q.a, BitVec.ofNat 32 x⟩ } }))) ∧
    (∀ x detail s1, c.row < rows → translateRun s (coreDie k) q.asid .load src [] = (.inr (0x05, detail, x), s1) → c.pend = [] →
      (∀ y ∈ (s.core k).acc, y.op ≠ .engine .CP) →
      exec (.copyRowRead k) s = .next (copyFaults k q rest 1 0x05 (BitVec.ofNat 32 x) s1)) ∧
    (rows ≤ c.row → (∀ w ∈ writes, w.2.2 = false) →
      (¬ verify → exec (.engineComplete k .CP) s = .next (copied k writes.length ((stores s).updCore k (copyEnded rest (copyWord 1 0 false q.seq))))) ∧
      (verify → c.c1 = c.c2 → exec (.engineComplete k .CP) s = .next (copied k writes.length ((stores s).updCore k (fun x =>
        copyEnded rest (copyWord 1 0 true q.seq) { x with cpy := { x.cpy with crc := BitVec.ofNat 32 (2 ^ 32 - 1 - c.c2.toNat) } })))) ∧
      (verify → c.c1 ≠ c.c2 → c.pend = [] → (∀ y ∈ (s.core k).acc, y.op ≠ .engine .CP) →
        exec (.engineComplete k .CP) s = .next (copyFaults k q rest 1 0x61 (q.data.getD 1 0) (s.updCore k (fun x =>
          { x with cpy := { x.cpy with crc := BitVec.ofNat 32 (2 ^ 32 - 1 - c.c2.toNat) } })))))

/-- R376, R378, R381, R388, R397: DEMOTE and PROMOTE at their turn. No valid leaf, a run already in the tier, or a demotion to a tier above its
own: done with STATUS 1. A bad leaf or a berth page: ACCESS; the target at TIERHARD: TIER_FULL; a move of the run under way: it waits.
Otherwise the move of the whole run starts, which the earliest leaf that takes in the page begins. When done, the command completes with its word. -/
def Sys2Proof.Claims.TierCommands : Prop :=
  ∀ (s : State) (k : Nat) (q : Cmd) (rest : List Cmd) (target kind : Nat) (down : Bool), cpyTurn s k q rest →
    ((∃ a b, q.instr = .demote a b ∧ target = q.b.toNat % 4 ∧ kind = 2 ∧ down = true) ∨
      (∃ a, q.instr = .promote a ∧ target = 0 ∧ kind = 3 ∧ down = false)) →
    let page := q.a.toNat / 65536
    let part := tget s.ms.asidPart 63 q.asid
    let status (w : Word) : Prop := exec (.engineRead k .CP) s = .next (s.updCore k (cpyNow { q with done := some w } rest))
    (q.started = false → q.done = none →
      (tget s.ms.asidPt 0 q.asid = 0 ∨ level1 s q.asid page % 2 = 0 → status 1) ∧
      (∀ l, leafIs s q.asid page l →
        let tier := l / 2 ^ 6 % 4
        let frame := if tier = 3 then 2 ^ 32 + l / 2 ^ 16 % 2 ^ 32 else l / 2 ^ 16 % 2 ^ 32
        let m := s.ms.whole { asid := q.asid, page, run := min (l / 2 ^ 8 % 2 ^ 8) (255 - page % 256), frame, src := tier, dst := target, part,
                              leaf := leafPlace s q.asid page, by' := .cmd k q.seq }
        let sound := l / 2 ^ 48 = 0 ∧ (tier ≠ 3 → (s.part part).grants frame = true)
        let free := ∀ x ∈ s.ms.moves, x.asid = q.asid → x.page + x.run < m.page ∨ m.page + m.run < x.page
        let berth := ∃ i, i ≤ m.run ∧ s.inBerth q.asid ((m.page + i) * 65536) = true
        let fails (cause : Nat) : Prop := (∀ x ∈ (s.core k).acc, x.op ≠ .engine .CP) → (s.core k).cpy.pend = [] →
          exec (.engineRead k .CP) s = .next (copyFaults k q rest kind cause q.a s)
        (l % 2 = 0 → status 1) ∧
        (l % 2 = 1 → ¬ sound → fails 0x05) ∧
        (l % 2 = 1 → sound → ¬ free → exec (.engineRead k .CP) s = .next s) ∧
        (l % 2 = 1 → sound → free → (tier = target ∨ (down = true ∧ target < tier)) → status 1) ∧
        (l % 2 = 1 → sound → free → ¬ (tier = target ∨ (down = true ∧ target < tier)) →
          (berth → fails 0x05) ∧
          (¬ berth → atHard s part target = true → fails 0x62) ∧
          (¬ berth → atHard s part target = false →
            exec (.engineRead k .CP) s = .next ((s.updMs (moveAdded m)).updCore k (cpyNow { q with started := true } rest)))))) ∧
    (∀ m : TierMove, ∃ i, i ≤ m.page % 256 ∧
      s.ms.whole m = { m with page := m.page - i, run := m.run + i, frame := m.frame - i, leaf := m.leaf - 8 * i } ∧
      (i ≠ 0 → runBegins s.ms m i) ∧ ∀ j, i < j → j ≤ m.page % 256 → ¬ runBegins s.ms m j) ∧
    (∀ w, q.done = some w → (s.core k).cpy.pend = [] → exec (.engineComplete k .CP) s = .next ((s.updMs (fun m => m.release .CP k q.seq)).updCore k
      (copyEnded rest (copyWord kind w.toNat false q.seq))))

/-- R171, R381 to R384, R397, R405, R430: a move's stages. Claim waits while a command owns a line of the run; a promotion that a walk started
is dropped at TIERHARD. Gather leaves no line of the run dirty or held. Copy settles the target frames, all of them the partition's, through
the storage ring for storage; one that reads back wrong is repeated, and a second time cancels the move with STATUS 2. Remap makes every byte of the run read at the target as it read at the source, for every party, and drops the
run's translations. Release ends it, and the command that asked takes STATUS 0. -/
def Sys2Proof.Claims.TierMoves : Prop :=
  (∀ (s : State) (n frame : Nat) (crc : Bool) (m : TierMove), s.ms.moves[n]? = some m →
    let go (st : Nat) : Prop := exec (.tierMove n ⟨frame, crc⟩) s = .next (setMoveAt n { m with stage := st } s)
    (m.stage = 0 → ¬ (m.by' = .walk ∧ atHard s m.part m.dst = true) →
      ((∃ o ∈ s.ms.own, inSource m (o.1 * 64)) → exec (.tierMove n ⟨frame, crc⟩) s = .next s) ∧
      ((∀ o ∈ s.ms.own, ¬ inSource m (o.1 * 64)) → go 1)) ∧
    (m.stage = 0 → m.by' = .walk → atHard s m.part m.dst = true → (∀ x ∈ s.cores, x.2.cpy.rearmed = none) →
      ∃ t, exec (.tierMove n ⟨frame, crc⟩) s = .next t ∧ t.ms.moves = s.ms.moves.eraseIdx n ∧ t.ms.mem = s.ms.mem ∧ t.ms.hist = s.ms.hist) ∧
    (m.stage = 1 → ∃ t, exec (.tierMove n ⟨frame, crc⟩) s = .next t ∧ t.ms = (setMoveAt n { m with stage := 2 } s).ms ∧
      ∀ k, ∃ d h : List (Nat × Nat), t.core k = { s.core k with dirty := d, held := h } ∧
        (∀ l, l ∈ d ↔ l ∈ (s.core k).dirty ∧ ¬ inSource m (l.2 * 64)) ∧ (∀ l, l ∈ h ↔ l ∈ (s.core k).held ∧ ¬ inSource m (l.2 * 64))) ∧
    (m.stage = 2 → m.ring = none → targetOk s n m frame = false → exec (.tierMove n ⟨frame, crc⟩) s = .next s) ∧
    (m.stage = 2 → m.ring = none → targetOk s n m frame = true → crc = true →
      (m.again = false → exec (.tierMove n ⟨frame, crc⟩) s = .next (setMoveAt n { m with again := true } s)) ∧
      (m.again = true → ∃ t, exec (.tierMove n ⟨frame, crc⟩) s = .next t ∧ t.ms = { s.ms with moves := s.ms.moves.eraseIdx n } ∧
        ∀ k seq, m.by' = .cmd k seq → (t.core k).cpy.queue = (s.core k).cpy.queue.map (fun q =>
          if q.seq = seq ∧ q.started = true then { q with done := some 2 } else q))) ∧
    (m.stage = 2 → m.ring = none → targetOk s n m frame = true → crc = false → m.dst ≠ 3 → m.src ≠ 3 →
      (∀ i, i ≤ m.run → (s.part m.part).grants (frame + i) = true) ∧
      exec (.tierMove n ⟨frame, crc⟩) s = .next (setMoveAt n { m with target := frame, stage := 3 } s)) ∧
    (m.stage = 2 → m.ring = none → targetOk s n m frame = true → crc = false → m.dst = 3 ∨ m.src = 3 →
      let p := s.part m.part
      let i := p.storqTail % fld p.storqCtl 0 13
      let slot := if m.dst = 3 then frame else m.frame - 2 ^ 32
      let op : Byte := if m.dst = 3 then 1 else 2
      (p.storqCtl.getLsbD 31 = false ∨ s.skovazDead = true → exec (.tierMove n ⟨frame, crc⟩) s = .next s) ∧
      (p.storqCtl.getLsbD 31 = true → s.skovazDead = false → ∃ t, exec (.tierMove n ⟨frame, crc⟩) s = .next t ∧
        t.ms.moves = s.ms.moves.set n { m with target := if m.dst = 3 then 2 ^ 32 + frame else frame, ring := some (i, none) } ∧
        (t.part m.part).storqTail = p.storqTail + 1 ∧
        let at' (j : Nat) : Byte := t.ms.byteAt .host (p.storqBase.toNat * 4096 + 32 * i + j)
        at' 0 = op ∧ (∀ j, j < 3 → at' (1 + j) = 0) ∧ number ((List.range 8).map (fun j => at' (4 + j))) = slot % 2 ^ 64 ∧
        (∀ j, j < 4 → at' (28 + j) = 0) ∧ t.cores = s.cores)) ∧
    (m.stage = 2 → ∀ i, m.ring = some (i, none) → exec (.tierMove n ⟨frame, crc⟩) s = .next s) ∧
    (m.stage = 2 → ∀ i, m.ring = some (i, some true) → go 3) ∧
    (m.stage = 2 → ∀ i, m.ring = some (i, some false) → m.dst ≠ 3 → ∃ t, exec (.tierMove n ⟨frame, crc⟩) s = .next t ∧
      t.ms.moves = s.ms.moves.set n { m with stage := 3 } ∧ ∀ l, t.linePoison l = (s.linePoison l || decide (inSource m (l * 64)))) ∧
    (m.stage = 2 → ∀ i, m.ring = some (i, some false) → m.dst = 3 → ∃ t, exec (.tierMove n ⟨frame, crc⟩) s = .next t ∧
      t.ms.moves = s.ms.moves.eraseIdx n ∧ t.ms.mem = s.ms.mem ∧ t.ms.hist = s.ms.hist) ∧
    (m.stage = 3 → (m.frame + m.run < m.target ∨ m.target + m.run < m.frame) →
      (∀ i a, i ≤ m.run → a < 8 → ¬ inSource m (m.leaf + 8 * i + a) ∧ ¬ inTarget m (m.leaf + 8 * i + a)) →
      ∃ t, exec (.tierMove n ⟨frame, crc⟩) s = .next t ∧
        (∀ r a, inSource m a → t.ms.byteAt r (moved m a) = s.ms.byteAt r a) ∧
        (∀ r a, ¬ inSource m a → ¬ inTarget m a → ¬ (m.leaf ≤ a ∧ a < m.leaf + 8 * (m.run + 1)) → t.ms.byteAt r a = s.ms.byteAt r a) ∧
        (∀ i, i ≤ m.run → entry8 t (m.leaf + 8 * i) = (m.target + i) % 2 ^ 32 * 2 ^ 16 + entry8 s (m.leaf + 8 * i) / 2 ^ 8 % 2 ^ 8 * 2 ^ 8 +
          m.dst % 4 * 2 ^ 6 + entry8 s (m.leaf + 8 * i) % 2 ^ 5 ∨ 4 ≤ m.dst) ∧
        (∀ e, e ∈ t.ms.tlb ↔ e ∈ s.ms.tlb ∧ ¬ (e.asid = m.asid ∧ e.page ≤ m.page + m.run ∧ m.page ≤ e.page + e.run)) ∧
        t.ms.moves = s.ms.moves.set n { m with stage := 4 }) ∧
    (4 ≤ m.stage → exec (.tierMove n ⟨frame, crc⟩) s = .next s)) ∧
  (∀ (s : State) (n : Nat) (m : TierMove), s.ms.moves[n]? = some m →
    (m.stage < 4 → exec (.tierMoveRelease n) s = .next s) ∧
    (4 ≤ m.stage → ∃ t, exec (.tierMoveRelease n) s = .next t ∧ t.ms = { s.ms with moves := s.ms.moves.eraseIdx n } ∧
      (∀ k seq, m.by' = .cmd k seq → (s.core k).pageWaits = [] → (t.core k).cpy.queue = (s.core k).cpy.queue.map (fun q =>
        if q.seq = seq ∧ q.started = true then { q with done := some 0 } else q)))) ∧
  (∀ (s : State) (part n : Nat) (ok : Bool), s.skovazDead = false → (∃ m ∈ s.ms.moves, m.part = part ∧ m.ring = some (n, none)) →
    ∃ t, exec (.storageRingStatus part n ok) s = .next t ∧
      number ((List.range 4).map (fun j => t.ms.byteAt .walker ((s.part part).storqBase.toNat * 4096 + 32 * n + 28 + j))) = (if ok then 1 else 2) ∧
      t.ms.moves = s.ms.moves.map (fun m => if m.part = part ∧ m.ring = some (n, none) then { m with ring := some (n, some ok) } else m) ∧
      t.cores = s.cores)

/-- R381: a tier's demotion engine starts for a partition whose occupancy is above TIERSOFT and stops at seven eighths of it. At work, its clock
looks at the next run in ascending frame order: one in use it skips, one with A set it passes over once with A cleared, any other it moves to
the next tier down below TIERHARD; with none it waits. -/
def Sys2Proof.Claims.Demotions : Prop :=
  ∀ (s : State) (die part tier : Nat),
    let p := s.part part
    let key := 4 * die + tier
    let occ := occupancy s part tier
    let soft := p.soft.getD tier 0
    let now (t : State) : Prop := exec (.demotionEngineStart die part tier) s = .next t
    let clock (f : Tbl Nat → Tbl Nat) (s : State) : State := s.updPart part (fun p => { p with demoting := f p.demoting })
    tier < 3 →
    (tfind p.demoting key = none → occ ≤ soft → now s) ∧
    (tfind p.demoting key = none → soft < occ → now (clock (fun t => tset t key 0) s)) ∧
    (∀ hand, tfind p.demoting key = some hand → 8 * occ ≤ 7 * soft → now (clock (fun t => terase t key) s)) ∧
    (∀ hand r before after, tfind p.demoting key = some hand → 7 * soft < 8 * occ → tierRuns s die part tier = before ++ r :: after →
      (∀ x ∈ before, x.1 < hand) → hand ≤ r.1 →
      let on := clock (fun t => tset t key (r.1 + 1))
      (runSkipped s r = true → now (on s)) ∧
      (runSkipped s r = false → r.2.2.2.2.2 / 8 % 2 = 1 → now (on (s.updMs (fun m => m.append
        [(r.2.2.2.2.1, BitVec.ofNat 8 (r.2.2.2.2.2 % 256 - 8))] .H .walker none)))) ∧
      (∀ t, runSkipped s r = false → r.2.2.2.2.2 / 8 % 2 = 0 → tier < t → t < 4 → atHard s part t = false →
        (∀ x, tier < x → x < t → atHard s part x = true) →
        now (on (s.updMs (moveAdded { asid := r.2.2.1, page := r.2.2.2.1, run := r.2.1, frame := r.1, src := tier, dst := t, part,
                                      leaf := r.2.2.2.2.1, by' := .engine })))))

end

/-! Rearmed accesses, the supervisor's and the service core's memory registers. -/
namespace Sys2Proof.Claims
open Sys2Proof Sys2Proof.Machine

/-- The access of a CSR traps at core k (R50, R190). -/
def csrTraps (e : Instr) (s : State) (k csr cause : Nat) (addr : Word) : Prop :=
  exec e s = .next (takeTrap s k cause (csrDetail (s.core k).standing csr cause 0) addr (s.core k).pc)

/-- A word of q5 (R384). -/
def notice5 (kind status reg detail : Nat) : Word := BitVec.ofNat 32 (kind * 2 ^ 28 + status * 2 ^ 24 + reg * 2 ^ 16 + detail)

/-- The register that an access writes: n for xn, 0 for none. -/
def regOf : Dst → Nat
  | .x n => n.val
  | .q7 => 0

/-- A move takes in the page. -/
def pageMoves (s : State) (asid page : Nat) : Prop := ∃ m ∈ s.ms.moves, m.asid = asid ∧ m.page ≤ page ∧ page ≤ m.page + m.run

/-- The n-th producer stands otherwise. -/
def accessSet (n : Nat) (a : Access) (st : AccSt) (c : Core) : Core := { c with acc := c.acc.set n { a with st } }

/-- The berth of a rank. -/
def berthAt (s : State) (p rank : Nat) : Berth := tget (s.part p).berths {} rank
def setBerth (p rank : Nat) (b : Berth) (s : State) : State := s.updPart p (fun x => { x with berths := tset x.berths rank b })

/-- A berth holds nothing: no message waits in it, and no payload of a queued one stands in it (R181). -/
def berthHolds (s : State) (p rank : Nat) : Prop :=
  (berthAt s p rank).msgs ≠ [] ∨ ∃ k c, (k, c) ∈ s.cores ∧ c.rank = some rank ∧ s.corePart k = p ∧ ∃ q ∈ c.recvq, ∃ m ∈ q.2, m.payloadSlots ≠ 0

end Sys2Proof.Claims

section
open Sys2Proof Sys2Proof.Machine Sys2Proof.Claims

/-- R193, R383, R384: a rearmed load that may not walk yet, or whose page moves, waits. One that walks reads, writes xn, frees LD, and only then
posts its notice, STATUS 0 or 3; V = 0 leaves it rearmed with no notice; ACCESS or TIER_FULL is recorded with xn and its notice posted. -/
def Sys2Proof.Claims.RearmedAccesses : Prop :=
  ∀ (s t0 : State) (k n cause : Nat) (ready : Bool) (a : Access) (size : Nat) (sx : Bool),
    (s.core k).acc[n]? = some a → a.op = .load size sx → size ∈ [1, 2, 4] → a.st = .rearmed cause ready a.addr.toNat → a.dead = false → a.pa = none →
    a.addr.toNat % size = 0 →
    let page := a.addr.toNat / 65536
    let i := Instr.rearmedAccessComplete k n
    (ready = false ∨ (cause = 0x11 ∧ pageMoves s a.asid page) → exec i s = .next s) ∧
    (ready = true → ¬ (cause = 0x11 ∧ pageMoves s a.asid page) →
      (∀ pa host, translate s (coreDie k) a.asid a.addr.toNat .load = (.ok pa host, t0) → t0.ms.owned (pa / 64) = false →
        let bytes := (List.range size).map (fun i => readsByte t0 k (a.addr.toNat + i) (pa + i))
        let t1 := if (s.core k).dbg.dlatctl then { t0 with fresh := t0.fresh + 1 } else t0
        ∃ c1 : Core, exec i s = .next (t1.setCore k (pushed 5 (notice5 1 (if bytes.any (·.2) then 3 else 0) (regOf a.d) page)
            ({ produced s.ck n a (widened size sx (number (bytes.map (·.1)))) (bytes.any (·.2)) c1 with
              cnt := { c1.cnt with LD := c1.cnt.LD - 1 } } : Core))) ∧
          c1 = { s.core k with snap := c1.snap, held := c1.held, dbg := c1.dbg, tr := { (s.core k).tr with imp := c1.tr.imp } }) ∧
      (∀ detail, translate s (coreDie k) a.asid a.addr.toNat .load = (.bad 0x10 detail, t0) →
        exec i s = .next (t0.updCore k (accessSet n a (.rearmed 0x10 false a.addr.toNat)))) ∧
      (∀ detail, translate s (coreDie k) a.asid a.addr.toNat .load = (.bad 0x11 detail, t0) →
        exec i s = .next (t0.updCore k (accessSet n a (.rearmed 0x11 true a.addr.toNat)))) ∧
      (∀ c' detail, c' = 0x05 ∨ c' = 0x62 → translate s (coreDie k) a.asid a.addr.toNat .load = (.bad c' detail, t0) →
        exec i s = .next (t0.updCore k (fun c => pushed 5 (notice5 1 (if c' = 0x62 then 2 else 1) (regOf a.d) page)
          { accessSet n a (.recorded c' a.addr detail) c with cnt := { c.cnt with LD := c.cnt.LD - 1 } }))))

/-- R201, R371, R372, R384, R405: NPUSH pushes a notice of KIND 4 with its detail to q5 of the core in PRESEL; a PRESEL outside the partition
traps PRIVILEGE. STORQCTL takes a power of two from 16 to 4,096 with [30:13] 0, else it traps. A write of STBASE waits for the core's loads and
engine commands, leaves no window line dirty, no line held, and applies the aligned base. -/
def Sys2Proof.Claims.SupervisorRegisters : Prop :=
  ∀ (s : State) (k : Nat) (v : Word),
    let c := s.core k
    (s.corePart c.sup.presel = s.corePart k →
      exec (.npush k v) s = .next (s.updCore c.sup.presel (pushed 5 (notice5 4 0 0 (v.toNat % 2 ^ 16))))) ∧
    (s.corePart c.sup.presel ≠ s.corePart k → csrTraps (.npush k v) s k 0x8D8 0x06 0) ∧
    (fld v 13 18 = 0 → (∃ j, 4 ≤ j ∧ j ≤ 12 ∧ fld v 0 13 = 2 ^ j) →
      exec (.storqctlWrite k v) s = .next (s.updPart (s.corePart k) (fun p => { p with storqCtl := v, storqTail := 0 }))) ∧
    (¬ (fld v 13 18 = 0 ∧ ∃ j, 4 ≤ j ∧ j ≤ 12 ∧ fld v 0 13 = 2 ^ j) → csrTraps (.storqctlWrite k v) s k 0x8E9 0x02 0) ∧
    (v.toNat % 2 ^ 16 ≠ 0 → csrTraps (.stbaseWrite k v) s k 0x501 0x04 v) ∧
    (v.toNat % 2 ^ 16 = 0 → (c.cnt.LD ≠ 0 ∨ c.cnt.MX ≠ 0 ∨ c.cnt.VX ≠ 0 ∨ c.cnt.CP ≠ 0 ∨ c.cnt.gl ≠ 0 ∨ c.cnt.PS ≠ 0) →
      exec (.stbaseWrite k v) s = .next s) ∧
    (v.toNat % 2 ^ 16 = 0 → c.cnt.LD = 0 → c.cnt.MX = 0 → c.cnt.VX = 0 → c.cnt.CP = 0 → c.cnt.gl = 0 → c.cnt.PS = 0 →
      exec (.stbaseWrite k v) s = .next (s.updCore k (fun c =>
        { c with dirty := c.dirty.filter (fun l => ¬ windowHas c (l.1 * 64)), held := [], stbase := v })))

/-- R371, R388: BERTHBASE takes an address aligned to 64 KiB, BERTHLOG 16 to 26; a raise of the size at the same base takes effect at once, any
other change once the berth holds no message, by BERTH_RECONFIG_APPLY where it had to wait. -/
def Sys2Proof.Claims.Berths : Prop :=
  ∀ (s : State) (k p rank : Nat) (v : Word), s.corePart k = p → (s.core k).sup.berthsel = rank → rising s.cores →
    (∀ j l, j ∈ s.cores → l ∈ s.cores → j.2.rank = some rank → l.2.rank = some rank → s.corePart j.1 = p → s.corePart l.1 = p → j.1 = l.1) →
    let b := berthAt s p rank
    let base := (b.next.map (·.1)).getD b.base
    let log := (b.next.map (·.2)).getD b.log
    (v.toNat % 2 ^ 16 ≠ 0 → csrTraps (.berthWrite k 0x8DD v) s k 0x8DD 0x04 v) ∧
    (v.toNat < 16 ∨ 26 < v.toNat → csrTraps (.berthWrite k 0x8DE v) s k 0x8DE 0x02 0) ∧
    (16 ≤ v.toNat → v.toNat ≤ 26 → b.next = none → b.log < v.toNat →
      exec (.berthWrite k 0x8DE v) s = .next (setBerth p rank { b with log := v.toNat } s)) ∧
    (∀ e nb nl, (e = Instr.berthWrite k 0x8DD v ∧ nb = v ∧ nl = log ∧ v.toNat % 2 ^ 16 = 0) ∨
        (e = Instr.berthWrite k 0x8DE v ∧ nb = base ∧ nl = v.toNat ∧ 16 ≤ v.toNat ∧ v.toNat ≤ 26) → ¬ (nb = b.base ∧ b.log < nl ∧ b.next = none) →
      (¬ berthHolds s p rank → exec e s = .next (setBerth p rank { b with base := nb, log := nl, next := none } s)) ∧
      (berthHolds s p rank → exec e s = .next (setBerth p rank { b with next := some (nb, nl) } s))) ∧
    (b.next = none → exec (.berthReconfigApply p rank) s = .next s) ∧
    (∀ nb nl, b.next = some (nb, nl) →
      (berthHolds s p rank → exec (.berthReconfigApply p rank) s = .next s) ∧
      (¬ berthHolds s p rank →
        exec (.berthReconfigApply p rank) s = .next (setBerth p rank { b with base := nb, log := nl, next := none } s)))

/-- R389: RANKSET writes the selected rank's entry at P through the network ASID, replaces it where an interface of the partition holds it, and, VALID and of this
package, gives the rank to its core and takes it from the core that carried it. The three refusals trap first and do nothing. -/
def Sys2Proof.Claims.RankBindings : Prop :=
  ∀ (s : State) (k : Nat) (v : Word),
    let p := s.corePart k
    let rank := (s.core k).sup.ranksel
    let pkg := fld v 10 16
    let core := fld v 0 10
    let here := v.getLsbD 31 = true ∧ pkg = s.pkg
    let outside := pkg = s.pkg ∧ s.corePart core ≠ p
    let another := here ∧ (s.core core).rank.isSome = true ∧ (s.core core).rank ≠ some rank
    let va := ((s.part p).rankbase.toNat + 4 * rank) % 2 ^ 32
    (outside → csrTraps (.ranksetWrite k v) s k 0x8DA 0x06 0) ∧
    (¬ outside → another ∨ 2 ^ (s.part p).ranklog ≤ rank → csrTraps (.ranksetWrite k v) s k 0x8DA 0x02 0) ∧
    (∀ pa host s1, ¬ outside → ¬ another → rank < 2 ^ (s.part p).ranklog →
      translate s (coreDie k) (s.part p).netasid va .store = (.ok pa host, s1) → s1.ms.owned (pa / 64) = false →
      translate s1 (coreDie k) (s.part p).netasid va .store = (.ok pa host, s1) → rising s1.cores →
      ∃ t, exec (.ranksetWrite k v) s = .next t ∧
        t = { s1 with cores := t.cores, ms := s1.ms.put ((List.range 4).map (fun i => (pa + i, (bytesLE 4 v.toNat).getD i 0))) .P (.core k) none } ∧
        ∀ j, t.core j = { s1.core j with
          rankCache := if s.corePart j = p ∧ (tfind (s1.core j).rankCache rank).isSome then tset (s1.core j).rankCache rank v else (s1.core j).rankCache
          rank := if here ∧ j = core then some rank
            else if here ∧ s.corePart j = p ∧ (s1.core j).rank = some rank then none else (s1.core j).rank })

/-- R371, R430: PGCTL with VALID needs PGLO not above PGHI and no overlap with a valid range of another partition; TGRANTn may not go below
the partition's TIERHARD: each else traps RESERVED_FIELD and changes nothing. -/
def Sys2Proof.Claims.FrameGrants : Prop :=
  ∀ (s : State) (die n : Nat) (v : Word), die < 8 →
    let sel := (s.die die).pgsel
    let p := fld sel 0 6
    let i := fld sel 8 4
    let r := tget (s.part p).ranges {} i
    let clash := ∃ q ∈ s.parts, q.1 ≠ p ∧ ∃ x ∈ q.2.ranges, x.2.valid = true ∧ x.2.lo.toNat ≤ r.hi.toNat ∧ r.lo.toNat ≤ x.2.hi.toNat
    let bad := v.getLsbD 31 = true ∧ (r.hi.toNat < r.lo.toNat ∨ clash)
    (bad → csrTraps (.pgctlWrite die v) s (1024 + die) 0xC67 0x02 0) ∧
    (¬ bad → exec (.pgctlWrite die v) s =
      .next (s.updPart p (fun x => { x with ranges := tset x.ranges i { r with valid := v.getLsbD 31 } }))) ∧
    (n < 3 → v.toNat < (s.part p).hard.getD n 0 → csrTraps (.tgrantWrite die n v) s (1024 + die) (0xC68 + n) 0x02 0) ∧
    (n < 3 → (s.part p).hard.getD n 0 ≤ v.toNat → exec (.tgrantWrite die n v) s =
      .next (s.updPart p (fun x => { x with tgrant := x.tgrant.set n v.toNat })))

end

/-! Pre-emption. -/
namespace Sys2Proof.Claims
open Sys2Proof Sys2Proof.Machine

/-- A CSR's value, 0 where it has none. -/
def csrNow (s : State) (k n : Nat) : Word := (csrImage s k n).getD 0

/-- PRECTL's STATUS and REASON of the asking core (R201). -/
def preSet (status reason : Nat) (c : Core) : Core := { c with sup := { c.sup with preStatus := status, preReason := reason } }

/-- The live access whose d is xn, n not 0 (R203). -/
def accessOn (c : Core) (n : XReg) : Option Access := if n.val = 0 then none else c.acc.find? (fun a => !a.dead && decide (a.d = .x n))

def isReceive (a : Access) : Bool := match a.op, a.st with | .recv _, .issued | .recvb _, .issued => true | _, _ => false

/-- Place of xn's receive among the core's pending receives, from 1 (R204). -/
def placeOf (c : Core) (n : XReg) : Nat := ((c.acc.filter (fun a => !a.dead && isReceive a)).findIdx (fun a => decide (a.d = .x n))) + 1

/-- Word j of the access record of xn (R203, R204). -/
def recordWord (c : Core) (n : XReg) (j : Nat) : Word :=
  match accessOn c n, j with
  | some a, 0 => match a.op, a.st with
    | .recvb _, .recorded _ addr _ => addr
    | .recvb _, .rearmed _ _ va => BitVec.ofNat 32 va
    | _, _ => a.addr
  | some a, 1 => a.instr
  | some a, 2 => a.b
  | some a, 3 => a.expected
  | some a, 4 => match a.st with | .recorded cause _ _ => BitVec.ofNat 32 cause | _ => 0
  | some a, 5 => if isReceive a then BitVec.ofNat 32 (placeOf c n) else 0
  | _, _ => 0

/-- The word of a save area at a byte offset (R157, R203). -/
def contextWord (s : State) (k off : Nat) : Word :=
  let c := s.core k
  if off < 0x5C then c.regs.x.toList.getD (off / 4 + 1) 0
  else if off = 0x5C then csrNow s k 0x008
  else if 0x60 ≤ off ∧ off < 0x7C then csrNow s k (0x010 + (off - 0x60) / 4)
  else if 0x100 ≤ off ∧ off < 0x2C0 then ((c.regs.q.toList.getD ((off - 0x100) / 64) []).getD ((off - 0x100) % 64 / 4) {}).w
  else if h : 0x300 ≤ off ∧ off < 0x5E0 then recordWord c ⟨(off - 0x300) / 32 + 1, by omega⟩ ((off - 0x300) % 32 / 4)
  else match off with
  | 0x7C => csrNow s k 0x021
  | 0x80 => c.pc
  | 0x84 => csrNow s k 0x020
  | 0x88 => csrNow s k 0x024
  | 0x8C => csrNow s k 0x030
  | 0x90 => csrNow s k 0x001
  | 0x94 => csrNow s k 0x002
  | 0x98 => csrNow s k 0x009
  | 0x9C => csrNow s k 0x00A
  | 0xA0 => ofBits (fun i => if h : i < 24 then (accessOn c ⟨i, h⟩).isSome else false)
  | 0xA4 => BitVec.ofNat 32 c.regs.poison.toNat
  | 0xA8 => csrNow s k 0x810
  | 0xAC => csrNow s k 0x501
  | 0xB0 => csrNow s k 0x005
  | _ => 0

/-- Four bytes from a scale latch, and element e of an array of rows of 512. -/
def latchWord (r : List Nat) : Word := BitVec.ofNat 32 (((List.range 4).map (fun b => r.getD b 0 % 256 * 2 ^ (8 * b))).sum)
def arrayWord (m : Mat) (e : Nat) : Word := (m.getD (e / 512) []).getD (e % 512) 0

/-- The word of the engine region at a byte offset, none in the device's own forms (R236, R283). -/
def engineAt (s : State) (k off : Nat) : Option Word :=
  let c := s.core k
  let m := c.mat.view
  if off < 0x100 then some (match off with
    | 0x00 => csrNow s k 0x100
    | 0x04 => csrNow s k 0x101
    | 0x08 => csrNow s k 0x104
    | 0x0C => csrNow s k 0x105
    | 0x10 => csrNow s k 0x106
    | 0x14 => csrNow s k 0x103
    | _ => 0)
  else if off < 0x300 then none
  else if off < 0x400 then some 0
  else if off < 0x4400 then some ((c.vec.v.toList.getD ((off - 0x400) / 0x400) []).getD (off % 0x400 / 4) {}).w
  else if off < 0x4428 then some (csrNow s k (0x200 + (off - 0x4400) / 4))
  else if off < 0x4440 then some (csrNow s k (0x210 + (off - 0x4428) / 4))
  else if off < 0x4500 then some (if off = 0x4440 then BitVec.ofNat 32 (m.acc0.count % 2 ^ 16 + m.acc1.count % 2 ^ 16 * 2 ^ 16) else 0)
  else if off < 0x4600 then
    some (BitVec.ofNat 32 (m.idx.getD (2 * ((off - 0x4500) / 4)) 0 + m.idx.getD (2 * ((off - 0x4500) / 4) + 1) 0 * 2 ^ 16))
  else if off < 0x4800 then some (latchWord (m.la.getD ((off - 0x4600) / 4) []))
  else if off < 0x5000 then some (latchWord (m.lb.getD ((off - 0x4800) / 4) []))
  else if off < 0xC800 then none
  else if off < 0x10000 then some 0
  else if off < 0x50000 then some (arrayWord m.acc0.el ((off - 0x10000) / 4))
  else if off < 0x90000 then some (arrayWord m.acc1.el ((off - 0x50000) / 4))
  else some (arrayWord (m.pp.getD ((off - 0x90000) / 0x40000) []) ((off - 0x90000) % 0x40000 / 4))

/-- The context can leave (R202, R204, R236). -/
def mayLeave (c : Core) : Prop :=
  c.priv = .task ∧ c.run = .running ∧ c.tr.imp = [] ∧ c.cnt.MX = 0 ∧ c.cnt.CP = 0 ∧ c.cnt.gl = 0 ∧ c.cnt.PS = 0 ∧ c.cnt.VX = 0 ∧
  c.vec.reneg = none ∧ c.hand = none ∧ (∀ q ∈ c.mat.queue, q.dead = true) ∧
  ∀ a ∈ c.acc, a.dead = true ∨ isReceive a = true ∨ (∃ cause addr d, a.st = .recorded cause addr d) ∨
    ∃ cause ready va, a.st = .rearmed cause ready va

/-- The n pages of a region: 25 of the engine region (R283), 50 of the image region (R203). -/
def regionPages (a : Word) (n : Nat) : List Nat := (List.range n).map (fun i => (a.toNat + 65536 * i) % 2 ^ 32)

/-- The physical address of byte n of a region. -/
def inRegion (pages : List Nat) (n : Nat) : Nat := pages.getD (n / 65536) 0 + n % 65536

end Sys2Proof.Claims

section
open Sys2Proof Sys2Proof.Machine Sys2Proof.Claims

/-- R201, R202, R207: PRECTL.SAVE of a core outside the partition traps PRIVILEGE; of one with no task, of a fenced one, or of one already asked,
it is refused with REASON 7, 2 or 1. Otherwise STATUS reads busy, and the target is asked to save at PREAREA with the region addresses
that the asker reads there. -/
def Sys2Proof.Claims.SavesAsked : Prop :=
  ∀ (s : State) (k : Nat),
    let c := s.core k
    let t := c.sup.presel
    let x := s.core t
    let refused (reason : Nat) : Prop := exec (.prectlSave k) s = .next (s.updCore k (preSet 3 reason))
    (s.corePart t ≠ s.corePart k → csrTraps (.prectlSave k) s k 0x892 0x06 0) ∧
    (s.corePart t = s.corePart k →
      (x.task = none → refused 7) ∧ (x.task ≠ none → x.fenced = true → refused 2) ∧
      (x.task ≠ none → x.fenced = false → x.saveReq ≠ none → refused 1) ∧
      (∀ pas s1 s2 bs p, x.task ≠ none → x.fenced = false → x.saveReq = none →
        let vas := (List.range 16).map (fun i => (c.sup.prearea.toNat + 0x7F0 + i) % 2 ^ 32)
        translateRun s (coreDie k) c.masid .load vas [] = (.inl pas, s1) → (∀ p ∈ pas, s1.ms.owned (p / 64) = false) →
        readMove s1 k c.pc (vas.zip pas) = (bs, p, s2) →
        let word (j : Nat) : Word := BitVec.ofNat 32 (number ((List.range 4).map (fun i => bs.getD (4 * j + i) 0)))
        exec (.prectlSave k) s = .next ((s2.updCore k (preSet 1 0)).updCore t (fun x => { x with
          saveReq := some ⟨k, c.sup.prearea, c.masid, word 0, word 2⟩, woken := true })))) 

/-- R202 to R205, R207, R236, R283: SAVE_COMPLETE refuses a fenced core with REASON 2; it waits while the context cannot leave. Then the save
area and the engine region hold the context, word by word, the two words that the supervisor wrote staying, and the image region and the check
word what a restore asks for; the queued messages go to the head of the rank's berth; STATUS is done; and the core is free, its grant released,
its outbound queue and the causes that waited gone with the context. -/
def Sys2Proof.Claims.Saves : Prop :=
  ∀ (s : State) (k : Nat) (r : SaveReq), (s.core k).saveReq = some r → r.asker ≠ k →
    let c := s.core k
    let i := Instr.saveComplete k
    (c.fenced = true → exec i s = .next ((s.updCore r.asker (preSet 3 2)).updCore k (fun c => { c with saveReq := none }))) ∧
    (c.fenced = false → c.task = none →
      exec i s = .next ((s.updCore r.asker (preSet 3 7)).updCore k (fun c => { c with saveReq := none }))) ∧
    (c.fenced = false → c.task ≠ none → c.priv ≠ .task ∨ c.tr.imp ≠ [] ∨ c.cnt.MX ≠ 0 ∨ c.cnt.CP ≠ 0 ∨ c.cnt.gl ≠ 0 ∨ c.cnt.PS ≠ 0 →
      exec i s = .next s) ∧
    (∀ base eng img s1 s2 s3, c.fenced = false → c.task ≠ none → mayLeave c →
      translateRun s (coreDie k) r.asid .store [r.area.toNat] [] = (.inl [base], s1) →
      translateRun s1 (coreDie k) r.asid .store (regionPages r.engine 25) [] = (.inl eng, s3) →
      translateRun s1 (coreDie k) r.asid .store (regionPages r.image 50) [] = (.inl img, s2) →
      let key := img.getD 0 0
      (∀ l, s2.ms.owned l = false) → tfind s2.saved key = none → base % 2048 = 0 → (eng ++ img).Nodup →
      (∀ p ∈ eng ++ img, p % 65536 = 0 ∧ p / 65536 ≠ base / 65536) →
      (∀ a, leafByte s2 a → a / 65536 ≠ base / 65536 ∧ ∀ p ∈ eng ++ img, a / 65536 ≠ p / 65536) →
      ∃ t, exec i s = .next t ∧
        (∀ j n, n < 511 → n ≠ 508 → n ≠ 510 → wordAt t.ms (.core j) (base + 4 * n) = contextWord s k (4 * n)) ∧
        (∀ j, wordAt t.ms (.core j) (base + 0x7F0) = wordAt s2.ms (.core j) (base + 0x7F0) ∧
          wordAt t.ms (.core j) (base + 0x7F8) = wordAt s2.ms (.core j) (base + 0x7F8)) ∧
        (∀ j n w, n < 0x64000 → engineAt s k (4 * n) = some w →
          wordAt t.ms (.core j) (inRegion eng (4 * n)) = w) ∧
        (∀ party a, ¬ (base ≤ a ∧ a < base + 2048) → (∀ p ∈ eng ++ img, a / 65536 ≠ p / 65536) → ¬ leafByte s2 a → t.ms.byteAt party a = s2.ms.byteAt party a) ∧
        t.core r.asker = preSet 2 0 (s.core r.asker) ∧ (∀ j, j ≠ k → j ≠ r.asker → t.core j = s.core j) ∧
        (∃ x, tfind t.saved key = some x ∧ x.core = k ∧ x.ctx.buf = c.buf ∧ x.ctx.out = c.out ∧ x.ctx.snap = c.snap ∧
          (∀ j, wordAt t.ms (.core j) (base + 0x7FC) = x.check) ∧
          ∀ j n, n < 0x320000 → t.ms.byteAt (.core j) (inRegion img n) = imageByte x.seed n) ∧
        (∀ rank, c.rank = some rank → (berthAt t (s.corePart k) rank).msgs =
          (c.recvq.map (·.2)).flatten ++ (berthAt s (s.corePart k) rank).msgs) ∧
        (t.core k).task = none ∧ (t.core k).run = .idle ∧ (t.core k).saveReq = none ∧ (t.core k).rank = none ∧ (t.core k).out = [] ∧
        (t.core k).buf = [] ∧ (t.core k).vec.grant = 0 ∧ (t.core k).recvq = [] ∧
        (t.core k).mat.waiting = none ∧ (t.core k).cpy.waiting = none ∧ (t.core k).gal.waiting = none ∧ (t.core k).fer.waiting = none ∧
        (t.core k).tr = c.tr ∧ (t.core k).sup = c.sup)

/-- R201, R206, R220, R236: PRECTL.RESTORE is refused, in the order of the REASON, on a fenced core, one not free, a region or check word that
does not match, another cluster, or a grant that is not to be had. Otherwise every register, queue, loop level and special register of the
core is what the area says, its engines and buffers are the saved ones, each record is an access of the core, recorded or to be issued
afresh, the rank is rebound, and the task goes on at the saved PC at task level; STATUS is done. -/
def Sys2Proof.Claims.Restores : Prop :=
  ∀ (s s1 s2 s3 s4 : State) (k : Nat) (pas eng img : List Nat) (bs : List Byte) (p : Bool),
    let c := s.core k
    let t := c.sup.presel
    let y := s.core t
    let vas := (List.range 2048).map (fun i => (c.sup.prearea.toNat + i) % 2 ^ 32)
    let w (off : Nat) : Word := BitVec.ofNat 32 (number ((List.range 4).map (fun i => bs.getD (off + i) 0)))
    let i := Instr.prectlRestore k
    let refused (reason : Nat) (s : State) : State := s.updCore k (preSet 3 reason)
    let quiet := y.mat.queue = [] ∧ y.cpy.queue = [] ∧ y.gal.queue = [] ∧ y.fer.queue = [] ∧ y.vec.seq = []
    let free := y.task = none ∧ y.run = .idle ∧ y.dbg.haltReq = false
    (s.corePart t ≠ s.corePart k → csrTraps i s k 0x892 0x06 0) ∧
    (s.corePart t = s.corePart k → y.fenced = true → exec i s = .next (refused 2 s)) ∧
    (s.corePart t = s.corePart k → y.fenced = false → ¬ free → exec i s = .next (refused 3 s)) ∧
    (s.corePart t = s.corePart k → y.fenced = false → free → ¬ quiet → exec i s = .next s) ∧
    (s.corePart t = s.corePart k → y.fenced = false → free → quiet →
      translateRun s (coreDie k) c.masid .load vas [] = (.inl pas, s1) → (∀ p ∈ pas, s1.ms.owned (p / 64) = false) →
      readMove s1 k c.pc (vas.zip pas) = (bs, p, s2) →
      translateRun s2 (coreDie k) c.masid .load (regionPages (w 0x7F8) 50) [] = (.inl img, s3) →
      translateRun s2 (coreDie k) c.masid .load (regionPages (w 0x7F0) 25) [] = (.inl eng, s4) →
      let key := img.getD 0 0
      (tfind s4.saved key = none → exec i s = .next (refused 4 s4)) ∧
      (∀ x, tfind s4.saved key = some x →
        let sound := x.check = w 0x7FC ∧ (∀ n, n < 0x64000 → wordAt s4.ms (.core k) (inRegion eng (4 * n)) = engineWord x.ctx x.seed n) ∧
          ∀ n, n < 0x320000 → s4.ms.byteAt (.core k) (inRegion img n) = imageByte x.seed n
        let have' := min (min (roundUp x.ctx.vec.grant) 256) (min y.vec.lim ((512 - heldByOthers s4 t) / 8 * 8))
        (¬ sound → exec i s = .next (refused 4 s4)) ∧
        (sound → x.core / 8 ≠ t / 8 → exec i s = .next (refused 5 s4)) ∧
        (sound → x.core / 8 = t / 8 → have' < x.ctx.vec.grant → x.ctx.vec.grant % 8 = 0 → y.vec.lim % 8 = 0 →
          exec i s = .next (refused 6 s4)) ∧
        (sound → x.core / 8 = t / 8 → x.ctx.vec.grant ≤ have' → x.ctx.vec.grant % 8 = 0 → y.vec.lim % 8 = 0 → t < 1024 → k ≠ t →
          s.pkg < 2 ^ 16 →
          ∃ t', exec i s = .next t' ∧
            let z := t'.core t
            let bind := (w 0xB0).getLsbD 31
            (∀ n : XReg, n.val ≠ 0 → z.regs.get n = w (4 * (n.val - 1)) ∧ z.regs.isFull n = (w 0x5C).getLsbD n.val) ∧
            z.loop0 = ⟨w 0x60, w 0x64, w 0x68, (w 0x78).getLsbD 0⟩ ∧ z.loop1 = ⟨w 0x6C, w 0x70, w 0x74, (w 0x78).getLsbD 1⟩ ∧
            z.up.pc = w 0x7C ∧ z.pc = w 0x80 ∧ z.up.vec = w 0x84 ∧ z.up.en = (w 0x88).getLsbD 1 ∧ z.up.inH = (w 0x88).getLsbD 0 ∧
            z.alignlim = fld (w 0x8C) 0 16 ∧ z.markin = w 0x94 ∧ z.stbase = w 0xAC ∧ z.regs.poison = BitVec.ofNat 24 (fld (w 0xA4) 1 23 * 2) ∧
            (∀ n : Fin 7, (z.regs.q[n]).map (·.w) = (List.range (min 16 (fld (w (0x98 + 4 * (n.val / 4))) (8 * (n.val % 4)) 8))).map
              (fun i => w (0x100 + 64 * n.val + 4 * i))) ∧
            (∀ (n : XReg) (d : Dst) (a : Src) (off : BitVec 15), n.val ≠ 0 → (w 0xA0).getLsbD n.val = true →
              let g (j : Nat) : Word := w (0x300 + 32 * (n.val - 1) + 4 * j)
              decodeWord (g 1) = .ok (.ldw d a off) →
              ∃ a ∈ z.acc, a.d = .x n ∧ a.op = .load 4 false ∧ a.addr = g 0 ∧ a.dead = false ∧
                (fld (g 4) 0 8 = 0 → a.st = if g 5 = 0 then .rearmed 0 true (g 0).toNat else .issued) ∧
                (fld (g 4) 0 8 ≠ 0 → ∃ detail, a.st = .recorded (fld (g 4) 0 8) (g 0) detail)) ∧
            z.task = x.ctx.task ∧ z.priv = .task ∧ z.run = .running ∧ z.buf = x.ctx.buf ∧ z.snap = x.ctx.snap ∧
            z.out = y.out ++ x.ctx.out ∧ (w 0x80 = x.ctx.pc → z.standing = x.ctx.standing) ∧
            z.vec.v = x.ctx.vec.v ∧ z.vec.grant = x.ctx.vec.grant ∧ z.mat = x.ctx.mat ∧ z.tr = y.tr ∧ z.sup = y.sup ∧
            (bind = true → z.rank = some (fld (w 0xB0) 0 24)) ∧ (t'.core k).sup = (preSet 2 0 c).sup ∧
            tfind t'.saved key = none ∧ (bind = false → ∀ j, j ≠ t → j ≠ k → t'.core j = s.core j))))

end

/-! Basins, lost dies, debug memory, the trace. -/
namespace Sys2Proof.Claims
open Sys2Proof Sys2Proof.Machine

/-- The cores of a rectangle of a die (R12, R13): core 8c + n of the die lies in row 2(c / 4) + n / 4 and column 4(c mod 4) + n mod 4. -/
def inRectangle (b : Basin) (die k : Nat) : Prop :=
  k / 128 = die ∧ b.rowlo ≤ 2 * (k % 128 / 8 / 4) + k % 8 / 4 ∧ 2 * (k % 128 / 8 / 4) + k % 8 / 4 ≤ b.rowhi ∧
  b.collo ≤ 4 * (k % 128 / 8 % 4) + k % 8 % 4 ∧ 4 * (k % 128 / 8 % 4) + k % 8 % 4 ≤ b.colhi

/-- The basin that a core has selected on its die (R197). -/
def basinAt (s : State) (die i : Nat) : Basin := tget (s.die die).basins {} i

/-- An idle core as R199 says. -/
def idleAfterReset (c : Core) : Prop :=
  c.run = .idle ∧ c.priv = .task ∧ c.fenced = false ∧ c.task = none ∧ (∀ n : XReg, c.regs.get n = 0 ∧ c.regs.isFull n = true) ∧
  (∀ n : Fin 7, c.regs.q[n] = []) ∧ c.held = [] ∧ c.dirty = [] ∧ c.recvq = [] ∧ c.rank = none ∧ c.buf = [] ∧ c.out = [] ∧ c.snap = [] ∧
  c.acc = [] ∧ c.tr.imp = [] ∧ c.vec.grant = 0

/-- A record of R317 in gallery class 0 of a die: a die block, and a service core, gives the producer 0x3FF. -/
def record0 (s : State) (die kind part code producer : Nat) (payload : List Word) : State :=
  let r : TRec := [BitVec.ofNat 32 (kind * 2 ^ 28 + part * 2 ^ 16 + code), BitVec.ofNat 32 (min producer 0x3FF), BitVec.ofNat 32 s.ck,
    BitVec.ofNat 32 (s.ck / 2 ^ 32)] ++ (payload ++ List.replicate 12 0).take 12
  let g := classAt s die 0
  let x : GRec := { cls := 0, src := 0x3FF, kind := 3, f := r }
  setClassAt die 0 { g with injq := g.injq ++ [x] } s

end Sys2Proof.Claims

section
open Sys2Proof Sys2Proof.Machine Sys2Proof.Claims

/-- R197: a write of BASIN that changes a field of a fenced basin, or defines a rectangle that takes in a core outside the partition, traps
PRIVILEGE; one with LO above HI or over another valid basin traps RESERVED_FIELD; any other sets the fields, and RESET does nothing. A
basin defined over cores that are fenced, every one of them, is fenced (the model's choice, log 84). -/
def Sys2Proof.Claims.BasinDefinitions : Prop :=
  ∀ (s : State) (k : Nat) (v : Word), k < 1024 →
    let die := coreDie k
    let i := (s.core k).sup.basinsel
    let x := basinAt s die i
    let y : Basin := { fenced := x.fenced, valid := v.getLsbD 29, rowhi := fld v 11 3, rowlo := fld v 8 3, colhi := fld v 4 4, collo := fld v 0 4 }
    let overlaps := ∃ b ∈ (s.die die).basins, b.1 ≠ i ∧ b.2.valid = true ∧ b.2.rowlo ≤ y.rowhi ∧ y.rowlo ≤ b.2.rowhi ∧ b.2.collo ≤ y.colhi ∧
      y.collo ≤ b.2.colhi
    let bad := y.valid = true ∧ (y.rowhi < y.rowlo ∨ y.colhi < y.collo ∨ overlaps)
    let outside := y.valid = true ∧ ∃ j, inRectangle y die j ∧ s.corePart j ≠ s.corePart k
    let e := Instr.basinDefine k v
    (x.fenced = true → y ≠ x → csrTraps e s k 0x8C1 0x06 0) ∧
    (x.fenced = true → y = x → v.getLsbD 30 = false → exec e s = .next s) ∧
    (x.fenced = false → bad → csrTraps e s k 0x8C1 0x02 0) ∧
    (x.fenced = false → ¬ bad → outside → csrTraps e s k 0x8C1 0x06 0) ∧
    (x.fenced = false → ¬ bad → ¬ outside →
      ∃ f, (f = true ↔ y.valid = true ∧ ∀ j, inRectangle y die j → (s.core j).fenced = true) ∧
        exec e s = .next (s.updDie die (fun d => { d with basins := tset d.basins i { y with fenced := f } })))

/-- R199: RESET of a fenced basin, and of no other, leaves every core of it idle with zero full registers, empty queues, nothing held, no
receive queue and no rank, and the basin unfenced; a task that stood there is ended, and its tile or item is to be placed again with the
mark it last reached while its launch runs, on this die, or for a tile whose die has been withdrawn on the lowest that remains. Cores elsewhere keep their registers. -/
def Sys2Proof.Claims.BasinResets : Prop :=
  ∀ (s : State) (k : Nat), k < 1024 →
    let die := coreDie k
    let i := (s.core k).sup.basinsel
    let x := basinAt s die i
    (x.fenced = false → exec (.basinReset k) s = .next s) ∧
    (x.fenced = true → ∃ t, exec (.basinReset k) s = .next t ∧ basinAt t die i = { x with fenced := false } ∧
      (∀ j, inRectangle x die j → idleAfterReset (t.core j)) ∧
      (∀ j, ¬ inRectangle x die j → (t.core j).regs = (s.core j).regs ∧ (t.core j).pc = (s.core j).pc ∧ (t.core j).run = (s.core j).run ∧
        (t.core j).task = (s.core j).task) ∧
      (∀ j a l, inRectangle x die j → (s.core j).task = some a → tfind s.launches a.launch = some l → l.done = false → l.status = 0 →
        let stays := a.flight ≠ 0 ∨ l.mask / 2 ^ die % 2 = 1
        ∃ m d, tfind t.launches a.launch = some m ∧ ⟨d, a.flight, a.row, a.col, a.item, (s.core j).marked⟩ ∈ m.again ∧ (stays → d = die) ∧
          (¬ stays → l.mask % 256 ≠ 0 → d < 8 ∧ l.mask / 2 ^ d % 2 = 1 ∧ ∀ e, e < d → l.mask / 2 ^ e % 2 = 0)))

/-- R91, R200: the loss of a die: it counts as lost, so every line homed there, as no line of host memory is, is lost; its cores hold nothing more and run no task; a launch
with a task there is LOST; a line homed elsewhere whose modified copy stood there is poisoned, and lost, with a final event at P of the
die for each of its bytes. Cores of other dies do not change, but for what their ferry commands await. -/
def Sys2Proof.Claims.DieLosses : Prop :=
  ∀ (s : State) (die : Nat),
    (8 ≤ die ∨ (s.die die).lost = true → exec (.dieLost die) s = .next s) ∧
    (die < 8 → (s.die die).lost = false → rising s.cores → rising s.launches → ∃ t, exec (.dieLost die) s = .next t ∧
      (t.die die).lost = true ∧ (∀ l, Config.homeDie (l / 1024) = die → s.ms.hostFrame (l / 1024) = false → t.lineLost l = true ∧ t.linePoison l = true) ∧
      (∀ j c, (j, c) ∈ s.cores → coreDie j = die → (t.core j).task = none ∧ (t.core j).run = .halted ∧ (t.core j).buf = [] ∧ (t.core j).out = [] ∧
        (t.core j).rank = none ∧ (t.core j).vec.grant = 0) ∧
      (∀ j, coreDie j ≠ die → t.core j = { s.core j with fer := (t.core j).fer }) ∧
      (∀ j c a l, (j, c) ∈ s.cores → coreDie j = die → c.task = some a → tfind s.launches a.launch = some l → l.status = 0 → l.done = false →
        l.refused = false → ∃ m, tfind t.launches a.launch = some m ∧ m.status = 5 ∧ m.again = []) ∧
      (∀ j c l, (j, c) ∈ s.cores → coreDie j = die → l ∈ c.dirty → Config.homeDie (l.2 / 1024) ≠ die ∨ s.ms.hostFrame (l.2 / 1024) = true → t.lineLost l.2 = true ∧
        t.linePoison l.2 = true ∧ ∀ i, i < 64 → ∃ e ∈ t.ms.hist, e.addr = l.2 * 64 + i ∧ e.scope = .P ∧ e.origin = .die die) ∧
      (∀ x ∈ t.saved, coreDie x.2.core ≠ die) ∧ (s.viralEn = true → t.viral = true))

/-- R209, R212: DBGMDATA reads at DBGMADDR as the core loads, and writes there with Publish(P) and a drain; a misaligned address traps. A
write of DBGICINV publishes and drains, and is pending; it completes with the line out of every instruction cache and fetch buffer of
the partition. A debugger is admitted with the permission of the core's owner alone. -/
def Sys2Proof.Claims.DebugMemory : Prop :=
  ∀ (s : State) (k : Nat) (v : Word),
    let c := s.core k
    let va := c.dbg.maddr
    let quiet (s : State) : Prop := (s.core k).readsDone = true ∧ s.ms.own = [] ∧ s.ms.moves = [] ∧ s.viral = false
    let admits := 48 ≤ s.corePart k ∨ (s.part (s.corePart k)).debug = true
    (¬ admits → exec (.dbgmdataRead k) s = .next s ∧ exec (.dbgmdataWrite k v) s = .next s ∧ exec (.dbgicinvWrite k v) s = .next s) ∧
    (admits → va.toNat % 4 ≠ 0 → csrTraps (.dbgmdataRead k) s k 0x611 0x04 va ∧ csrTraps (.dbgmdataWrite k v) s k 0x611 0x04 va) ∧
    (∀ pa host s1, admits → va.toNat % 4 = 0 → pa % 4 = 0 → translate s (coreDie k) c.masid va.toNat .load = (.ok pa host, s1) →
      s1.ms.owned (pa / 64) = false →
      ∃ t, exec (.dbgmdataRead k) s = .next t ∧
        csrRead k 0x611 s = .ok (BitVec.ofNat 32 (number ((List.range 4).map (fun i => (readsByte s1 k (va.toNat + i) (pa + i)).1)))) t ∧
        (∀ j, j ≠ k → t.core j = s.core j) ∧ t.ms = s1.ms ∧ (t.core k).regs = c.regs ∧ (t.core k).pc = c.pc ∧ (t.core k).buf = c.buf) ∧
    (∀ pa host s1, admits → va.toNat % 4 = 0 → pa % 4 = 0 → translate s (coreDie k) c.masid va.toNat .store = (.ok pa host, s1) → quiet s1 →
      c.fenced = false → (∀ i, i < 4 → ¬ leafByte s1 (pa + i)) →
      ∃ t, exec (.dbgmdataWrite k v) s = .next t ∧ (t.core k).buf = [] ∧ (t.core k).out = [] ∧ (t.core k).regs = c.regs ∧
        (t.core k).pc = c.pc ∧ (∀ i, i < 4 → t.ms.byteAt (.core k) (pa + i) = (bytesLE 4 v.toNat).getD i 0)) ∧
    (admits → c.dbg.icinv ≠ none → exec (.dbgicinvWrite k v) s = .next s) ∧
    (admits → c.dbg.icinv = none → quiet s → ∃ t, exec (.dbgicinvWrite k v) s = .next t ∧ (t.core k).dbg.icinv = some v ∧ (t.core k).buf = [] ∧
      (t.core k).out = [] ∧ (t.core k).regs = c.regs) ∧
    (c.dbg.icinv = none → exec (.dbgicinvComplete k) s = .next s) ∧
    (∀ a, c.dbg.icinv = some a → ∃ t, exec (.dbgicinvComplete k) s = .next t ∧ (t.core k).dbg.icinv = none ∧ t.ms = s.ms ∧
      (∀ n, t.cluster n = if ((s.cluster n).part).getD 63 = s.corePart k then
        { s.cluster n with icache := (s.cluster n).icache.filter (fun l => l.2.1 != a.toNat / 64) } else s.cluster n) ∧
      (∀ j, j ≠ k → t.core j = if s.corePart j = s.corePart k then
        { s.core j with fbuf := (s.core j).fbuf.filter (fun w => w.1 / 64 != a.toNat / 64) } else s.core j))

/-- R214, R317, R318: the encoder's oldest record enters class 0 of its die as telemetry of kind trace, with its producer, ck and words; with
none, or with class 0 full, nothing happens. -/
def Sys2Proof.Claims.TraceDrains : Prop :=
  ∀ (s : State) (k : Nat), coreDie k < 8 →
    ((s.core k).dbg.trace = [] → exec (.traceDrain k) s = .next s) ∧
    (64 ≤ (classAt s (coreDie k) 0).injq.length → exec (.traceDrain k) s = .next s) ∧
    (∀ r rest, (s.core k).dbg.trace = r :: rest → (classAt s (coreDie k) 0).injq.length < 64 →
      exec (.traceDrain k) s = .next (record0 (s.updCore k (fun c => { c with dbg := { c.dbg with trace := rest } })) (coreDie k) 1 (s.corePart k)
        r.code k r.words))

end

/-! Work queues and dispatchers. -/
namespace Sys2Proof.Claims
open Sys2Proof Sys2Proof.Machine

def queueAt (s : State) (q : Nat) : WorkQueue := tget s.queues {} q
def setQueueAt (q : Nat) (w : WorkQueue) (s : State) : State := { s with queues := tset s.queues q w }
def setLaunchAt (l : Nat) (x : Launch) (s : State) : State := { s with launches := tset s.launches l x }

/-- Word i of a record, its bits from lo, and the flight and level counts (R89). -/
def rec' (w : Nat → Word) (i lo len : Nat) : Nat := fld (w i) lo len

/-- Total rows and columns (R90). -/
def rowsOf (w : Nat → Word) : Nat := ((List.range (rec' w 0 8 8)).map (fun i => rec' w (8 + 2 * i) 0 16)).prod
def colsOf (w : Nat → Word) : Nat := ((List.range (rec' w 0 8 8)).map (fun i => rec' w (8 + 2 * i) 16 16)).prod

/-- FORMAT of R91 holds. -/
def formatHolds (w : Nat → Word) : Prop :=
  let f := rec' w 0 16 8
  let l := rec' w 0 8 8
  rec' w 0 24 8 = 1 ∧ 1 ≤ f ∧ f ≤ 8 ∧ 1 ≤ l ∧ l ≤ 8 ∧ rec' w 0 0 5 = 0 ∧
  rec' w 2 8 8 = 0 ∧ rec' w 2 21 3 = 0 ∧ rec' w 2 28 4 = 0 ∧ rec' w 2 16 5 ≤ 16 ∧ (rec' w 2 24 4 ≤ 8 ∨ rec' w 2 24 4 = 15) ∧
  (∀ i, 4 ≤ i → i < 8 → w i = 0) ∧ (∀ i, 56 ≤ i → i < 64 → w i = 0) ∧
  (∀ i, i < l → 1 ≤ rec' w (8 + 2 * i) 0 16 ∧ 1 ≤ rec' w (8 + 2 * i) 16 16 ∧ rec' w (9 + 2 * i) 2 30 = 0) ∧
  (∀ i, l ≤ i → i < 8 → w (8 + 2 * i) = 0 ∧ w (9 + 2 * i) = 0) ∧
  (∀ i, i < f → rec' w (24 + 4 * i) 0 2 = 0 ∧ rec' w (26 + 4 * i) 13 19 = 0 ∧ w (27 + 4 * i) = 0 ∧
    (i + 1 < f → 1 ≤ rec' w (26 + 4 * i) 0 13 ∧ rec' w (26 + 4 * i) 0 13 ≤ 4096)) ∧
  (∀ i j, f ≤ i → i < 8 → j < 4 → w (24 + 4 * i + j) = 0)

/-- Clusters of a live die that a partition owns; how many of them a request takes (R89, R91). -/
def owned (s : State) (part die : Nat) : List Nat :=
  if (s.die die).lost then [] else ((List.range 16).map (· + 16 * die)).filter (fun c => decide ((s.cluster c).part = some part))
def taken (s : State) (part die req : Nat) : Nat := if req = 0 then (owned s part die).length else min req (owned s part die).length

/-- PLACE of R91 holds: a die mask of dies where the partition has clusters, each with at least F cores. -/
def placeHolds (s : State) (part mask : Nat) (w : Nat → Word) : Prop :=
  mask ≠ 0 ∧ ∀ d, d < 8 → mask / 2 ^ d % 2 = 1 → owned s part d ≠ [] ∧ min (rec' w 0 16 8) 8 ≤ 8 * taken s part d (rec' w 2 16 5)

/-- The launch of a record that holds (R89): its ident, priority at most the ceiling, levels and flights. -/
def launchOf (w : Nat → Word) (src : LaunchSrc) (part asid ceiling mask status : Nat) (bound : List (Nat × Nat × Nat)) : Launch :=
  let levels : List Level := (List.range (min (rec' w 0 8 8) 8)).map (fun i =>
    ⟨rec' w (8 + 2 * i) 16 16, rec' w (8 + 2 * i) 0 16, rec' w (9 + 2 * i) 0 2⟩)
  let flights : List Flight := (List.range (min (rec' w 0 16 8) 8)).map (fun i => ⟨w (24 + 4 * i), w (25 + 4 * i), rec' w (26 + 4 * i) 0 13⟩)
  { src, part, asid, ident := w 1, prio := min (rec' w 0 5 3) ceiling, cache := rec' w 2 24 4, clustersReq := rec' w 2 16 5, doneAddr := w 3,
    levels, flights, mask, status, refused := decide (status ≠ 0), bound }

/-- Bytes of words in order, at translated addresses. -/
def putWords (pas : List Nat) (ws : List Word) : List (Nat × Byte) := pas.zip ((ws.map (fun w => bytesLE 4 w.toNat)).flatten)

/-- The launches that queue q gave before its head is read afresh are no copies of what it gives from then on (R98). -/
def forgotten (q : Nat) (s : State) : State :=
  { s with launches := s.launches.map (fun (l : Nat × Launch) => match l.2.src with
    | .queue n _ => if n = q then (l.1, { l.2 with seen := false }) else l
    | .child _ _ _ _ => l) }

/-- One record is taken from queue q: its slot read at H by the leader, distributed unless the queue and slot name a launch already that is
under way and was taken since the queue was enabled; head and then its mirror advanced (R98, R99). -/
def takes (q : Nat) (s t : State) : Prop :=
  ∃ pas mirror s1 s2 ls n bound, let wq := queueAt s q
    let w (i : Nat) : Word := wordOf ((List.range 4).map (fun j => s1.ms.byteAt (.die s.leader) (pas.getD (4 * i + j) 0)))
    let src : LaunchSrc := .queue q wq.head.toNat
    let slot := (wq.base.toNat + 256 * (wq.head.toNat % 2 ^ wq.log)) % 2 ^ 32
    translateRun s s.leader wq.asid .load ((List.range 256).map (fun i => (slot + i) % 2 ^ 32)) [] = (.inl pas, s1) ∧
    (∀ p ∈ pas, s1.ms.owned (p / 64) = false) ∧
    ((∃ l ∈ s1.launches, l.2.src = src ∧ l.2.seen = true ∧ l.2.done = false) → ls = s1.launches ∧ n = s1.nextLaunch) ∧
    ((∀ l ∈ s1.launches, l.2.src = src → l.2.seen = true → l.2.done = true) → n = s1.nextLaunch + 1 ∧ ls = tset s1.launches s1.nextLaunch
      (launchOf w src (wq.part.getD 63) wq.asid wq.prio (rec' w 2 0 8) (recordStatus s1 (wq.part.getD 63) ((List.range 64).map w) (rec' w 2 0 8)) bound)) ∧
    translateRun (setQueueAt q { wq with head := wq.head + 1 } { s1 with launches := ls, nextLaunch := n }) s1.leader wq.asid .store
      ((List.range 4).map (fun i => (wq.heada.toNat + i) % 2 ^ 32)) [] = (.inl mirror, s2) ∧
    (∀ p ∈ mirror, s2.ms.owned (p / 64) = false) ∧
    t = s2.updMs (fun m => m.put (putWords mirror [wq.head + 1]) .H (.die s1.leader) none) ∧
    (rec' w 9 0 2 ≠ 1 → bound = [])

/-- A core just free takes a task: R87, and R265, R372, R391 for its engines and window. -/
def entered (s t : State) (k : Nat) (x : Launch) (l flight row col : Nat) (item : List Word) (mark : Word) : Prop :=
  let c := t.core k
  let f := (x.flights[flight]?).getD ⟨0, 0, 0⟩
  let cols := (x.levels.map (·.cols)).prod
  c.pc = f.entry ∧ c.regs.get 1 = BitVec.ofNat 32 (row * cols + col) ∧ c.regs.get 2 = f.arg ∧
  c.regs.get 3 = BitVec.ofNat 32 (row % 2 ^ 16 * 2 ^ 16 + col % 2 ^ 16) ∧ (∀ n : XReg, 4 ≤ n.val → c.regs.get n = 0) ∧
  (∀ n : XReg, c.regs.isFull n = true) ∧ (∀ n : Fin 7, c.regs.q[n] = []) ∧ c.loop0.active = false ∧ c.loop1.active = false ∧
  c.up.en = false ∧ c.up.inH = false ∧ c.vec.grant = 0 ∧ c.buf = [] ∧ c.snap = [] ∧ c.markin = mark ∧ c.masid = x.asid ∧
  c.stbase = (s.core k).stdef ∧ c.priv = .task ∧ c.run = .running ∧ (x.cache ≠ 15 → c.cache = x.cache) ∧
  (x.cache = 15 → c.cache = (s.core k).cache) ∧ c.out = (s.core k).out ∧ c.tr = (s.core k).tr ∧ c.rank = (s.core k).rank ∧
  (∃ a, c.task = some a ∧ a.launch = l ∧ a.flight = flight ∧ a.row = row ∧ a.col = col ∧ a.item = item ∧ a.takes = 0) ∧
  (∀ j, j ≠ k → t.core j = s.core j) ∧ t.ms = s.ms

/-- A launch's part on a die (R99, R431): its handle there, its clusters, its landing instances empty. -/
def newPart (s : State) (die : Nat) (x : Launch) (handle : Nat) : DiePart :=
  let clusters := (owned s x.part die).take (taken s x.part die x.clustersReq)
  { handle, clusters, landings := List.replicate (x.flights.length - 1) [], waitSince := s.ck }

/-- What flight f offers a core of the launch (R95): a tile of its share, or an item of the landing before it; its score as a fraction. -/
def offers (x : Launch) (p : DiePart) (k f : Nat) : Prop :=
  f < x.flights.length ∧ (f = 0 → x.tileFor k ≠ none) ∧ (f ≠ 0 → p.landings.getD (f - 1) [] ≠ [])
def landed (p : DiePart) (f : Nat) : Nat := (p.landings.getD f []).length
def depthOf (x : Launch) (f : Nat) : Nat := (x.flights[f]?.map (·.depth)).getD 1
/-- Its output landing is at least 7/8 full. -/
def crowded (x : Launch) (p : DiePart) (f : Nat) : Prop := f + 1 < x.flights.length ∧ 7 * depthOf x f ≤ 8 * landed p f
/-- Flight f scores at most flight g. -/
def scoresUnder (x : Launch) (p : DiePart) (f g : Nat) : Prop :=
  let num (f : Nat) := if f = 0 then 1 else landed p (f - 1)
  let den (f : Nat) := if f = 0 then 1 else max 1 (depthOf x (f - 1))
  num f * den g ≤ num g * den f

/-- The cores of launch l's on the die of core k, with k among them, and R96 for one more of them at flight f. -/
def withCore (s : State) (l k : Nat) (p : DiePart) : List Nat :=
  if k ∈ s.launchCores l p then s.launchCores l p else k :: s.launchCores l p
def leavesReserve (s : State) (l k : Nat) (x : Launch) (p : DiePart) (f : Nat) : Prop := s.keepsReserve l x (withCore s l k p) f 1 = true

/-- What is to be placed again may start on core k: on its die, a tile only while the die is in the mask, and where its blocks and its cluster's
other tiles let it (R101, R218, R434). -/
def placeable (x : Launch) (k : Nat) (a : Again) : Prop :=
  a.die = coreDie k ∧ (a.flight ≠ 0 ∨ x.mask / 2 ^ coreDie k % 2 = 1 ∧ x.fits k a.row a.col = true)

/-- The launch is complete (R92, R183), or has ended early with nothing of it left. -/
def atBoundary (s : State) (l : Nat) (x : Launch) : Prop :=
  x.running = 0 ∧ (∀ p ∈ x.parts, ∀ q ∈ p.2.landings, q = []) ∧
  (x.status ≠ 0 ∨ (x.levels.map (·.rows)).prod * (x.levels.map (·.cols)).prod ≤ x.started.length ∧ x.again = []) ∧
  (∀ k ∈ x.cores, let c := s.core k
    (∀ e sc, OutItem.entry e sc ∈ c.out → e.launch ≠ some l) ∧ (∀ sc, OutItem.mark sc (some l) ∉ c.out) ∧
    (∀ q ∈ c.mat.queue ++ c.cpy.queue ++ c.gal.queue ++ c.fer.queue, q.launch ≠ some l) ∧
    (∀ e ∈ c.vec.seq, e.launch ≠ some l) ∧ ∀ a ∈ c.acc, a.launch ≠ some l) ∧
  (∀ d ∈ s.dies, ∀ c ∈ d.2.gal.cls, ∀ r ∈ c.2.exitq, ∀ f, r.land ≠ some (l, f)) ∧
  ∀ c ∈ s.launches, c.2.done = false → ∀ d h t, c.2.src ≠ .child d h t l

end Sys2Proof.Claims

section
open Sys2Proof Sys2Proof.Machine Sys2Proof.Claims

/-- R89, R91: a record's status is FORMAT, SHAPE or PLACE, the first of them that does not hold, else 0. -/
def Sys2Proof.Claims.RecordStatus : Prop :=
  ∀ (s : State) (part mask : Nat) (ws : List Word),
    let w (i : Nat) : Word := ws.getD i 0
    (¬ formatHolds w → recordStatus s part ws mask = 1) ∧
    (formatHolds w → 65536 < rowsOf w ∨ 65536 < colsOf w → recordStatus s part ws mask = 2) ∧
    (formatHolds w → rowsOf w ≤ 65536 → colsOf w ≤ 65536 → ¬ placeHolds s part mask w → recordStatus s part ws mask = 3) ∧
    (formatHolds w → rowsOf w ≤ 65536 → colsOf w ≤ 65536 → placeHolds s part mask w → recordStatus s part ws mask = 0)

/-- R97, R98: WQCTL with LOGSIZE outside 4 to 12 traps RESERVED_FIELD, and one that enables a queue in an address space of another partition
PRIVILEGE (the model's choice, log 36); else it sets the queue's fields, 1 to ERR clearing it, and reads the head mirror where it enables the
queue, a mirror that does not translate giving a free value (log 82). A store to the tail of an enabled queue makes a healthy leader read it:
a tail too far ahead sets ERR and disables the queue; else every record from head to tail is taken, in order. A queue that is not enabled is
left alone. -/
def Sys2Proof.Claims.WorkQueues : Prop :=
  (∀ (s : State) (k : Nat) (v : Word),
    let q := (s.core k).sup.wqsel
    let w := queueAt s q
    let w' : WorkQueue := { w with
      asid := fld v 16 16, err := w.err && !v.getLsbD 8, en := v.getLsbD 7, prio := fld v 4 3, log := fld v 0 4 }
    (fld v 0 4 < 4 ∨ 12 < fld v 0 4 → csrTraps (.wqctlWrite k v) s k 0x884 0x02 0) ∧
    let mine := (s.core k).priv = .service ∨ tget s.ms.asidPart 63 (fld v 16 16) = s.corePart k
    (4 ≤ fld v 0 4 → fld v 0 4 ≤ 12 → v.getLsbD 7 = true → ¬ mine → csrTraps (.wqctlWrite k v) s k 0x884 0x06 0) ∧
    (4 ≤ fld v 0 4 → fld v 0 4 ≤ 12 → v.getLsbD 7 = false ∨ (mine ∧ w.en = true) → exec (.wqctlWrite k v) s = .next (setQueueAt q w' s)) ∧
    (∀ r s1, 4 ≤ fld v 0 4 → fld v 0 4 ≤ 12 → v.getLsbD 7 = true → mine → w.en = false → w.heada.toNat % 4 = 0 →
      translate (forgotten q (setQueueAt q w' s)) s.leader w'.asid w.heada.toNat .load = (r, s1) →
      (∀ pa host, r = .ok pa host → s1.ms.owned (pa / 64) = false →
        exec (.wqctlWrite k v) s = .next (setQueueAt q { w' with head := wordAt s1.ms (.die s.leader) pa } s1)) ∧
      (∀ cause detail, r = .bad cause detail →
        ∃ h, exec (.wqctlWrite k v) s = .next (setQueueAt q { w' with head := h } { s1 with fresh := s1.fresh + 1 })))) ∧
  (∀ (s : State) (q : Nat), (∀ w, tfind s.queues q = some w → w.en = false) ∨ (s.die s.leader).lost = true ∨ (s.die s.leader).failed = true →
    exec (.wqTailStore q) s = .next s) ∧
  (∀ (s s1 : State) (q pa : Nat) (host : Bool) (w : WorkQueue), tfind s.queues q = some w → w.en = true →
    (s.die s.leader).lost = false → (s.die s.leader).failed = false → w.taila.toNat % 4 = 0 →
    translate s s.leader w.asid w.taila.toNat .load = (.ok pa host, s1) → s1.ms.owned (pa / 64) = false →
    let ahead := (wordAt s1.ms (.die s.leader) pa - w.head).toNat
    (2 ^ w.log < ahead → exec (.wqTailStore q) s = .next (setQueueAt q { w with err := true, en := false } s1)) ∧
    (∀ f : Nat → State, ahead ≤ 2 ^ w.log → f 0 = s1 → (∀ i, i < ahead → takes q (f i) (f (i + 1))) →
      exec (.wqTailStore q) s = .next (f ahead)))

/-- R87, R93, R96, R101, R434: a free core of a live die, served by a launch, becomes one of the launch's and enters its next task there: one
that must be placed again, with its mark; or, of the flight chosen, the tile of lowest linear index in its share, whose unbound blocks it
binds, or the oldest item of the landing; or it stays idle in the launch's reserve. A core that is not free, or that another launch is to
serve, is left alone. -/
def Sys2Proof.Claims.TaskEntries : Prop :=
  ∀ (s : State) (k l : Nat) (x : Launch) (p : DiePart), k < 1024 → tfind s.launches l = some x → x.partFor k = some p → coreDie k < 8 →
    let e := Instr.dispatchAssign k l
    let free := (s.core k).task = none ∧ (s.core k).run = .idle ∧ (s.core k).fenced = false ∧ (s.core k).dbg.haltReq = false ∧
      (s.die (coreDie k)).lost = false
    let ours (m : Launch) : Prop := ∃ q, tfind m.parts (coreDie k) = some q ∧ k ∈ q.assigned
    let binds (m : Launch) (row col : Nat) : Prop := (∀ b ∈ x.bound, b ∈ m.bound) ∧ ∀ i v, x.levels[i]? = some v → v.place ≠ 0 →
      ∃ b, b ∈ m.bound ∧ b.1 = i ∧ b.2.1 = x.blockAt i row col
    let fits (flight row col : Nat) (item : List Word) (mark : Word) (x' : Launch → Prop) : Prop :=
      ∃ t, exec e s = .next t ∧ entered s t k x l flight row col item mark ∧ t.nextTask = s.nextTask + 1 ∧
        ∃ m, tfind t.launches l = some m ∧ m.running = x.running + 1 ∧ k ∈ m.cores ∧ ours m ∧ x' m
    (¬ free ∨ nextLaunchFor s k ≠ some l → exec e s = .next s) ∧
    (free → nextLaunchFor s k = some l →
      (∀ n a, workFor s l x k = some (.again n a) →
        fits a.flight a.row a.col a.item a.mark (fun m => m.again = x.again.eraseIdx n ∧ (a.flight = 0 → binds m a.row a.col))) ∧
      (∀ n, workFor s l x k = some (.flight 0) → x.tileFor k = some n →
        let cols := (x.levels.map (·.cols)).prod
        fits 0 (n / cols) (n % cols) [] 0 (fun m => m.started = n :: x.started ∧ binds m (n / cols) (n % cols))) ∧
      (∀ f w item rest, 0 < f → workFor s l x k = some (.flight f) → p.landings[f - 1]? = some ((w :: item) :: rest) →
        fits f (w.toNat / 2 ^ 16) (w.toNat % 2 ^ 16) item 0 (fun m => ∃ p', tfind m.parts (coreDie k) = some p' ∧
          p'.landings[f - 1]? = some rest ∧ ∀ j, j ≠ f - 1 → p'.landings[j]? = p.landings[j]?)) ∧
      (workFor s l x k = some .reserve → ∃ t m, exec e s = .next t ∧ t.cores = s.cores ∧ t.ms = s.ms ∧ tfind t.launches l = some m ∧ ours m))

/-- R95, R96, R100, R101, R434, R218: what the dispatcher chooses: what is to be placed again and leaves the reserve (the model's order, log 80),
then a flight that has work and leaves the reserve, whose output landing is not 7/8 full unless all are, of the highest score, the higher
number on a tie, or a place in the reserve; no core that another launch keeps; the lowest tile of the core's share, not started, whose placed
blocks are bound to no other unit; a launch that starves before the rest, else one of the highest priority that has work for the core, the
next in turn of these. -/
def Sys2Proof.Claims.DispatchChoices : Prop :=
  (∀ (k f : Nat) (x : Launch) (p : DiePart) (ok : Nat → Bool), pickFlight x p k ok = some f →
    let able (g : Nat) : Prop := offers x p k g ∧ ok g = true
    able f ∧ ((∃ g, able g ∧ ¬ crowded x p g) → ¬ crowded x p f) ∧
    ∀ g, able g → (crowded x p f ∨ ¬ crowded x p g) → scoresUnder x p g f ∧ (scoresUnder x p f g → g ≤ f)) ∧
  (∀ (k : Nat) (x : Launch) (p : DiePart) (ok : Nat → Bool), pickFlight x p k ok = none → ∀ g, ¬ (offers x p k g ∧ ok g = true)) ∧
  (∀ (s : State) (l f n : Nat) (x : Launch) (ks : List Nat), s.keepsReserve l x ks f n = true ↔
    (x.flights.length - 1 - f) + (ks.filter (fun k => match (s.core k).task with
      | some t => t.launch == l && t.flight ≤ f
      | none => false)).length + n ≤ ks.length) ∧
  (∀ (s : State) (k l : Nat), s.canTake k l = true ↔ ∀ m ∈ s.launches, m.1 = l ∨ m.2.done = true ∨ ∀ p, tfind m.2.parts (coreDie k) = some p →
    k ∈ s.launchCores m.1 p → ∀ f, f < m.2.flights.length → (∃ j ∈ s.launchCores m.1 p, ∃ t, (s.core j).task = some t ∧ t.launch = m.1 ∧ t.flight = f) →
      s.keepsReserve m.1 m.2 ((s.launchCores m.1 p).erase k) f 0 = true) ∧
  (∀ (s : State) (k l : Nat) (x : Launch) (p : DiePart), x.partFor k = some p → x.done = false → x.refused = false → x.status ≠ 4 →
    s.canTake k l = true →
    let able (a : Again) : Prop := placeable x k a ∧ leavesReserve s l k x p a.flight
    (∀ n a, workFor s l x k = some (.again n a) → x.again[n]? = some a ∧ able a ∧ ∀ m b, m < n → x.again[m]? = some b → ¬ able b) ∧
    (∀ f, workFor s l x k = some (.flight f) → (∀ a ∈ x.again, ¬ able a) ∧
      ∃ ok : Nat → Bool, (∀ g, ok g = true ↔ leavesReserve s l k x p g) ∧ pickFlight x p k ok = some f) ∧
    (workFor s l x k = some .reserve → k ∉ p.assigned ∧ (∀ a ∈ x.again, ¬ able a) ∧
      (∀ f, offers x p k f → ¬ leavesReserve s l k x p f) ∧ ((∃ a ∈ x.again, placeable x k a) ∨ ∃ f, offers x p k f))) ∧
  (∀ (x : Launch) (k n : Nat), x.tileFor k = some n →
    let cols := (x.levels.map (·.cols)).prod
    n < (x.levels.map (·.rows)).prod * cols ∧ n ∉ x.started ∧ x.status = 0 ∧ x.mask / 2 ^ coreDie k % 2 = 1 ∧ (∀ m, m < n → x.inShare k m = false) ∧
    ∀ i v b, x.levels[i]? = some v → b ∈ x.bound → b.1 = i → b.2.1 = x.blockAt i (n / cols) (n % cols) →
      (v.place = 1 → b.2.2 = k / 128 ∨ 1024 ≤ k) ∧ (v.place = 2 → b.2.2 = k / 8) ∧ (v.place = 3 → b.2.2 = k)) ∧
  (∀ (s : State) (k l : Nat), rising s.launches → nextLaunchFor s k = some l →
    ∃ x, tfind s.launches l = some x ∧ x.part = s.corePart k ∧ (workFor s l x k).isSome = true ∧
      ((∃ p, x.partFor k = some p ∧ p.starved = true) ∨ ∀ m y, tfind s.launches m = some y → y.part = s.corePart k →
        (workFor s m y k).isSome = true → y.prio ≤ x.prio ∧ (y.prio = x.prio →
          let last := tget (s.die (coreDie k)).lastTurn 0 (8 * x.part + x.prio)
          (last < l → last < m → l ≤ m) ∧ (l ≤ last → m ≤ last ∧ l ≤ m))))

/-- R92, R102, R183: a launch not at its boundary waits. At it, one move widens every event of the launch to P, or to H for a launch from a work
queue, empties the snapshots of its cores, writes status and ID at DONEADDR at that scope, and marks it complete; a child gives its parent,
still running, its notice in q6. Before that, nothing of the launch is in flight: no store or mark in an outbound queue, no command, no access. -/
def Sys2Proof.Claims.KernelBoundaries : Prop :=
  ∀ (s : State) (l : Nat) (x : Launch), tfind s.launches l = some x →
    let e := Instr.kernelBoundary l
    let queue := ∃ q slot, x.src = .queue q slot
    (x.done = true ∨ ¬ atBoundary s l x → exec e s = .next s) ∧
    (∀ sc, x.done = false → atBoundary s l x → (queue → sc = .H) → (¬ queue → sc = .P) →
      let hist := s.ms.hist.map (fun e => if e.launch = some l ∧ scopeRank e.scope < scopeRank sc then { e with scope := sc } else e)
      let frame (t : State) : Prop :=
        tfind t.launches l = some { x with done := true } ∧
        (∀ k, ∃ q, t.core k = { s.core k with
          snap := if k ∈ x.cores then [] else (s.core k).snap, regs := q, notices := (t.core k).notices, woken := (t.core k).woken }) ∧
        (queue → ∀ k, (t.core k).regs = (s.core k).regs) ∧
        (∀ die h task parent k, x.src = .child die h task parent → rising s.cores → (∃ a, (s.core k).task = some a ∧ a.uid = task) →
          (∀ j a, (s.core j).task = some a → a.uid = task → j = k) →
          (t.core k).regs = (pushed 6 (BitVec.ofNat 32 (h + x.status * 2 ^ 16)) (s.core k)).regs ∧
            (t.core k).notices = (s.core k).notices ++ [(die, h)] ∧ ∀ j, j ≠ k → (t.core j).regs = (s.core j).regs)
      (x.doneAddr = 0 → ∃ t, exec e s = .next t ∧ t.ms = { s.ms with hist } ∧ frame t) ∧
      (∀ pas s1, x.doneAddr ≠ 0 → translateRun { s with ms := { s.ms with hist } } s.leader x.asid .store
          ((List.range 8).map (fun i => (x.doneAddr.toNat + i) % 2 ^ 32)) [] = (.inl pas, s1) → (∀ p ∈ pas, s1.ms.owned (p / 64) = false) →
        ∃ t, exec e s = .next t ∧ frame t ∧
          t.ms = s1.ms.put (putWords pas [BitVec.ofNat 32 x.status, x.ident]) sc (.die s.leader) none))

/-- R92, R99 to R101, R178, R199, R431: a die of the mask takes its part of a launch once, with a handle that is free there, and again when it
comes back, with the handle it had; it starves after 2^26 ck without a core; a new die set waits for the next MARK; a withdrawn die leaves when
its landings are empty, it runs no task and none is to be placed again there, its handle still taken. Cancelling ends the tasks as aborted. The lowest healthy die leads, elected when the leader is lost. -/
def Sys2Proof.Claims.LaunchParts : Prop :=
  (∀ (s : State) (l die : Nat) (x : Launch), tfind s.launches l = some x →
    let takes' := x.done = false ∧ x.refused = false ∧ x.status = 0 ∧ x.mask / 2 ^ die % 2 = 1 ∧
      (∀ p, tfind x.parts die = some p → p.left = true) ∧ (s.die die).lost = false
    let born := ∃ h task parent, x.src = .child die h task parent
    let part (h : Nat) : DiePart := newPart s die x h
    let held (n : Nat) : Prop := ∃ y ∈ s.launches, y.2.done = false ∧ ∃ p, tfind y.2.parts die = some p ∧ p.handle = 0xFF00 + n
    (¬ takes' → exec (.launchPartReceive l die) s = .next s) ∧
    (∀ h task parent, takes' → x.src = .child die h task parent →
      exec (.launchPartReceive l die) s = .next (setLaunchAt l { x with parts := tset x.parts die (part h) } s)) ∧
    (∀ p, takes' → ¬ born → tfind x.parts die = some p →
      exec (.launchPartReceive l die) s = .next (setLaunchAt l { x with parts := tset x.parts die (part p.handle) } s)) ∧
    (∀ n, takes' → ¬ born → tfind x.parts die = none → n < 255 → ¬ held n → (∀ m, m < n → held m) →
      exec (.launchPartReceive l die) s = .next (setLaunchAt l { x with parts := tset x.parts die (part (0xFF00 + n)) } s)) ∧
    (∀ p, tfind x.parts die = some p →
      let runs := ∃ c ∈ s.cores, coreDie c.1 = die ∧ ∃ a, c.2.task = some a ∧ a.launch = l
      (x.done = true ∨ p.left = true ∨ runs ∨ s.ck < p.waitSince + 2 ^ 26 → exec (.launchStarvationTimeout l die) s = .next s) ∧
      (x.done = false → p.left = false → ¬ runs → p.waitSince + 2 ^ 26 ≤ s.ck → exec (.launchStarvationTimeout l die) s =
        .next (setLaunchAt l { x with parts := tset x.parts die { p with starved := true } } s)) ∧
      (x.mask / 2 ^ die % 2 = 1 ∨ (∃ q ∈ p.landings, q ≠ []) ∨ runs ∨ (∃ a ∈ x.again, a.die = die) → exec (.withdrawnDieLeave l die) s = .next s) ∧
      (x.mask / 2 ^ die % 2 = 0 → (∀ q ∈ p.landings, q = []) → ¬ runs → (∀ a ∈ x.again, a.die ≠ die) →
        exec (.withdrawnDieLeave l die) s = .next (setLaunchAt l { x with parts := tset x.parts die { p with left := true, assigned := [] } } s))) ∧
    (∀ mask, x.done = false → x.refused = false → mask % 256 ≠ 0 → exec (.dieSetRequest l mask) s =
      .next (setLaunchAt l { x with pendMask := some (mask % 256) } s)) ∧
    (x.done = true ∨ x.status ≠ 0 → exec (.launchCancel l) s = .next s) ∧
    (x.done = false → x.status = 0 → rising s.cores → ∃ t, exec (.launchCancel l) s = .next t ∧
      (∃ m, tfind t.launches l = some m ∧ m.status = 4 ∧ m.again = []) ∧
      (∀ k a, (s.core k).task = some a → a.launch = l → (t.core k).task = none ∧ (t.core k).buf = [] ∧
        ((s.core k).run = .running → (s.core k).fenced = false → (t.core k).run = .idle)) ∧
      (∀ k, (∀ a, (s.core k).task = some a → a.launch ≠ l) → (t.core k).regs = (s.core k).regs ∧ (t.core k).task = (s.core k).task ∧
        (t.core k).run = (s.core k).run))) ∧
  (∀ (s : State) (d : Nat), d < 8 → (s.die d).lost = false → (s.die d).failed = false →
    (∀ j, j < d → (s.die j).lost = true ∨ (s.die j).failed = true) →
    (s.leader = d → exec .leaderElection s = .next s) ∧
    (s.leader ≠ d → (∀ q ∈ s.queues, q.2.en = false) → exec .leaderElection s = .next { s with leader := d }) ∧
    (∀ die, (s.die die).lost = false → (s.die die).failed = false → (s.die s.leader).lost = true ∨ (s.die s.leader).failed = true →
      (s.die die).heartbeat + 2 ^ 20 ≤ s.ck → (∀ q ∈ s.queues, q.2.en = false) → exec (.heartbeatTimeout die) s =
        .next { s.updDie die (fun x => { x with heartbeat := s.ck }) with leader := d }) ∧
    (∀ die, s.ck < (s.die die).heartbeat + 2 ^ 20 → exec (.heartbeatTimeout die) s = .next s))

end

/-! The quay fabric and the host link. -/
namespace Sys2Proof.Claims
open Sys2Proof Sys2Proof.Machine

def peerAt (s : State) (p : Nat) : Peer := tget s.peers {} p
def setPeerAt (p : Nat) (x : Peer) (s : State) : State := { s with peers := tset s.peers p x }

/-- The end-to-end acknowledgement of a packet: 0 taken, 1 the berth is full, 2 the rank is not reached; none in viral state (R409, R412). -/
def acked (src seq ans : Nat) (s : State) : State :=
  if s.viral then s else setPeerAt src { peerAt s src with acks := (seq, ans) :: (peerAt s src).acks } s

/-- The interface of a rank of this package answers to a message, leaving t (R180, R205). -/
def interfaceAnswers (s : State) (p rank : Nat) (m : Msg) (ans : Nat) (t : State) : Prop :=
  let b := berthAt s p rank
  let fits := 1 + m.payloadSlots ≤ b.free ((s.rankCore p rank).map s.core)
  let queueTakes (r : Nat) : Prop := s.rankCore p rank = some r ∧ (tget (s.core r).recvq [] m.channel).length < 32 ∧
    (∀ x ∈ b.msgs, x.channel ≠ m.channel) ∧ m.payloadSlots ≤ b.free (some (s.core r))
  (∃ r, queueTakes r ∧ ans = 0 ∧ t = s.updCore r (fun c =>
    { c with recvq := tset c.recvq m.channel (tget c.recvq [] m.channel ++ [m]), woken := true })) ∨
  ((∀ r, ¬ queueTakes r) ∧ fits ∧ ans = 0 ∧ t = setBerth p rank { b with msgs := b.msgs ++ [m] } s) ∨
  ((∀ r, ¬ queueTakes r) ∧ ¬ fits ∧ ans = 1 ∧ t = s)

/-- A packet leaves for another package with the next number (R407, R408). -/
def sentTo (dest : Nat) (body : PacketBody) (s : State) : State :=
  let p := peerAt s dest
  let pk : Packet := ⟨s.pkg, p.nextSeq, body⟩
  setPeerAt dest { p with
    nextSeq := (p.nextSeq + 1) % 2 ^ 32, unacked := p.unacked ++ [(pk, s.ck)], lastAck := if p.unacked = [] then s.ck else p.lastAck } s

/-- Into the transit list of a die's ferry. -/
def intoTransit (die : Nat) (m : FMsg) (s : State) : State :=
  s.updDie die (fun d => { d with fer := { d.fer with transit := d.fer.transit ++ [m] } })

/-- Nothing of the package waits for this packet's answer, nor for room, but what is named. -/
def noRecordWaits (s : State) (peer seq : Nat) : Prop :=
  ∀ d c r rest, d < 8 → c < 8 → (classAt s d c).exitq = r :: rest → r.sent ≠ some (peer, seq)
def noCoreWaits (s : State) (peer seq : Nat) : Prop := ∀ k rank ch, (s.core k).hand ≠ some (.sent peer seq rank ch)
def nothingQueued (s : State) : Prop := ∀ d, d < 8 → (s.die d).fer.outq = []

/-- An entry of a die's black box, with its telemetry record (R318, R427), class 0 having room. -/
def boxed (die part code : Nat) (unit detail : Word) (s : State) : State :=
  let t := record0 s die 3 part code 0x3FF [unit, detail]
  let e : TRec := [BitVec.ofNat 32 (3 * 2 ^ 28 + part * 2 ^ 16 + code), 0x3FF, BitVec.ofNat 32 s.ck, BitVec.ofNat 32 (s.ck / 2 ^ 32), unit, detail] ++
    List.replicate 10 0
  t.updDie die (fun d => { d with bbox := (d.bbox ++ [e]).drop (d.bbox.length + 1 - 4096) })

/-- Class 0 of a die takes a record more. -/
def room0 (s : State) (die : Nat) : Prop := (classAt s die 0).injq.length < 64

/-- Bytes of data on the link enter its count (R318). -/
def carries (n : Nat) (s : State) : State := if n = 0 then s else tallied 0 0x602 0 n s

/-- The device answers on the link (R402). -/
def hostAnswers (msg : String) (line : Nat) (data : List Byte) (s : State) : State :=
  carries data.length { s with answers := (msg, line, data) :: s.answers }

/-- A line's bytes with their latest events, as a modified line holds them. -/
def latestBytes (s : State) (line : Nat) : List Byte :=
  (List.range 64).map (fun i => match s.ms.hist.find? (fun e => e.addr == line * 64 + i) with
    | some e => e.byte
    | none => memRead s.ms.mem (line * 64 + i))

/-- The answer to a snoop of a line (R402, R412): a modified line is forwarded; another is held or not, one of its two answers. -/
def snooped (s t : State) (line : Nat) (fwd clean : String) : Prop :=
  let modified := ∃ e ∈ s.ms.hist, e.addr / 64 = line
  (modified → s.viral = false → s.linePoison line = false → t = hostAnswers fwd line (latestBytes s line) s) ∧
  (modified → s.viral = false → s.linePoison line = true → t = hostAnswers (fwd ++ " poisoned") line (latestBytes s line) s) ∧
  (modified → s.viral = true → t = hostAnswers "RspIFwdM poisoned" line (latestBytes s line) s) ∧
  (¬ modified → s.viral = true → t = hostAnswers "RspIHitI" line [] s) ∧
  (¬ modified → s.viral = false → ∃ msg, (msg = clean ∨ msg = "RspIHitI") ∧ t = hostAnswers msg line [] { s with fresh := s.fresh + 1 })

/-- A host store of the first bytes of a line (R403). -/
def stored (line : Nat) (data : List Byte) (mask : Nat → Bool) (m : MemSys) : MemSys :=
  m.append (((List.range (min data.length 64)).filter mask).map (fun i => (line * 64 + i, data.getD i 0))) .H .host none
def hostStored (line : Nat) (data : List Byte) (mask : Nat → Bool) (s : State) : State :=
  carries ((List.range (min data.length 64)).filter mask).length (s.updMs (stored line data mask))

/-- A completed landing's acknowledgement counts where it was a remote store's (R215). -/
def goAcked (k : Nat) (p : GoPend) (s : State) : State := if p.remote then s.latencyAny k p.asid p.va p.issuedAt else s
def goLowers (p : GoPend) (r : List GoPend) (c : Core) : Core :=
  { c with goPend := r, cnt := if p.remote then { c.cnt with RM := c.cnt.RM - 1 } else { c.cnt with ST := c.cnt.ST - 1 } }

end Sys2Proof.Claims

section
open Sys2Proof Sys2Proof.Machine Sys2Proof.Claims

/-- R389, R408, R409, R412: a packet delivered before is acknowledged again, with the same answer; one 4,096 or more ahead, or held already,
is discarded; one behind a gap is held; the next in sequence is delivered and acknowledged, and with it every held packet that follows
without a gap. A message reaches its rank's interface, or is forwarded to the package that its rank has moved to; a half or a reply
reaches a ferry. -/
def Sys2Proof.Claims.QuayPackets : Prop :=
  ∀ (s : State) (p : Packet), p.seq < 2 ^ 32 → (peerAt s p.src).expect < 2 ^ 32 →
    let q := peerAt s p.src
    let e := Instr.quayPacketArrival p
    let ahead := (p.seq + 2 ^ 32 - q.expect) % 2 ^ 32
    let next := setPeerAt p.src { q with expect := (q.expect + 1) % 2 ^ 32 } s
    let acks (ans : Nat) (t : State) : Prop := exec e s = .next (acked p.src p.seq ans t)
    (∀ before a after, 2 ^ 31 ≤ ahead → q.acks = before ++ (p.seq, a) :: after → (∀ b ∈ before, b.1 ≠ p.seq) → acks a s) ∧
    ((2 ^ 31 ≤ ahead ∧ ∀ a ∈ q.acks, a.1 ≠ p.seq) ∨ (4096 ≤ ahead ∧ ahead < 2 ^ 31) ∨ (ahead < 4096 ∧ ∃ h ∈ q.heldPk, h.seq = p.seq) →
      exec e s = .next s) ∧
    (0 < ahead → ahead < 4096 → (∀ h ∈ q.heldPk, h.seq ≠ p.seq ∧ h.seq ≠ q.expect) →
      exec e s = .next (setPeerAt p.src { q with heldPk := q.heldPk ++ [p] } s)) ∧
    (ahead = 0 → (∀ h ∈ q.heldPk, h.seq ≠ q.expect) → q.heldPk.length ≤ 4096 → ∃ t n, exec e s = .next t ∧ 1 ≤ n ∧
      (peerAt t p.src).expect = (q.expect + n) % 2 ^ 32 ∧ (∀ i, 1 ≤ i → i < n → ∃ h ∈ q.heldPk, h.seq = (q.expect + i) % 2 ^ 32) ∧
      (∀ h ∈ (peerAt t p.src).heldPk, h ∈ q.heldPk ∧ h.seq ≠ (q.expect + n) % 2 ^ 32) ∧ (peerAt t p.src).lost = q.lost) ∧
    (ahead = 0 → (∀ h ∈ q.heldPk, h.seq ≠ q.expect ∧ h.seq ≠ (q.expect + 1) % 2 ^ 32) →
      (∀ core rank words bulk, p.body = .message core rank words bulk →
        let part := next.corePart core
        (∀ s1, rankEntry next (coreDie core) part rank = (none, s1) → acks 2 s1) ∧
        (∀ w s1, rankEntry next (coreDie core) part rank = (some w, s1) → entryPkg w = s1.pkg →
          ((s1.core (entryCore w)).fenced = true → acks 2 s1) ∧
          (∀ ans t, (s1.core (entryCore w)).fenced = false → interfaceAnswers s1 part rank { words, bulk } ans t → acks ans t)) ∧
        (∀ w s1, rankEntry next (coreDie core) part rank = (some w, s1) → entryPkg w ≠ s1.pkg → s1.viral = false →
          ((peerAt s1 (entryPkg w)).unacked.length < 4096 → acks 0 (sentTo (entryPkg w) (.message (entryCore w) rank words bulk) s1)) ∧
          (4096 ≤ (peerAt s1 (entryPkg w)).unacked.length → acks 1 s1))) ∧
      (∀ core rank tag key seq round fid bind mass v poison w s1, p.body = .half core rank tag key seq round fid bind mass v poison →
        rankEntry next (coreDie core) (next.corePart core) rank = (some w, s1) → entryPkg w = s1.pkg →
        acks 0 (intoTransit (coreDie (entryCore w)) (.half { tag, key, seq, round, fid, bind, mass, v, poison }) s1)) ∧
      (∀ fid bind seq ok, p.body = .reply fid bind seq ok → acks 0 (intoTransit (fid.toNat % 8) (.reply bind seq ok) next)))

/-- R147, R180, R309, R310, R408, R409: an end-to-end answer frees its packet's place; it is nothing for a packet not kept. The send that waits
for it completes, or takes BERTH_FULL or CHANNEL; the gallery record that waits for it leaves its exit buffer with the answer's status; a
ferry packet that waited for room leaves. With no answer for 2^18 ck the packet is sent again. -/
def Sys2Proof.Claims.QuayAnswers : Prop :=
  ∀ (s : State) (peer seq ans : Nat),
    let q := peerAt s peer
    let e := Instr.e2eAckArrival peer seq ans
    let kept := ∃ u ∈ q.unacked, u.1.seq = seq
    let s1 := setPeerAt peer { q with unacked := q.unacked.filter (fun u => u.1.seq != seq), lastAck := s.ck } s
    let late (u : Packet × Nat) : Bool := decide (u.1.seq = seq ∧ u.2 + 2 ^ 18 ≤ s.ck)
    (¬ kept → exec e s = .next s) ∧
    (kept → noCoreWaits s peer seq → noRecordWaits s peer seq → nothingQueued s → ∃ t, exec e s = .next t ∧ t.peers = s1.peers ∧
      (∀ k, t.core k = s.core k) ∧ t.ms = s.ms) ∧
    (∀ k rank ch, kept → (s.core k).hand = some (.sent peer seq rank ch) → (∀ j, j ≠ k → ∀ r c, (s.core j).hand ≠ some (.sent peer seq r c)) →
      noRecordWaits s peer seq → nothingQueued s → (s.core k).unstepped = true →
      let leaves (t t0 : State) : Prop := exec e s = .next t ∧ (∀ j, t.core j = t0.core j) ∧ (∀ d, t.die d = t0.die d) ∧ t.ms = t0.ms ∧
        t.peers = s1.peers
      (ans = 0 → ∃ t t0, leaves t t0 ∧ Retires (popping (s.core k).pops) (s.core k).handPoison Core.advance { s1 with cur := k } t0) ∧
      (ans ≠ 0 → ∃ t, leaves t (takeTrap s1 k (if ans = 1 then 0x0B else 0x0A) (BitVec.ofNat 32 (ch * 2 ^ 24 + rank)) 0 (s.core k).pc))) ∧
    (∀ d c r rest n, kept → noCoreWaits s peer seq → nothingQueued s → d < 8 → c < 8 → (classAt s d c).exitq = r :: rest →
      r.sent = some (peer, seq) → (∀ d' c' r' rest', d' < 8 → c' < 8 → (d', c') ≠ (d, c) → (classAt s d' c').exitq = r' :: rest' →
        r'.sent ≠ some (peer, seq)) → commandStands s r n → ∃ t, exec e s = .next t ∧ (classAt t d c).exitq = rest ∧
        ∃ s2, (∀ k, s2.core k = s.core k) ∧ ∀ k, t.core k =
          (recordEnds r n (if ans = 0 then 1 else if ans = 1 then 6 else 4) (decide (ans ≠ 0)) s2).core k) ∧
    (∀ d dest body, kept → noCoreWaits s peer seq → noRecordWaits s peer seq → d < 8 → (s.die d).fer.outq = [(dest, body)] →
      (∀ j, j < 8 → j ≠ d → (s.die j).fer.outq = []) → s.viral = false → (peerAt s1 dest).unacked.length < 4096 →
      ∃ t, exec e s = .next t ∧ (t.die d).fer.outq = [] ∧ t.peers = (sentTo dest body s1).peers) ∧
    (s.viral = true ∨ (∀ u ∈ q.unacked, late u = false) → exec (.packetRetransmitTimeout peer seq) s = .next s) ∧
    (s.viral = false → (∃ u ∈ q.unacked, late u = true) → exec (.packetRetransmitTimeout peer seq) s =
      .next (tallied 0 0x601 0 1 (setPeerAt peer { q with unacked := q.unacked.map (fun u => if late u then (u.1, s.ck) else u) } s)))

/-- R147, R410, R411: a removed link of a die leaves the tables, with a fault-detail record and a black-box entry of its unit; only
LINK_RETURN brings it back. (The package's numbers of the links, five on each of dies 0 to 3, then four on each, are the model's, log 63.) A package none of whose packets was acknowledged for 2^24 ck is lost: what was sent to it is dropped, a send that waits for
it takes CHANNEL, and what its ferries had queued for it is discarded. -/
def Sys2Proof.Claims.QuayLosses : Prop :=
  (∀ (s : State) (n : Nat),
    (36 ≤ n ∨ tget s.links true n = false → exec (.linkRemoved n) s = .next s) ∧
    (∀ d i, (d < 4 ∧ i < 5 ∧ n = 5 * d + i) ∨ (4 ≤ d ∧ d < 8 ∧ i < 4 ∧ n = 20 + 4 * (d - 4) + i) → tget s.links true n = true →
      (classAt s d 0).injq.length < 63 →
      exec (.linkRemoved n) s = .next (boxed d 63 0x3004 (BitVec.ofNat 32 (d * 2 ^ 13 + 11 * 2 ^ 8 + i)) 0
        (record0 { s with links := tset s.links n false } d 2 63 0x2103 0x3FF [BitVec.ofNat 32 n]))) ∧
    (n < 36 → exec (.linkReturn n) s = .next { s with links := tset s.links n true })) ∧
  (∀ (s : State) (peer : Nat),
    let q := peerAt s peer
    (q.lost = true ∨ q.unacked = [] ∨ s.ck < q.lastAck + 2 ^ 24 → exec (.packageLost peer) s = .next s) ∧
    (q.lost = false → q.unacked ≠ [] → q.lastAck + 2 ^ 24 ≤ s.ck → ∃ t, exec (.packageLost peer) s = .next t ∧
      peerAt t peer = { q with lost := true, unacked := [] } ∧ (∀ p, p ≠ peer → peerAt t p = peerAt s p) ∧
      (∀ d, d < 8 → ∀ x ∈ (t.die d).fer.outq, x.1 ≠ peer) ∧
      ((∀ j n r c, (s.core j).hand = some (.sent peer n r c) → (s.core j).priv = .task ∧ (s.core j).fenced = false) → ∀ k n rank ch,
        (s.core k).hand = some (.sent peer n rank ch) → (∃ u ∈ q.unacked, u.1.seq = n) → (t.core k).priv = .supervisor ∧ (t.core k).tr.cause = 0x0A ∧
        (t.core k).tr.detail = BitVec.ofNat 32 (ch * 2 ^ 24 + rank) ∧ (t.core k).tr.pc = (s.core k).pc)))

/-- R402, R403, R412: every snoop is answered, a modified line forwarded with its latest bytes; SNP_INV, MEM_WR and MEM_WR_PTL enter the
host's bytes in the histories at H; MEM_RD gives what the host sees. An owned line makes the store wait. Any other request has no effect
but its answer and a fault-detail record with its opcode and address. The bytes of data carried are counted. -/
def Sys2Proof.Claims.HostAccesses : Prop :=
  ∀ (s : State) (line : Nat), s.skovazDead = false →
    (∃ t, exec (.snpData line) s = .next t ∧ snooped s t line "RspSFwdM" "RspSHitSE") ∧
    (∃ t, exec (.snpCur line) s = .next t ∧ snooped s t line "RspSFwdM" "RspSHitSE") ∧
    (∀ data, s.ms.owned line = true → exec (.snpInv line data) s = .next s ∧ exec (.memWr line data) s = .next s ∧
      ∀ mask, exec (.memWrPtl line mask data) s = .next s) ∧
    (∀ data, s.ms.owned line = false →
      (∃ t s1, exec (.snpInv line data) s = .next t ∧ snooped s s1 line "RspIFwdM" "RspIHitSE" ∧ t.answers = s1.answers ∧
        t.ms = stored line data (fun _ => true) s1.ms ∧
        ∀ k, t.core k = { s.core k with dirty := (s.core k).dirty.filter (fun l => l.2 != line) }) ∧
      exec (.memWr line data) s = .next (hostAnswers "Cmp" line [] (hostStored line data (fun _ => true) s)) ∧
      ∀ mask, exec (.memWrPtl line mask data) s =
        .next (hostAnswers "Cmp" line [] (hostStored line data (fun i => mask / 2 ^ i % 2 == 1) s))) ∧
    exec (.memRd line) s = .next (hostAnswers (if s.linePoison line then "MemData poisoned" else "MemData") line
      ((List.range 64).map (fun i => s.ms.byteAt .host (line * 64 + i))) s) ∧
    (∀ op addr rd, room0 s 0 → exec (.m2sRefused ⟨op, addr⟩ rd) s =
      .next (record0 (hostAnswers (if rd then "MemData poisoned" else "Cmp") (addr / 64) [] s) 0 2 63 0x2102 0x3FF
        [BitVec.ofNat 32 op, BitVec.ofNat 32 addr, BitVec.ofNat 32 (addr / 2 ^ 32)]))

/-- R168, R194, R202, R402 to R404: GO completes a core's oldest landing at H, or that of a context saved on it, and lowers ST or RM;
GO_WRITE_PULL gives its data first, WRITE_PULL gives it alone, GO_ERR poisons its line. A lost link is recorded, a unit on each of its two
dies, and after it nothing is answered and no message has an effect. -/
def Sys2Proof.Claims.HostCompletions : Prop :=
  (∀ (s : State) (k : Nat) (p : GoPend) (r : List GoPend), s.skovazDead = false → (s.core k).goPend = p :: r →
    let line := p.line
    let lower := goLowers p r
    let data := (List.range 64).map (fun i => s.ms.byteAt .host (line * 64 + i))
    exec (.go k) s = .next ((goAcked k p s).updCore k lower) ∧
    exec (.goWritePull k) s = .next ((goAcked k p (hostAnswers "Data" line data s)).updCore k lower) ∧
    exec (.writePull k) s = .next (hostAnswers "Data" line data s) ∧
    ∃ t, exec (.goErr k) s = .next t ∧ t.linePoison line = true ∧ (∀ l, l ≠ line → t.linePoison l = s.linePoison l) ∧
      t.core k = lower ((goAcked k p s).core k) ∧ (∀ j, j ≠ k → t.core j = s.core j) ∧ t.ms.mem = s.ms.mem ∧ t.ms.hist = s.ms.hist) ∧
  (∀ (s : State) (k i : Nat) (x : Saved) (p : GoPend) (r : List GoPend), s.skovazDead = false → (s.core k).goPend = [] →
    s.saved.find? (fun x => x.2.core == k && !x.2.ctx.goPend.isEmpty) = some (i, x) → x.ctx.goPend = p :: r →
    exec (.go k) s = .next { goAcked k p s with saved := tset s.saved i { x with ctx := goLowers p r x.ctx } }) ∧
  (∀ (s : State) (k : Nat), (s.core k).goPend = [] → (∀ x ∈ s.saved, x.2.core ≠ k) →
    exec (.go k) s = .next s ∧ exec (.goErr k) s = .next s ∧ exec (.goWritePull k) s = .next s ∧ exec (.writePull k) s = .next s) ∧
  (∀ (s : State), room0 s 0 → room0 s 4 → s.skovazDead = false →
    exec .skovazLinkLost s = .next (boxed 4 63 0x3004 (BitVec.ofNat 32 (4 * 2 ^ 13 + 12 * 2 ^ 8)) 0
      (boxed 0 63 0x3004 (BitVec.ofNat 32 (12 * 2 ^ 8)) 0 { s with skovazDead := true }))) ∧
  (∀ (s : State) (line k : Nat) (data : List Byte), s.skovazDead = true → exec .skovazLinkLost s = .next s ∧ exec (.snpInv line data) s = .next s ∧
    exec (.snpData line) s = .next s ∧ exec (.snpCur line) s = .next s ∧ exec (.memRd line) s = .next s ∧ exec (.memWr line data) s = .next s ∧
    exec (.go k) s = .next s ∧ exec (.writePull k) s = .next s ∧ (∀ op addr rd, exec (.m2sRefused ⟨op, addr⟩ rd) s = .next s) ∧
    ∀ mask, exec (.memWrPtl line mask data) s = .next s)

end

/-! Boot, self-test, partitions, policies, the black box, power, counters, errors. -/
namespace Sys2Proof.Claims
open Sys2Proof Sys2Proof.Machine

/-- An image that the package accepts (R420): under the root key or an enrolled owner key, of a version not rolled back. -/
def accepts (fw : Firmware) (i : Image) : Prop :=
  (Config.signatureVerifies i.name = true ∨ ∃ h ∈ fw.ownerKeys, Config.ownerVerifies i.name h = true) ∧ fw.rollback ≤ i.version

/-- The image that the first row of R421's table chooses, with its number and the reason; the recovery image is accepted as any (R422). -/
def bootRow (fw : Firmware) (i3c : Bool) (img : Option Image) (number reason : Nat) : Prop :=
  let asked := fw.strapRecovery = true ∨ i3c = true
  let spare := (∀ r, fw.recovery = some r → accepts fw r → img = some r) ∧ ((∀ r, fw.recovery = some r → ¬ accepts fw r) → img = none)
  (asked ∧ spare ∧ number = 2 ∧ reason = 1) ∨
  (¬ asked ∧ reason = 0 ∧ ((∃ a, fw.slotA = some a ∧ accepts fw a ∧ img = some a ∧ number = 0 ∧
      ∀ b, fw.slotB = some b → accepts fw b → b.version ≤ a.version) ∨
    ∃ b, fw.slotB = some b ∧ accepts fw b ∧ img = some b ∧ number = 1 ∧ ∀ a, fw.slotA = some a → accepts fw a → a.version < b.version)) ∨
  (¬ asked ∧ (∀ a, fw.slotA = some a → ¬ accepts fw a) ∧ (∀ b, fw.slotB = some b → ¬ accepts fw b) ∧ spare ∧
    number = 2 ∧ reason = 2)

/-- The recovery image runs (R422). -/
def recovering (s : State) : Prop := s.fw.booted = true ∧ fld (s.die 0).bootstat 0 2 = 2

/-- A unit out of use (R423; an LPDDR-6 group as log 35 says, a die's links as log 63 numbers them). -/
def unused (s : State) (die kind index : Nat) : Prop :=
  let idle (c : Nat) : Prop := ∀ n, n < 8 → (s.core ((16 * die + c) * 8 + n)).task = none
  (kind = 0 ∧ index < 128 ∧ idle (index / 8)) ∨ ((kind = 1 ∨ kind = 2 ∨ kind = 3 ∨ kind = 4) ∧ index < 16 ∧ idle index) ∨
  (kind = 11 ∧ index < (if die < 4 then 5 else 4) ∧ tget s.links true (if die < 4 then 5 * die + index else 20 + 4 * (die - 4) + index) = false) ∨ (kind = 13 ∧ ∀ p, p < 48 → occupancy s p 1 = 0)

/-- A self-test ends with its record (R423). -/
def tested (die : Nat) (w : Word) (s : State) : State :=
  record0 (s.updDie die (fun d => { d with bistres := w, bistctl := d.bistctl &&& 0xBFFFFFFF })) die 4 63 0x4001 0x3FF [w]

/-- A partition holds something still (R316, R343, R419): a task, a landing or a command under way, a saved task, a record in its gallery
classes, a bound block of its ferry groups. -/
def lives (s : State) (p : Nat) : Prop :=
  (∃ k c, (k, c) ∈ s.cores ∧ s.corePart k = p ∧ (c.task ≠ none ∨ c.out ≠ [] ∨ c.mat.queue ≠ [] ∨ c.cpy.queue ≠ [] ∨ c.gal.queue ≠ [] ∨
    c.fer.queue ≠ [] ∨ c.vec.seq ≠ [])) ∨
  (∃ x ∈ s.saved, s.corePart x.2.core = p) ∨
  (∃ d, d < 8 ∧ ∃ c, c < 8 ∧ (classAt s d c).ownValid = true ∧ (classAt s d c).ownPart = p ∧
    ((∃ r ∈ (s.die d).gal.flight, r.cls = c) ∨ (classAt s d c).injq ≠ [] ∨ (classAt s d c).exitq ≠ [])) ∨
  (∃ d, d < 8 ∧ ∃ g ∈ (s.die d).fer.groups, g.2.ownValid = true ∧ g.2.ownPart = p ∧ ∃ b ∈ (s.die d).fer.blocks, b.2.group = g.1)

/-- A frame lies in a valid range of the partition (R430). -/
def inRanges (x : Partition) (frame : Nat) : Prop := ∃ r ∈ x.ranges, r.2.valid = true ∧ r.2.lo.toNat ≤ frame ∧ frame ≤ r.2.hi.toNat

/-- A rule of a policy, and the policy's format (R425). -/
def ruleHolds (w : Nat → Word) (i : Nat) : Prop :=
  let r (j : Nat) : Word := w (16 + 4 * i + j)
  fld (r 0) 16 12 = 0 ∧ fld (r 1) 16 16 = 0 ∧ fld (r 2) 4 4 = 0 ∧ fld (r 2) 0 4 ≤ 3 ∧ (fld (r 2) 0 4 = 3 → 1 ≤ fld (r 2) 8 24)
def policyHolds (w : Nat → Word) : Prop :=
  w 0 = 0x504C4448 ∧ w 1 = 1 ∧ (w 2).toNat ≤ 47 ∧ 1 ≤ (w 3).toNat ∧ (w 3).toNat ≤ 0xFFFFFF ∧ 1 ≤ (w 4).toNat ∧ (w 4).toNat ≤ 1024 ∧
  (∀ i, 5 ≤ i → i < 16 → w i = 0) ∧ ∀ i, i < (w 4).toNat → ruleHolds w i

/-- The device bytes of a run as its die reads them. -/
def dieBytes (s : State) (die : Nat) (pas : List Nat) : List Byte := pas.map (s.ms.byteAt (.die die))

/-- Sealed entries of a partition in a die's ring, oldest first (R428). -/
def sealedOf (s : State) (die p : Nat) : List TRec := (s.die die).bbox.filter (fun e => decide (fld (e.getD 0 0) 16 12 = p))

/-- A core's counts of the interval. -/
def counting (s : State) (k : Nat) : List (Nat × Nat) :=
  [(1, (s.core k).dbg.retired), (2, (s.core k).dbg.stalled), (3, (s.core k).dbg.traps), (4, (s.core k).dbg.upcalls)]

/-- A counter record of f4 to f8 (R318) stands in class 0, or class 0 is full. Its producer is the core where a core counts. -/
def counted (t : State) (die code part count len unit ck : Nat) : Prop :=
  64 ≤ (classAt t die 0).injq.length ∨ ∃ x ∈ (classAt t die 0).injq, x.f = [BitVec.ofNat 32 (part * 2 ^ 16 + code),
    BitVec.ofNat 32 (if code < 0x200 then unit else 0x3FF), BitVec.ofNat 32 ck,
    BitVec.ofNat 32 (ck / 2 ^ 32), BitVec.ofNat 32 count, BitVec.ofNat 32 (count / 2 ^ 32), BitVec.ofNat 32 len, BitVec.ofNat 32 (len / 2 ^ 32),
    BitVec.ofNat 32 unit, 0, 0, 0, 0, 0, 0, 0]

end Sys2Proof.Claims

section
open Sys2Proof Sys2Proof.Machine Sys2Proof.Claims

/-- R99, R420 to R422: a reset boots the image of the first row that holds, writes it and the reason to BOOTSTAT, raises the rollback counter to
the image's minimum version, and leaves cores, queues and memory as at reset; a die that did not pass is failed, and the lowest that passed
leads; each die's ferry has its identity (R343). Only the recovery image takes new images, accepted like any, and, with physical presence, owner keys into four entries. -/
def Sys2Proof.Claims.Boots : Prop :=
  (∀ (s : State) (pass : Nat) (i3c : Bool) (img : Option Image) (number reason : Nat), bootRow s.fw i3c img number reason →
    ∃ t, exec (.powerOnReset ⟨pass, i3c⟩) s = .next t ∧ t.fw.booted = img.isSome ∧
      t.fw.rollback = max s.fw.rollback ((img.map (·.minVersion)).getD 0) ∧ t.fw.slotA = s.fw.slotA ∧ t.fw.slotB = s.fw.slotB ∧
      t.fw.ownerKeys = s.fw.ownerKeys ∧ t.cores = [] ∧ t.queues = State.reset.queues ∧ t.ms = State.reset.ms ∧ t.launches = [] ∧ t.viral = false ∧
      (∀ d, d < 8 → (t.die d).bootstat = BitVec.ofNat 32 (reason * 2 ^ 8 + number) ∧ (t.die d).lost = false ∧ (t.die d).bboxFlash = (s.die d).bboxFlash ∧
        (t.die d).fer.fid = BitVec.ofNat 32 (s.pkg * 8 + d) ∧
        ((t.die d).failed = true ↔ img = none ∨ pass / 2 ^ d % 2 = 0)) ∧
      (∀ d, d < 8 → img ≠ none → pass / 2 ^ d % 2 = 1 → (∀ j, j < d → pass / 2 ^ j % 2 = 0) → t.leader = d)) ∧
  (∀ (s : State) (slot : Bool) (img : Image),
    (¬ recovering s → exec (.recoveryImageLoad slot img) s = .next s) ∧
    (recovering s → accepts s.fw img → exec (.recoveryImageLoad slot img) s = .next { s with fw := { s.fw with
      slotA := if slot then s.fw.slotA else some img, slotB := if slot then some img else s.fw.slotB } }) ∧
    (recovering s → ¬ accepts s.fw img → room0 s 0 → exec (.recoveryImageLoad slot img) s =
      .next (boxed 0 63 0x3007 (BitVec.ofNat 32 (14 * 2 ^ 8)) 0 s))) ∧
  (∀ (s : State) (hash : Nat) (present : Bool),
    (recovering s → present = true → s.fw.ownerKeys.length < 4 → exec (.recoveryKeyEnrol hash present) s =
      .next { s with fw := { s.fw with ownerKeys := s.fw.ownerKeys ++ [hash] } }) ∧
    (¬ recovering s ∨ present = false ∨ 4 ≤ s.fw.ownerKeys.length → exec (.recoveryKeyEnrol hash present) s = .next s))

/-- R418, R423: a write of BISTCTL waits while a test runs; without GO it selects; with GO it starts the test of a unit out of use, and writes
RESULT 3 for any other. The test's end writes its record to BISTRES and sends it as health telemetry. -/
def Sys2Proof.Claims.SelfTests : Prop :=
  ∀ (s : State) (die : Nat) (v : Word), die < 8 →
    let kind := fld v 8 5
    let index := fld v 0 8
    let c := (s.die die).bistctl
    let put (w : Word) (s : State) : State := s.updDie die (fun d => { d with bistctl := w })
    (c.getLsbD 30 = true → exec (.bistctlGo die v) s = .next s) ∧
    (c.getLsbD 30 = false → v.getLsbD 31 = false → exec (.bistctlGo die v) s = .next (put (v &&& 0x1FFF) s)) ∧
    (c.getLsbD 30 = false → v.getLsbD 31 = true → unused s die kind index →
      exec (.bistctlGo die v) s = .next (put ((v &&& 0x1FFF) ||| 0x40000000) s)) ∧
    (c.getLsbD 30 = false → v.getLsbD 31 = true → ¬ unused s die kind index → room0 s die → exec (.bistctlGo die v) s =
      .next (tested die (BitVec.ofNat 32 (die * 2 ^ 29 + kind * 2 ^ 24 + index * 2 ^ 16 + 3)) (put (v &&& 0x1FFF) s))) ∧
    (c.getLsbD 30 = true → fld v 0 8 ≤ 2 → room0 s die → exec (.bistComplete die v) s =
      .next (tested die (BitVec.ofNat 32 (die * 2 ^ 29 + fld c 8 5 * 2 ^ 24 + fld c 0 8 * 2 ^ 16 + fld v 0 16)) s)) ∧
    (c.getLsbD 30 = false ∨ 2 < fld v 0 8 → exec (.bistComplete die v) s = .next s)

/-- R205, R206, R424: REMAP with GO is refused on a die without a good spare; it waits while a task of the cluster cannot be saved; then the spare
stands for the cluster: each task goes on where it stood with its registers, its receive queue at the head of its rank's berth, nothing held
in local memory, and STATUS is done. -/
def Sys2Proof.Claims.Remaps : Prop :=
  ∀ (s : State) (die : Nat) (v : Word), die < 8 →
    let d := s.die die
    let n := fld v 0 4
    let e := Instr.remapGo die v
    let status (x : Nat) (s : State) : State := s.updDie die (fun d => { d with remapCtl := BitVec.ofNat 32 (x * 2 ^ 29 + n) })
    let here (k : Nat) : Prop := k / 8 = 16 * die + n
    (v.getLsbD 31 = false → exec e s = .next (status (fld d.remapCtl 29 2) s)) ∧
    (v.getLsbD 31 = true → d.spareUsed = true ∨ d.spareBad = true → exec e s = .next (status 3 s)) ∧
    (∀ k, v.getLsbD 31 = true → d.spareUsed = false → d.spareBad = false → here k → (s.core k).task ≠ none →
      (s.core k).priv ≠ .task ∨ (s.core k).cnt.MX ≠ 0 ∨ (s.core k).cnt.PS ≠ 0 ∨ (s.core k).tr.imp ≠ [] → exec e s = .next s) ∧
    (v.getLsbD 31 = true → d.spareUsed = false → d.spareBad = false → (∀ k, here k → mayLeave (s.core k) ∨ (s.core k).task = none) →
      (∀ k, here k → (s.core k).task = none → (s.core k).mat.queue = [] ∧ (s.core k).cpy.queue = [] ∧ (s.core k).gal.queue = [] ∧
        (s.core k).fer.queue = [] ∧ (s.core k).vec.seq = []) →
      ∃ t, exec e s = .next t ∧ (t.die die).spareUsed = true ∧ (t.die die).remapCtl = BitVec.ofNat 32 (2 * 2 ^ 29 + n) ∧
        (∀ k, here k → (s.core k).task ≠ none → let c := t.core k
          c.regs = (s.core k).regs ∧ c.pc = (s.core k).pc ∧ c.task = (s.core k).task ∧ c.buf = (s.core k).buf ∧ c.out = (s.core k).out ∧
          c.vec = (s.core k).vec ∧ c.mat = (s.core k).mat ∧ c.held = [] ∧ c.dirty = [] ∧ c.rank = (s.core k).rank ∧
          ((s.core k).rank ≠ none → c.recvq = [])) ∧
        (∀ k, ¬ here k → t.core k = s.core k) ∧ (t.cluster (16 * die + n)).icache = [] ∧ t.ms = s.ms ∧
        (∀ k r, here k → (s.core k).task ≠ none → (s.core k).rank = some r → (∀ j, here j → j ≠ k → (s.core j).rank ≠ some r) →
          (berthAt t (s.corePart k) r).msgs = ((s.core k).recvq.map (·.2)).flatten ++ (berthAt s (s.corePart k) r).msgs))

/-- R316, R318, R343, R389, R419, R430: PARTCTL sets a partition with a tenant key, and waits without one; a number from 48 traps RESERVED_FIELD,
and an address space of another partition PRIVILEGE (the model's choices, logs 86 and 36). VALID = 0 dissolves one that holds nothing any
more: its local memory is dropped, its frames read 0, its classes, groups, grants, key and sealed entries are gone, its address spaces and
queues are nobody's. CLUPART gives a cluster without task or grant, and waits for it: its cores' counts are banked and their cached ranks gone, and a
basin over it is undefined (the model's choice, log 84). -/
def Sys2Proof.Claims.Partitions : Prop :=
  ∀ (s : State) (die : Nat) (v : Word), die < 8 →
    let p := (s.die die).partsel
    let x := s.part p
    let clu := (s.die die).clusel
    let idle := ∀ n, n < 8 → (s.core (clu * 8 + n)).task = none ∧ (s.core (clu * 8 + n)).vec.grant = 0 ∧ (s.core (clu * 8 + n)).vec.heldLanes = 0
    let owner := tget s.ms.asidPart 63 (fld v 0 16)
    let svc := 1024 + die
    let give := if v.getLsbD 31 then some (fld v 0 6) else none
    (v.getLsbD 31 = true → 48 ≤ p → csrTraps (.partctlWrite die v) s svc 0xC09 0x02 0) ∧
    (v.getLsbD 31 = true → p < 48 → owner ≠ p → owner < 48 → csrTraps (.partctlWrite die v) s svc 0xC09 0x06 0) ∧
    (v.getLsbD 31 = true → p < 48 → owner = p ∨ 48 ≤ owner → (∀ w ∈ x.tkeyh, w = 0) → exec (.partctlWrite die v) s = .next s) ∧
    (v.getLsbD 31 = true → p < 48 → owner = p ∨ 48 ≤ owner → (∃ w ∈ x.tkeyh, w ≠ 0) → exec (.partctlWrite die v) s =
      .next ((s.updMs (fun m => { m with asidPart := tset m.asidPart (fld v 0 16) p })).updPart p (fun x => { x with
        valid := true, debug := v.getLsbD 30, netasid := fld v 0 16, sealKey := true }))) ∧
    (v.getLsbD 31 = false → x.valid = false →
      exec (.partctlWrite die v) s = .next (s.updPart p (fun x => { x with debug := v.getLsbD 30, netasid := fld v 0 16 }))) ∧
    (v.getLsbD 31 = false → x.valid = true → rising s.cores → (lives s p → exec (.partctlWrite die v) s = .next s) ∧
      (¬ lives s p → ∃ t, exec (.partctlWrite die v) s = .next t ∧
        (∃ y : Partition, t.part p = { y with debug := v.getLsbD 30, netasid := fld v 0 16 } ∧ y = {}) ∧
        (∀ k, s.corePart k = p → (t.core k).held = [] ∧ (t.core k).dirty = [] ∧ (t.core k).snap = []) ∧
        (∀ k, s.corePart k ≠ p → t.core k = s.core k) ∧
        (∀ r a, inRanges x (a / 65536) → t.ms.byteAt r a = 0) ∧ (∀ r a, ¬ inRanges x (a / 65536) → t.ms.byteAt r a = s.ms.byteAt r a) ∧
        (∀ d c, d < 8 → c < 8 → (classAt t d c).ownValid = true → (classAt t d c).ownPart ≠ p) ∧
        (∀ d, d < 8 → (∀ g ∈ (t.die d).fer.groups, g.2.ownValid = true → g.2.ownPart ≠ p) ∧ sealedOf t d p = []) ∧
        (∀ e ∈ t.ms.tlb, tget s.ms.asidPart 63 e.asid ≠ p ∨ p = 63) ∧ (∀ q, (queueAt t q).part ≠ some p))) ∧
    (v.getLsbD 31 = true → 48 ≤ fld v 0 6 → csrTraps (.clupartWrite die v) s svc 0xC0B 0x02 0) ∧
    ((v.getLsbD 31 = true → fld v 0 6 < 48) → ¬ idle ∨ (s.cluster clu).part = give → exec (.clupartWrite die v) s = .next s) ∧
    ((v.getLsbD 31 = true → fld v 0 6 < 48) → idle → (s.cluster clu).part ≠ give → ∃ t, exec (.clupartWrite die v) s = .next t ∧
      t.cluster clu = { s.cluster clu with part := give } ∧ (∀ c, c ≠ clu → t.cluster c = s.cluster c) ∧ t.ms = s.ms ∧
      (∀ k, k / 8 = clu → t.core k = { s.core k with rankCache := [], dbg := { (s.core k).dbg with retired := 0, stalled := 0, traps := 0, upcalls := 0 } }) ∧
      (∀ k, k / 8 ≠ clu → t.core k = s.core k) ∧
      ∀ b, (∃ k, k / 8 = clu ∧ inRectangle (basinAt s (clu / 16) b) (clu / 16) k) → basinAt t (clu / 16) b = {})

/-- R425, R426: POLCTL with GO reads the policy at POLADDR and takes the first outcome: refused with REASON 1 to 5 and nothing else changed, or
installed: its rules in force and its counts started again, its SEQ shown, class 0 of every die committed, and a black-box entry; it waits while
an old set of class 0 is still read. Without GO it is nothing. -/
def Sys2Proof.Claims.Policies : Prop :=
  ∀ (s s1 s2 : State) (k : Nat) (v : Word) (hp rp : List Nat),
    let p := s.corePart k
    let die := coreDie k
    let x := s.part p
    let at' (off n : Nat) : List Nat := (List.range n).map (fun i => ((x.polAddr.toNat + off) % 2 ^ 32 + i) % 2 ^ 32)
    (v.getLsbD 31 = false → exec (.polctlGo k v) s = .next s) ∧
    (v.getLsbD 31 = true → translateRun s die (s.core k).masid .load (at' 0 64) [] = (.inl hp, s1) → (∀ a ∈ hp, s1.ms.owned (a / 64) = false) →
      let rules := min (wordOf ((dieBytes s1 die hp).drop 16 |>.take 4)).toNat 1024
      translateRun s1 die (s.core k).masid .load (at' 64 (16 * rules + 1280)) [] = (.inl rp, s2) → (∀ a ∈ rp, s2.ms.owned (a / 64) = false) →
      let bs := dieBytes s1 die hp ++ dieBytes s2 die rp
      let w (i : Nat) : Word := wordOf ((bs.drop (4 * i)).take 4)
      let signed := Config.signatureVerifies (bytesToNat (bs ++ (x.tkeyh.map (fun w => bytesLE 4 w.toNat)).flatten)) = true
      let refused (reason : Nat) : Prop := exec (.polctlGo k v) s = .next (s2.updPart p (fun x => { x with polStatus := 3, polReason := reason }))
      (¬ signed → refused 1) ∧
      (signed → (w 2).toNat ≠ p → refused 2) ∧
      (signed → (w 2).toNat = p → (w 3).toNat ≤ x.polSeq → refused 3) ∧
      (signed → (w 2).toNat = p → x.polSeq < (w 3).toNat → ¬ policyHolds w → refused 4) ∧
      (signed → (w 2).toNat = p → x.polSeq < (w 3).toNat → policyHolds w → Config.policyFits (bytesToNat bs) = false → refused 5) ∧
      (signed → (w 2).toNat = p → x.polSeq < (w 3).toNat → policyHolds w → Config.policyFits (bytesToNat bs) = true → die < 8 →
        ((∃ d, d < 8 ∧ (classAt s2 d 0).old = true) → exec (.polctlGo k v) s = .next s) ∧
        ((∀ d, d < 8 → (classAt s2 d 0).old = false) →
          (∀ j, ∀ q ∈ (s2.core j).gal.queue, ∀ a b, q.instr = .gtw a b ∨ q.instr = .gtd a b → fld q.a 26 3 = 0 → q.started = true) →
        ∃ t, exec (.polctlGo k v) s = .next t ∧ (∀ d, d < 8 → (classAt t d 0).old = true ∧ (classAt t d 0).gen = ((classAt s2 d 0).gen + 1) % 256) ∧
          (t.part p).polStatus = 2 ∧ (t.part p).polReason = 0 ∧ (t.part p).polSeq = (w 3).toNat ∧ (t.part p).polCount = [] ∧
          (t.part p).policy = (List.range (w 4).toNat).map (fun i => (List.range 4).map (fun j => w (16 + 4 * i + j))) ∧
          (∃ e, (t.die die).bbox.getLast? = some e ∧ e.getD 0 0 = BitVec.ofNat 32 (3 * 2 ^ 28 + p * 2 ^ 16 + 0x3009)) ∧ t.cores = s2.cores ∧ t.ms = s2.ms)))

/-- R418, R427, R428: BBDATA gives the next word of the selected sealed entry of the issuing partition on its die, 0 past the last. Rings go to
flash every 2^30 ck, and all of them when input power is lost. -/
def Sys2Proof.Claims.BlackBoxes : Prop :=
  ∀ (s : State) (k die : Nat),
    let r := (s.core k).sup
    let p := s.corePart k
    let t := s.updCore k (fun c => { c with sup := { c.sup with bbword := c.sup.bbword + 1 } })
    exec (.bbdataRead k) s = .next t ∧
    (∀ e, p < 48 → (sealedOf s (coreDie k) p)[r.bbidx]? = some e → csrRead k 0x8FD s = .ok (e.getD r.bbword 0) t) ∧
    ((sealedOf s (coreDie k) p)[r.bbidx]? = none → csrRead k 0x8FD s = .ok 0 t) ∧
    (s.ck < (s.die die).lastFlush + 2 ^ 30 → exec (.blackBoxFlush die) s = .next s) ∧
    ((s.die die).lastFlush + 2 ^ 30 ≤ s.ck → exec (.blackBoxFlush die) s =
      .next (s.updDie die (fun d => { d with bboxFlash := d.bbox, lastFlush := s.ck }))) ∧
    (∃ t', exec .inputPowerLoss s = .next t' ∧ (∀ x ∈ s.dies, (tfind s.dies x.1 = some x.2 → t'.die x.1 = { x.2 with bboxFlash := x.2.bbox, lastFlush := s.ck })) ∧
      t'.cores = s.cores ∧ t'.ms = s.ms)

/-- R318, R427, R429: a clock step, within 0 to 7, is a black-box entry and a health record. A die at 110 °C is lost as R200 says. Every 2^24 ck
power and heat are sampled, and the counts of the interval, those of the cores and of the lanes they held among them, leave as counter records,
each of the partition that used the unit, and start again. -/
def Sys2Proof.Claims.PowerAndCounters : Prop :=
  (∀ (s : State) (die : Nat) (up heat : Bool), die < 8 →
    let n := if up then s.clockStep + 1 else s.clockStep - 1
    (if up then s.clockStep = 7 else s.clockStep = 0) ∧ exec (.clockStep die up heat) s = .next s ∨
    ¬ (if up then s.clockStep = 7 else s.clockStep = 0) ∧ ((classAt s die 0).injq.length < 63 → exec (.clockStep die up heat) s =
      .next (record0 (boxed die 63 0x3008 (BitVec.ofNat 32 (die * 2 ^ 13 + 14 * 2 ^ 8)) (BitVec.ofNat 32 n) { s with clockStep := n }) die 4 63 0x4003 0x3FF
        [BitVec.ofNat 32 n, if heat then 2 else 1]))) ∧
  (∀ (s : State) (die : Nat),
    (8 ≤ die ∨ (s.die die).lost = true ∨ (s.die die).tjmax < 110 → exec (.junctionOverheat die) s = .next s) ∧
    (die < 8 → (s.die die).lost = false → 110 ≤ (s.die die).tjmax → ∃ t, exec (.junctionOverheat die) s = .next t ∧ exec (.dieLost die) s = .next t)) ∧
  (∀ (s : State) (die mw temp : Nat), die < 8 →
    (s.ck < (s.die die).lastPower + 2 ^ 24 → exec (.powerSample die mw temp) s = .next s) ∧
    ((s.die die).lastPower + 2 ^ 24 ≤ s.ck → room0 s die → ∃ t, exec (.powerSample die mw temp) s = .next t ∧ t.pwrstat = mw % 2 ^ 12 ∧
      (t.die die).tjmax = temp % 2 ^ 8 ∧ (t.die die).lastPower = s.ck ∧ t.cores = s.cores ∧
      let tj (d : Nat) : Nat := if d = die then temp % 256 else (s.die d).tjmax
      let four (a : Nat) : Word := BitVec.ofNat 32 (tj a + tj (a + 1) * 2 ^ 8 + tj (a + 2) * 2 ^ 16 + tj (a + 3) * 2 ^ 24)
      ∃ x, (classAt t die 0).injq.getLast? = some x ∧ x.f = [BitVec.ofNat 32 (4 * 2 ^ 28 + 63 * 2 ^ 16 + 0x4002), 0x3FF, BitVec.ofNat 32 s.ck,
        BitVec.ofNat 32 (s.ck / 2 ^ 32), BitVec.ofNat 32 (s.clockStep * 2 ^ 16 + mw % 2 ^ 12), four 0, four 4, 0, 0, 0, 0, 0, 0, 0, 0, 0])) ∧
  (∀ (s : State) (die : Nat), die < 8 →
    (s.ck < (s.die die).lastSample + 2 ^ 24 → exec (.telemetryCounterSample die) s = .next s) ∧
    ((s.die die).lastSample + 2 ^ 24 ≤ s.ck → ∃ t, exec (.telemetryCounterSample die) s = .next t ∧ (t.die die).tele = [] ∧
      (t.die die).lastSample = s.ck ∧ t.ms = s.ms ∧
      let len := s.ck - (s.die die).lastSample
      let before (code part unit : Nat) : Nat := tget (s.die die).tele 0 (code * 2 ^ 16 + part * 2 ^ 10 + unit)
      (∀ k, k / 128 = die → counting t k = [(1, 0), (2, 0), (3, 0), (4, 0)] ∧ t.core k = { s.core k with dbg := (t.core k).dbg }) ∧
      ((∀ j, s.corePart j < 64) →
        (∀ k, k / 128 = die → ∀ x ∈ counting s k, x.2 ≠ 0 →
          counted t die x.1 (s.corePart k) (before x.1 (s.corePart k) k + x.2) len k s.ck) ∧
        (∀ c, c / 16 = die →
          let v := (before 0x201 (s.corePart (8 * c)) c +
            ((List.range 8).map (fun i => let x := s.core (8 * c + i); x.vec.grant * (s.ck - x.dbg.lanesAt))).sum) / 2 ^ 10
          v ≠ 0 → counted t die 0x201 (s.corePart (8 * c)) v len c s.ck) ∧
        (∀ x ∈ (s.die die).tele,
          let code := x.1 / 2 ^ 16
          let v := x.2 / (if code = 0x103 ∨ code = 0x602 then 2 ^ 20 else if code = 0x504 then 2 ^ 10 else 1)
          code ∉ [1, 2, 3, 4, 0x201] → v ≠ 0 → counted t die code (x.1 / 2 ^ 10 % 2 ^ 6) v len (x.1 % 2 ^ 10) s.ck)) ∧
      (∀ k, k / 128 ≠ die → t.core k = s.core k)))

/-- R194, R196, R198, R280, R412: an uncorrectable error of a line poisons it and is pending, as UNCORRECTABLE, for the core that last wrote it. One of
an element of a core's accumulators or partial sets makes its word wrong, and poisons it but for a partial set with CHK = 10 (the event's
numbering of elements is the model's, log 25). In a hall directory or a TLB it is fatal: the rings go to flash, and with VIRALCTL.EN the package is in viral state, else the basin is fenced. -/
def Sys2Proof.Claims.UncorrectableErrors : Prop :=
  ∀ (s : State) (line k : Nat),
    (∀ n, line = 2 ^ 42 + n →
      let g := n / 2 ^ 16
      let i := n % 2 ^ 16 / 512
      let j := n % 512
      let el (c : Core) (a b : Nat) : Word := matGet (if g < 4 then c.mat.pp.getD g [] else if g = 4 then c.mat.acc0.el else c.mat.acc1.el) a b
      (6 ≤ g → exec (.uncorrectableErrorDetected line k false) s = .next s) ∧
      (g < 6 → (s.core k).mat.pp.length = 4 → (s.core k).mat.ppPoison.length = 4 →
        ∃ t, exec (.uncorrectableErrorDetected line k false) s = .next t ∧ t.ms = s.ms ∧ (∀ j, j ≠ k → t.core j = s.core j) ∧
          (t.core k).regs = (s.core k).regs ∧ el (t.core k) i j ≠ el (s.core k) i j ∧
          (∀ a b, a < 128 → b < 512 → ¬ (a = i ∧ b = j) → el (t.core k) a b = el (s.core k) a b) ∧
          (4 ≤ g → 512 * i + j ∈ (if g = 4 then (t.core k).mat.acc0 else (t.core k).mat.acc1).poison) ∧
          (g < 4 → fld (s.core k).mat.mg[7] 1 2 ≠ 2 → 512 * i + j ∈ (t.core k).mat.ppPoison.getD g []))) ∧
    (line < 2 ^ 42 → ∃ t, exec (.uncorrectableErrorDetected line k false) s = .next t ∧ t.linePoison line = true ∧
      (∀ l, l ≠ line → t.linePoison l = s.linePoison l) ∧ (∀ j, j ≠ k → t.core j = s.core j) ∧ t.ms.mem = s.ms.mem ∧ t.ms.hist = s.ms.hist ∧
      ∃ r, r.cause = 0x70 ∧ t.core k = { s.core k with tr := { (s.core k).tr with imp := (s.core k).tr.imp ++ [r] } }) ∧
    (∃ t, exec (.uncorrectableErrorDetected line k true) s = .next t ∧
      (s.viralEn = true → t.viral = true ∧ t.cores = s.cores) ∧
      (s.viralEn = false → t.viral = s.viral ∧ ∀ j ∈ s.basinCores k, (t.core j).fenced = true))

end

/-! Completion: where instructions and events run to their own effect. -/
namespace Sys2Proof.Claims
open Sys2Proof Sys2Proof.Machine

/-- `i` answers a next state, of which `p` holds. -/
def Runs (i : Instr) (s : State) (p : State → Prop) : Prop := ∃ t, exec i s = .next t ∧ p t

/-- `i` answers a next state in which core `cur` has completed it and goes on behind it (R41, R138), and of which `p` holds. -/
def Finishes (i : Instr) (s : State) (p : State → Prop) : Prop :=
  Runs i s (fun t => (t.core s.cur).pc = (s.core s.cur).advance.pc ∧
    (t.core s.cur).dbg.retired = (s.core s.cur).dbg.retired + 1 ∧ p t)

/-- A virtual address that a held translation of a die maps to pa, for a store too where `w` (R375): neither of a berth nor of a bound
block. -/
def mapped (s : State) (die asid va : Nat) (w : Bool) (pa : Nat) : Prop :=
  s.inBerth asid va = false ∧ s.inBlock asid va = false ∧
  ∃ e, s.ms.tlb.find? (fun t => t.covers die (hallBank asid va % 4) asid (va / 2 ^ 16)) = some e ∧ (w = true → e.w = true) ∧
    pa = (e.frame + (va / 2 ^ 16 - e.page)) * 2 ^ 16 + va % 2 ^ 16

/-- Nothing keeps a store from landing: no line owned, no page moving, the package not in viral state. -/
def landsFreely (s : State) : Prop := s.ms.own = [] ∧ s.ms.moves = [] ∧ s.viral = false

/-- AWAIT at core `cur` executes normally and its test succeeds (R141). -/
def succeeds (s : State) (a b : Src) : Prop :=
  let u : Uses := { a, b, moves := true }
  let v := s.vals u
  ∃ pa, s.ready u = true ∧ (s.core s.cur).readsDone = true ∧ v.a.toNat % 4 = 0 ∧ (s.core s.cur).watch true false v.a = none ∧
    mapped s (coreDie s.cur) (s.core s.cur).masid v.a.toNat false pa ∧ s.ms.owned (pa / 64) = false ∧
    ((wordAt s.ms (.core s.cur) pa).toNat + 2 ^ 32 - v.b.toNat) % 2 ^ 32 < 2 ^ 31

end Sys2Proof.Claims

section
open Sys2Proof Sys2Proof.Machine Sys2Proof.Claims

/-- R138 to R142, R395, R396: where PHASE, WAITC, ARRIVE, AWAIT, AWAIT_TEST, SSTEP, STFL, STIV, STFIL and TLBINV complete. Ready, with the
core's loads performed, nothing that keeps stores from landing where they land, their counter at most A, their test successful, their
generation complete, their operands well formed and mapped, their pages not claimed by a move, each answers a next state: the core goes on
behind it, one more instruction retired, with its effect. -/
def Obligations.InstructionsComplete : Prop :=
  (∀ (s : State) (o : PhaseOrder) (sc : Scope), s.ready { moves := true } = true → (s.core s.cur).readsDone = true →
    (s.core s.cur).pubDone = false → landsFreely s →
    Finishes (.phase o sc) s (fun t => (o ≠ .acq → (t.core s.cur).buf = []) ∧ (o ≠ .rel → (t.core s.cur).snap = []) ∧
      (o = .sc → (t.core s.cur).out = []))) ∧
  (∀ (s : State) (x : Counter) (a : Src), s.ready (uses (.waitc x a)) = true → (s.core s.cur).readsDone = true →
    (s.core s.cur).cnt.get x ≤ (s.vals (uses (.waitc x a))).a.toNat →
    Finishes (.waitc x a) s (fun t => (x ≠ .LD → x ≠ .ST → x ≠ .RM → (t.core s.cur).snap = []) ∧ t.ms = s.ms)) ∧
  (∀ (s : State) (o : RelOrder) (sc : Scope) (a : Src) (pa : Nat),
    let v := s.vals { a, moves := true }
    s.ready { a, moves := true } = true → (s.core s.cur).readsDone = true → (s.core s.cur).pubDone = false → v.a.toNat % 4 = 0 →
    (s.core s.cur).watch true true v.a = none → mapped s (coreDie s.cur) (s.core s.cur).masid v.a.toNat true pa →
    Finishes (.arrive o sc a) s (fun t => (o = .rel → (t.core s.cur).buf = []) ∧
      ∃ x ∈ (t.core s.cur).acc, x.op = .arrive sc ∧ x.addr = v.a ∧ x.pa = some pa ∧ x.st = .issued)) ∧
  (∀ (s : State) (o : AcqOrder) (sc : Scope) (a b : Src), succeeds s a b →
    Finishes (.await o sc a b) s (fun t => o = .acq → (t.core s.cur).snap = [])) ∧
  (∀ (s : State) (k : Nat) (o : AcqOrder) (sc : Scope) (a b : Src), (s.core k).standing = some (.await o sc a b) →
    succeeds { s with cur := k } a b →
    Runs (.awaitTest k) s (fun t => t.cur = s.cur ∧ (t.core k).standing = none ∧ (t.core k).pc = (s.core k).advance.pc ∧
      (t.core k).dbg.retired = (s.core k).dbg.retired + 1 ∧ (o = .acq → (t.core k).snap = []))) ∧
  (∀ (s : State) (a : Src) (id : Nat) (l : Launch) (g : Nat), s.ready { a, moves := true } = true →
    (s.core s.cur).launch = some id → tfind s.launches id = some l → (s.core s.cur).arrived = some g → g < l.gen →
    Finishes (.sstep a) s (fun t => (t.core s.cur).arrived = none ∧ t.ms = s.ms)) ∧
  (∀ (s : State) (a : Src), s.ready { a, moves := true } = true → (s.core s.cur).readsDone = true → (s.core s.cur).task = none →
    landsFreely s →
    Finishes (.sstep a) s (fun t => (t.core s.cur).buf = [] ∧ (t.core s.cur).out = [] ∧ (t.core s.cur).snap = [])) ∧
  (∀ (s : State) (a b : Src),
    let v := s.vals { a, b }
    let c := s.core s.cur
    let named (l : Nat) : Prop := windowHas c (l * 64) ∧ rangeHas v.a v.b l
    s.ready { a, b } = true → v.a.toNat % 64 = 0 → fld v.b 21 10 = 0 →
    (fld v.b 31 1 = 0 →
      Finishes (.stfl a b) s (fun t => ∀ l ∈ (t.core s.cur).dirty, ¬ named l.1) ∧
      Finishes (.stiv a b) s (fun t => (∀ l ∈ (t.core s.cur).dirty, ¬ named l.1) ∧ ∀ l ∈ (t.core s.cur).held, ¬ rangeHas v.a v.b l.1)) ∧
    (c.stbase.toNat % 64 = 0 →
      (∀ l, l < 2 ^ 26 → named l → (∃ p, (l, p) ∈ c.held) ∨
        ∃ pa, mapped s (coreDie s.cur) c.masid (l * 64) (decide (fld v.b 31 1 = 1)) pa ∧ s.ms.owned (pa / 64) = false) →
      Finishes (.stfil a b) s (fun t => ∀ l, l < 2 ^ 26 → named l → ∃ p, (l, p) ∈ (t.core s.cur).held))) ∧
  (∀ (s : State) (a b : Src),
    let u := uses (.tlbinv a b)
    let v := s.vals u
    let c := s.core s.cur
    let asid := v.a.toNat % 65536
    let named (page : Nat) : Prop := fld v.b 0 16 = 0 ∨ (fld v.b 16 16 ≤ page ∧ page < fld v.b 16 16 + fld v.b 0 16)
    s.ready u = true → c.priv ≠ .task → v.a.toNat < 2 ^ 16 → fld v.b 16 16 + fld v.b 0 16 ≤ 65536 →
    (c.priv = .service ∨ tget s.ms.asidPart 63 asid = s.corePart s.cur) → c.pubDone = true → c.out = [] →
    (∀ m ∈ s.ms.moves, 1 ≤ m.stage → m.asid = asid → ∀ n, n ≤ m.run → ¬ named (m.page + n)) →
    (∀ k x, (k, x) ∈ s.cores → x.pageWaits = []) →
    Finishes (.tlbinv a b) s (fun t => ∀ e, e ∈ t.ms.tlb ↔ e ∈ s.ms.tlb ∧ ¬ (e.asid = asid ∧ ∃ n, n ≤ e.run ∧ named (e.page + n))))

/-- R142, R168, R195, R22, R189, R199, R200, R202, R209 to R214, R221, R227: where events of a core, its debug unit and its basin run to their
effect: a landing, the end of a step's generation, deliveries, a renegotiation, debug requests, a save, a basin, a die. -/
def Sys2Proof.Claims.CoreEventsComplete : Prop :=
  (∀ (s : State) (k : Nat) (o : OutItem) (r : List OutItem), (s.core k).out = o :: r →
    (∀ x ∈ s.saved, x.2.core = k → x.2.ctx.out = []) → landsFreely s →
    Runs (.land k) s (fun t => (t.core k).out = r)) ∧
  (∀ (s : State) (id : Nat) (l : Launch) (n : Nat), tfind s.launches id = some l → l.genN = some n → n ≠ 0 → n ≤ l.arrivals →
    s.saved = [] → landsFreely s → (∀ k ∈ s.participants id l.gen, (s.core k).readsDone = true) →
    Runs (.stepGenerationComplete id) s (fun t => (∃ m, tfind t.launches id = some m ∧ m.gen = l.gen + 1) ∧
      ∀ k ∈ s.participants id l.gen, (t.core k).buf = [] ∧ (t.core k).out = [] ∧ (t.core k).snap = [])) ∧
  (∀ (s : State) (k : Nat) (q : Fin 7) (e : PWord), (s.core k).regs.held.find? (fun x => x.1 == q.val) = some (q.val, e) →
    ((s.core k).regs.q[q]).length < 16 →
    Runs (.queueHeldDelivery k q.val) s (fun t => (t.core k).regs.q[q] = (s.core k).regs.q[q] ++ [e])) ∧
  (∀ (s : State) (k : Nat) (r : ImpRec) (rest : List ImpRec), (s.core k).priv = .task → (s.core k).run = .running →
    (s.core k).tr.imp = r :: rest → (s.core k).fenced = true ∨ r.cause ∉ [0x70, 0x71, 0x73] →
    Runs (.impreciseErrorDelivery k) s (fun t => (t.core k).priv = .supervisor ∧ (t.core k).tr.cause = r.cause ∧
      (t.core k).tr.pc = (s.core k).pc ∧ (t.core k).pc = (s.core k).tr.vec)) ∧
  (∀ (s : State) (k n : Nat), (s.core k).breakpoint = some n →
    ((s.core k).dbg.arm = true → Runs (.addressBreakpointMatch k) s (fun t => (t.core k).run = .debug 3)) ∧
    ((s.core k).dbg.arm = false → (s.core k).priv = .task → Runs (.addressBreakpointMatch k) s (fun t =>
      (t.core k).tr.cause = 0x09 ∧ (t.core k).tr.pc = (s.core k).pc ∧ (t.core k).pc = (s.core k).tr.vec))) ∧
  (∀ (s : State) (k : Nat) (a : Word), (s.core k).dbg.icinv = some a →
    Runs (.dbgicinvComplete k) s (fun t => (t.core k).dbg.icinv = none ∧ ∀ n, (s.cluster n).part.getD 63 = s.corePart k →
      ∀ l ∈ (t.cluster n).icache, l.2.1 ≠ a.toNat / 64)) ∧
  (∀ (s : State) (k : Nat), s.debugAdmits k = true → (s.die (coreDie k)).lost = false →
    ((∀ r, (s.core k).run ≠ .debug r) → (s.core k).hand = none → Runs (.dbgHaltreq k) s (fun t => (t.core k).run = .debug 1)) ∧
    (∀ r, (s.core k).run = .debug r →
      Runs (.dbgResumereq k) s (fun t => (t.core k).run = .running ∨ (t.core k).run = .idle) ∧
      ∀ (v : Word) (n : XReg), n.val ≠ 0 → (s.core k).dbg.sel = n.val →
        Runs (.dbgdataWrite k v) s (fun t => (t.core k).regs.get n = v ∧ (t.core k).regs.isFull n = true))) ∧
  (∀ (s : State) (k : Nat) (v : Word) (pa : Nat), s.debugAdmits k = true → (s.core k).dbg.maddr.toNat % 4 = 0 → landsFreely s →
    mapped s (coreDie k) (s.core k).masid (s.core k).dbg.maddr.toNat true pa →
    Runs (.dbgmdataRead k) s (fun t => (t.core k).regs = (s.core k).regs ∧ t.ms = s.ms) ∧
    ((s.core k).readsDone = true → (s.core k).fenced = false → (∀ i, i < 4 → ¬ leafByte s (pa + i)) → Runs (.dbgmdataWrite k v) s (fun t =>
      (t.core k).buf = [] ∧ (t.core k).out = [] ∧ ∀ i, i < 4 → t.ms.byteAt (.core k) (pa + i) = BitVec.ofNat 8 (v.toNat / 256 ^ i)))) ∧
  (∀ (s : State) (k : Nat) (v : Word), s.debugAdmits k = true → (s.core k).dbg.icinv = none → (s.core k).readsDone = true → landsFreely s →
    Runs (.dbgicinvWrite k v) s (fun t => (t.core k).dbg.icinv = some v)) ∧
  (∀ (s : State) (k : Nat) (r : TraceRec) (rest : List TraceRec), (s.core k).dbg.trace = r :: rest → room0 s (coreDie k) →
    Runs (.traceDrain k) s (fun t => (t.core k).dbg.trace = rest ∧
      (classAt t (coreDie k) 0).injq.length = (classAt s (coreDie k) 0).injq.length + 1)) ∧
  (∀ (s : State) (k n : Nat) (a : Access) (size : Nat) (sx : Bool) (pa : Nat), (s.core k).acc[n]? = some a → a.op = .load size sx →
    size ∈ [1, 2, 4] → a.st = .rearmed 0x10 true a.addr.toNat → a.dead = false → a.pa = none → a.addr.toNat % size = 0 → landsFreely s →
    mapped s (coreDie k) a.asid a.addr.toNat false pa →
    Runs (.rearmedAccessComplete k n) s (fun t => (t.core k).acc.length + 1 = (s.core k).acc.length ∧
      (t.core k).cnt.LD = (s.core k).cnt.LD - 1)) ∧
  (∀ (s : State) (k : Nat) (q : Cmd) (a : Src), (s.core k).hand = some (.cmd .CP q) → q.instr = .promote a → (s.core k).out = [] →
    (s.core k).unstepped = true → (s.core k).cpy.waiting = none → ¬ engineFlag (s.core k) .CP .full →
    Runs (.engineAccept k) s (fun t => (∃ q', (t.core k).cpy.queue = (s.core k).cpy.queue ++ [q'] ∧ q'.instr = .promote a) ∧
      (t.core k).hand = none ∧ (t.core k).cnt.CP = (s.core k).cnt.CP + 1)) ∧
  (∀ (s : State) (k : Nat) (r : Reneg), (s.core k).vec.reneg = some r → r.claim = false → (s.core k).vec.seq = [] →
    Runs (.grantRenegotiation k) s (fun t => (t.core k).vec.reneg = none ∧
      (t.core k).vec.grant = min (s.core k).vec.grant (roundUp (min r.ask.toNat 256)))) ∧
  (∀ (s : State) (k : Nat) (e : VEntry) (d : VReg) (xs : XReg), entryAt (s.core k).vec = some e → e.instr = .vmovBroadcast d xs →
    (s.core k).vec.waiting = none → (s.core k).vec.dead = false →
    Runs (.vectorEntryComplete k) s (fun t => ∀ i, i < (s.core k).vec.grant → laneAt (t.core k).vec.v d i = ⟨e.s, e.sp⟩)) ∧
  (∀ (s : State) (die tag : Nat) (r : Reduction), tfind (s.die die).rootRouter tag = some r → r.bad = false →
    (∀ n, n < 4 → (tfind r.kids n).isSome = true) →
    Runs (.routerReduce die 2 0 tag) s (fun t => tfind (t.die die).rootRouter tag = none ∧
      (t.die die).totals.length = (s.die die).totals.length + 1)) ∧
  (∀ (s : State) (k : Nat) (pa : Nat → Nat),
    let c := s.core k
    let x := s.core c.sup.presel
    let va (i : Nat) : Nat := (c.sup.prearea.toNat + 0x7F0 + i) % 2 ^ 32
    s.corePart c.sup.presel = s.corePart k → x.task ≠ none → x.fenced = false → x.saveReq = none → landsFreely s →
    (∀ i, i < 16 → mapped s (coreDie k) c.masid (va i) false (pa i)) →
    Runs (.prectlSave k) s (fun t => (t.core k).sup.preStatus = 1 ∧ ∃ r, (t.core c.sup.presel).saveReq = some r ∧ r.asker = k ∧
      r.area = c.sup.prearea ∧ r.asid = c.masid)) ∧
  (∀ (s : State) (k : Nat) (r : SaveReq) (base : Nat) (eng img : Nat → Nat), (s.core k).saveReq = some r → (s.core k).fenced = false →
    (s.core k).task ≠ none → mayLeave (s.core k) → landsFreely s → s.saved = [] →
    mapped s (coreDie k) r.asid r.area.toNat true base →
    (∀ i, i < 25 → mapped s (coreDie k) r.asid ((r.engine.toNat + 65536 * i) % 2 ^ 32) true (eng i)) →
    (∀ i, i < 50 → mapped s (coreDie k) r.asid ((r.image.toNat + 65536 * i) % 2 ^ 32) true (img i)) →
    Runs (.saveComplete k) s (fun t => (t.core k).task = none ∧ (t.core k).run = .idle ∧ (t.core k).saveReq = none ∧
      (t.core r.asker).sup.preStatus = 2 ∧ ∃ x, tfind t.saved (img 0) = some x ∧ x.core = k)) ∧
  (∀ (s s2 : State) (k : Nat) (pas eng img : List Nat) (bs : List Byte) (p : Bool) (x : Saved),
    let c := s.core k
    let t := c.sup.presel
    let y := s.core t
    let vas := (List.range 2048).map (fun i => (c.sup.prearea.toNat + i) % 2 ^ 32)
    let w (off : Nat) : Word := BitVec.ofNat 32 (number ((List.range 4).map (fun i => bs.getD (off + i) 0)))
    s.corePart t = s.corePart k → k ≠ t → t < 1024 → s.pkg < 2 ^ 16 → y.fenced = false → y.task = none → y.run = .idle →
    y.dbg.haltReq = false → y.mat.queue = [] → y.cpy.queue = [] → y.gal.queue = [] → y.fer.queue = [] → y.vec.seq = [] →
    landsFreely s → translateRun s (coreDie k) c.masid .load vas [] = (.inl pas, s) → readMove s k c.pc (vas.zip pas) = (bs, p, s2) →
    translateRun s2 (coreDie k) c.masid .load (regionPages (w 0x7F8) 50) [] = (.inl img, s2) →
    translateRun s2 (coreDie k) c.masid .load (regionPages (w 0x7F0) 25) [] = (.inl eng, s2) →
    tfind s2.saved (img.getD 0 0) = some x → x.check = w 0x7FC →
    (∀ n, n < 0x64000 → wordAt s2.ms (.core k) (inRegion eng (4 * n)) = engineWord x.ctx x.seed n) →
    (∀ n, n < 0x320000 → s2.ms.byteAt (.core k) (inRegion img n) = imageByte x.seed n) → x.core / 8 = t / 8 →
    x.ctx.vec.grant % 8 = 0 → x.ctx.vec.grant ≤ 256 → x.ctx.vec.grant ≤ y.vec.lim → y.vec.lim % 8 = 0 →
    x.ctx.vec.grant + heldByOthers s2 t ≤ 512 →
    Runs (.prectlRestore k) s (fun t' => (t'.core t).task = x.ctx.task ∧ (t'.core t).run = .running ∧ (t'.core t).pc = w 0x80 ∧
      (t'.core k).sup.preStatus = 2 ∧ tfind t'.saved (img.getD 0 0) = none)) ∧
  (∀ (s : State) (k : Nat) (v : Word), k < 1024 →
    let die := coreDie k
    let i := (s.core k).sup.basinsel
    let lone := ∀ b ∈ (s.die die).basins, b.1 ≠ i → b.2.valid = false
    ((basinAt s die i).fenced = false → lone → fld v 8 3 ≤ fld v 11 3 → fld v 0 4 ≤ fld v 4 4 → v.getLsbD 29 = true →
      (∀ j, j / 128 = die → s.corePart j = s.corePart k) → Runs (.basinDefine k v) s (fun t =>
        (basinAt t die i).valid = true ∧ (basinAt t die i).rowlo = fld v 8 3 ∧ (basinAt t die i).rowhi = fld v 11 3 ∧
        (basinAt t die i).collo = fld v 0 4 ∧ (basinAt t die i).colhi = fld v 4 4)) ∧
    ((basinAt s die i).fenced = true → Runs (.basinReset k) s (fun t => (basinAt t die i).fenced = false ∧
      ∀ j, inRectangle (basinAt s die i) die j → idleAfterReset (t.core j)))) ∧
  (∀ (s : State) (die : Nat), die < 8 → (s.die die).lost = false →
    Runs (.dieLost die) s (fun t => (t.die die).lost = true) ∧
    (110 ≤ (s.die die).tjmax → Runs (.junctionOverheat die) s (fun t => (t.die die).lost = true)))

end

section
open Sys2Proof Sys2Proof.Machine Sys2Proof.Claims

/-- R270, R275, R300, R306, R307, R312, R313, R316, R326 to R328, R341, R343, R345 to R348, R351, R354, R414: where events of the matrix unit, the
gallery and the ferry run to their effect: a tile starts, a register is written, a command takes effect or completes, a record goes one stage
on, a set is committed and copied, a half is answered, returned or accepted, a copy starts and ends. -/
def Sys2Proof.Claims.EngineEventsComplete : Prop :=
  (∀ (s : State) (c k : Nat), arrayBusy s c = false → nextTile s c = some k → tileReady s (c * 8 + k) = true →
    Runs (.matrixTileStart c k) s (fun t => (∃ q r, (t.core (c * 8 + k)).mat.queue = q :: r ∧ q.started = true) ∧ (t.cluster c).lastCore = k)) ∧
  (∀ (s : State) (k : Nat) (n : Fin 9) (v : Word), (s.core k).cnt.MX = 0 →
    Runs (.matrixCsrWrite k (BitVec.ofNat 12 (0x200 + n.val)) v) s (fun t => (t.core k).mat.mg[n.val] = v)) ∧
  (∀ (s : State) (k : Nat) (q : Cmd) (r : List Cmd), galTurnAt s k [] q r →
    let die := coreDie k
    let c := q.a.toNat % 8
    let g := classAt s die c
    let done (t : State) (v : Option Word) : Prop := (t.core k).gal.queue = { q with started := true, done := v } :: r
    let first (p : Instr → Prop) : Prop := ∀ j, j ≠ k → ∀ q', (s.core j).gal.turn = some q' → ¬ p q'.instr
    (∀ d x y, q.instr = .gctr d x y → Runs (.engineRead k .GL) s (fun t => ∃ v, done t (some v))) ∧
    (∀ x y, q.instr = .gtd x y → (classAt s die (fld q.a 26 3)).old = false → fld q.a 29 3 < 5 →
      (classAt s die (fld q.a 26 3)).stages / 2 ^ fld q.a 22 4 % 2 = 1 → Runs (.galleryShadowWrite k) s (fun t => done t (some 0))) ∧
    (∀ d x, q.instr = .gcmt d x → g.old = false → first (fun i => ∃ d x, i = .gcmt d x) →
      (∀ j, ∀ x ∈ (s.core j).gal.queue, (∃ a b, x.instr = .gtw a b ∨ x.instr = .gtd a b) → x.started = true) →
      Runs (.galleryCommit die c) s (fun t => (classAt t die c).old = true ∧ (classAt t die c).gen = (g.gen + 1) % 256 ∧
        done t (some (BitVec.ofNat 32 ((g.gen + 1) % 256))))) ∧
    (∀ x y, q.instr = .gbind x y → g.old = false → g.exitq = [] → (∀ x ∈ (s.die die).gal.flight, x.cls ≠ c) → c ≠ 0 →
      first (fun i => ∃ x y, i = .gbind x y) →
      Runs (.galleryBindEffect die c) s (fun t => (classAt t die c).stages = fld q.b 0 16 ∧ (classAt t die c).rlim = fld q.b 16 2 ∧
        done t (some 0)))) ∧
  (∀ (s : State) (k : Nat) (q : Cmd) (r : List Cmd) (v : Word), (s.core k).gal.queue = q :: r → q.started = true → q.done = some v →
    q.dead = false → q.cause = none → (s.core k).gal.waiting = none → (∃ x y, q.instr = .gtw x y ∨ q.instr = .gtd x y ∨ q.instr = .gbind x y) →
    Runs (.engineComplete k .GL) s (fun t => (t.core k).gal.queue = r ∧ (t.core k).cnt.gl = (s.core k).cnt.gl - 1)) ∧
  (∀ (s : State) (die c : Nat) (x : GRec) (rest : List GRec), die < 8 → c < 8 → (classAt s die c).injq = x :: rest →
    (classAt s die c).exitq.length < 16 → (∀ n, n < 8 → n ≠ c → (classAt s die n).injq = []) → (s.die die).gal.flight = [] →
    (∀ j, ∀ q ∈ (s.core j).gal.queue, ∀ a b, q.instr ≠ .gbind a b) → ¬ underPolicy x →
    Runs (.galleryAdmit die c) s (fun t => (classAt t die c).injq = rest ∧
      (t.die die).gal.flight = [{ x with gen := (classAt s die c).gen, stage := 0, pass := 0 }])) ∧
  (∀ (s : State) (die : Nat) (x : GRec) (rest : List GRec), (s.die die).gal.flight = x :: rest →
    (x.stage < 16 → (classAt s die x.cls).stages / 2 ^ x.stage % 2 = 0 →
      Runs (.galleryStage die 0) s (fun t => (t.die die).gal.flight = { x with c := false, stage := x.stage + 1 } :: rest)) ∧
    (x.stage = 16 → x.rq = true → x.pass < (classAt s die x.cls).rlim → (∀ y ∈ rest, y.stage ≠ 0) →
      Runs (.galleryLeave die 0) s (fun t => (t.die die).gal.flight = rest ++ [{ x with pass := x.pass + 1, stage := 0, c := false, rq := false }]))) ∧
  (∀ (s s1 : State) (die c : Nat) (x : GRec) (rest : List GRec) (l f m : Nat), (classAt s die c).exitq = x :: rest → x.land = some (l, f) →
    pushItem s l die f ((x.f.drop 12).take 4) = some s1 → commandStands s1 x m →
    Runs (.exitBufferRelease die c) s (fun t => (classAt t die c).exitq = rest ∧ t.launches = s1.launches)) ∧
  (∀ (s : State) (die c : Nat), (classAt s die c).old = true → (∀ x ∈ (s.die die).gal.flight, x.cls = c → x.gen = (classAt s die c).gen) →
    Runs (.galleryShadowCopyDone die c) s (fun t => (classAt t die c).old = false)) ∧
  (∀ (s : State) (die c : Nat) (v : Word), (classAt s die c).injq = [] → (classAt s die c).exitq = [] →
    (∀ x ∈ (s.die die).gal.flight, x.cls ≠ c) → fld v 16 6 < 48 →
    Runs (.gownWrite die c v) s (fun t => (classAt t die c).ownValid = (v.getLsbD 31 && c != 0) ∧ (classAt t die c).ownPart = fld v 16 6 ∧
      (classAt t die c).stages = 0)) ∧
  (∀ (s : State) (die g : Nat), (groupAt s die g).en = true → (groupAt s die g).mode = true → (groupAt s die g).due ≤ s.ck →
    (s.die die).lost = false → Runs (.ferryRound die g) s (fun t => (groupAt t die g).due = s.ck + (groupAt t die g).period * 256)) ∧
  (∀ (s : State) (die n d b : Nat) (h : FHalf) (x : FBlock), (s.die die).fer.transit[n]? = some (.half h) → h.src = some d →
    (s.die die).lost = false →
    (s.die die).fer.blocks.find? (fun b => b.2.key == h.key && (groupAt s die b.2.group).tag == h.tag) = some (b, x) →
    x.qui = false → x.leaveSent = false → h.poison = false → tfind x.senders h.fid.toNat = none → x.senders.length < 64 →
    fld (s.die die).fer.finj 30 2 ≠ 3 →
    Runs (.ferryHalfArrival die n) s (fun t => blockAt t die b = some { x with
      pending := x.pending ++ [h], pend := x.pend + h.mass, senders := tset x.senders h.fid.toNat h.seq })) ∧
  (∀ (s : State) (die n bind seq b : Nat) (x : FBlock) (h : HeldHalf) (ack : Bool), (s.die die).fer.transit[n]? = some (.reply bind seq ack) →
    (s.die die).fer.blocks.find? (fun b => b.2.bind == bind) = some (b, x) → blockAt s die b = some x → x.quiWait = false →
    (s.die die).lost = false → x.held = some h → h.half.seq = seq → x.leaveSent = false →
    Runs (if ack then .ferryAckArrival die n else .ferryRefusalArrival die n) s (fun t =>
      (t.die die).fer.transit = (s.die die).fer.transit.eraseIdx n ∧
      blockAt t die b = some (if ack then { x with held := none } else returns x h false))) ∧
  (∀ (s : State) (die b : Nat) (x : FBlock) (h : HeldHalf), blockAt s die b = some x → x.held = some h → x.quiWait = false →
    x.leaveSent = false → (s.die die).lost = false → h.deadline ≤ s.ck →
    Runs (.ferryHalfTimeout die b) s (fun t => blockAt t die b = some (returns x h true))) ∧
  (∀ (s : State) (die b e : Nat) (x : FBlock), blockAt s die b = some x → x.leave = none → x.leaves = [e] → x.copying = false →
    (s.die die).lost = false → e < (groupAt s die x.group).ncount → fld (tget (groupAt s die x.group).nb 0 e) 24 2 = 1 →
    Runs (.ferryHandover die b) s (fun t => blockAt t die b = some { x with leaves := [], leave := some e, leaveRecalled := true })) ∧
  (∀ (s : State) (k : Nat) (v : Word), (s.core k).priv = .service →
    let die := coreDie k
    let n := (s.core k).fer.gsel
    let g := groupAt s die n
    let b := fld v 0 12
    (∀ w r, g.evq = w :: r → Runs (.fgevqRead k) s (fun t => (groupAt t die n).evq = r)) ∧
    (fld v 24 1 = 0 → Runs (.fnbWrite k v) s (fun t => tget (groupAt t die n).nb 0 (s.core k).fer.nbsel = BitVec.ofNat 32 (v.toNat % 2 ^ 26))) ∧
    ((∀ x ∈ (s.die die).fer.blocks, x.2.group ≠ n) → Runs (.fgtagWrite k v) s (fun t => (groupAt t die n).tag = v)) ∧
    (∀ x, v.getLsbD 31 = true → (s.core k).sup.fckStatus ≠ 1 → blockAt s die b = some x → x.qui = true → x.copying = false →
      Runs (.fckctlGo k v) s (fun t => (t.core k).sup.fckStatus = 1 ∧ (t.core k).sup.fckblock = b ∧
        blockAt t die b = some { x with copying := true }))) ∧
  (∀ (s : State) (k : Nat) (x : FBlock) (pa : Nat → Nat),
    let sup := (s.core k).sup
    sup.fckStatus = 1 → blockAt s (coreDie k) sup.fckblock = some x → landsFreely s →
    (∀ i, i < x.n → mapped s (coreDie k) x.asid ((sup.fckaddr.toNat + 4 * i) % 2 ^ 32) true (pa i)) →
    Runs (.ferryCheckpointCopyDone k) s (fun t => (t.core k).sup.fckStatus = 2 ∧ (t.core k).sup.fckReason = 0)) ∧
  (∀ (s : State) (die : Nat) (v : Word),
    let o := (s.die die).fer.ownsel
    ((∀ b ∈ (s.die die).fer.blocks, b.2.group ≠ o) → fld v 16 6 < 48 →
      Runs (.fgownWrite die v) s (fun t => groupAt t die o = { ownValid := v.getLsbD 31, ownPart := fld v 16 6 })) ∧
    ((∀ x ∈ (s.die die).fer.groups, x.2.en = false) → Runs (.ferryidWrite die v) s (fun t => (t.die die).fer.fid = v)))

/-- R85, R133, R81, R196, R371, R372, R381, R382, R388, R389, R394, R405, R430: where events of memory, berths and grants run to their effect: a row
of a copy is read, a move goes on a stage and is released, a demotion engine starts, the storage ring answers, a register is written. -/
def Sys2Proof.Claims.MemoryEventsComplete : Prop :=
  (∀ (s : State) (k : Nat) (q : Cmd) (rest : List Cmd) (d : Dst) (a : Src) (spa dpa : Nat → Nat), cpyTurn s k q rest → q.instr = .cpy d a →
    let c := (s.core k).cpy
    let len := fld (q.data.getD 2 0) 0 16
    c.row < fld (q.data.getD 2 0) 16 16 → landsFreely s →
    (∀ i, i < len → mapped s (coreDie k) q.asid ((rowFrom q.data c.row).getD i 0) false (spa i) ∧ s.lineLost (spa i / 64) = false) →
    (∀ i, i < len → mapped s (coreDie k) q.asid ((rowTo q.data c.row).getD i 0) true (dpa i)) →
    Runs (.copyRowRead k) s (fun t => (t.core k).cpy.row = c.row + 1 ∧ (t.core k).cpy.pend.length = c.pend.length + len)) ∧
  (∀ (s : State) (n frame : Nat) (crc : Bool) (m : TierMove), s.ms.moves[n]? = some m →
    (m.stage = 0 → m.by' ≠ .walk → s.ms.own = [] → Runs (.tierMove n ⟨frame, crc⟩) s (fun t => t.ms.moves[n]? = some { m with stage := 1 })) ∧
    (m.stage = 1 → Runs (.tierMove n ⟨frame, crc⟩) s (fun t => t.ms.moves[n]? = some { m with stage := 2 } ∧
      ∀ k, ∀ l ∈ (t.core k).held, ¬ inSource m (l.2 * 64))) ∧
    (m.stage = 2 → m.ring = none → targetOk s n m frame = true → m.dst ≠ 3 → m.src ≠ 3 →
      Runs (.tierMove n ⟨frame, false⟩) s (fun t => t.ms.moves[n]? = some { m with target := frame, stage := 3 })) ∧
    (m.stage = 3 → Runs (.tierMove n ⟨frame, crc⟩) s (fun t => t.ms.moves[n]? = some { m with stage := 4 } ∧
      ∀ e ∈ t.ms.tlb, ¬ (e.asid = m.asid ∧ e.page ≤ m.page + m.run ∧ m.page ≤ e.page + e.run))) ∧
    (4 ≤ m.stage → Runs (.tierMoveRelease n) s (fun t => t.ms.moves = s.ms.moves.eraseIdx n))) ∧
  (∀ (s : State) (die part tier : Nat), tier < 3 → tfind (s.part part).demoting (4 * die + tier) = none →
    (s.part part).soft.getD tier 0 < occupancy s part tier →
    Runs (.demotionEngineStart die part tier) s (fun t => tfind (t.part part).demoting (4 * die + tier) = some 0)) ∧
  (∀ (s : State) (part n : Nat) (ok : Bool), s.skovazDead = false → (∃ m ∈ s.ms.moves, m.part = part ∧ m.ring = some (n, none)) →
    Runs (.storageRingStatus part n ok) s (fun t => ∀ m ∈ t.ms.moves, ¬ (m.part = part ∧ m.ring = some (n, none)))) ∧
  (∀ (s : State) (k : Nat) (v : Word),
    let c := s.core k
    Runs (.femaskWrite k v) s (fun t => ∀ n : XReg, (t.core k).regs.isFull n = (n.val = 0 || v.getLsbD n.val)) ∧
    Runs (.lstatWrite k v) s (fun t => (t.core k).loop0.active = v.getLsbD 0 ∧ (t.core k).loop1.active = v.getLsbD 1) ∧
    Runs (.imppop k) s (fun t => (t.core k).tr.imp = c.tr.imp.drop 1) ∧
    (v.toNat % 16 ≤ 8 → v.toNat % 16 ≠ c.cache → c.cnt.CP = 0 → c.readsDone = true → landsFreely s →
      Runs (.sramcfgWrite k v) s (fun t => (t.core k).cache = v.toNat % 16 ∧ (t.core k).held = [] ∧ (t.core k).dirty = [])) ∧
    (v.toNat % 2 ^ 16 = 0 → c.cnt.LD = 0 → c.cnt.MX = 0 → c.cnt.VX = 0 → c.cnt.CP = 0 → c.cnt.gl = 0 → c.cnt.PS = 0 →
      Runs (.stbaseWrite k v) s (fun t => (t.core k).stbase = v ∧ (t.core k).held = [])) ∧
    (s.corePart c.sup.presel = s.corePart k → ((s.core c.sup.presel).regs.q[(5 : Fin 7)]).length < 16 → (s.core c.sup.presel).regs.held = [] →
      Runs (.npush k v) s (fun t => (t.core c.sup.presel).regs.q[(5 : Fin 7)] =
        (s.core c.sup.presel).regs.q[(5 : Fin 7)] ++ [⟨notice5 4 0 0 (v.toNat % 2 ^ 16), false⟩])) ∧
    (∀ j, 4 ≤ j → j ≤ 12 → v.toNat % 2 ^ 31 = 2 ^ j → Runs (.storqctlWrite k v) s (fun t =>
      (t.part (s.corePart k)).storqCtl = v ∧ (t.part (s.corePart k)).storqTail = 0)) ∧
    (16 ≤ v.toNat → v.toNat ≤ 26 → (berthAt s (s.corePart k) c.sup.berthsel).next = none →
      (berthAt s (s.corePart k) c.sup.berthsel).log < v.toNat →
      Runs (.berthWrite k 0x8DE v) s (fun t => (berthAt t (s.corePart k) c.sup.berthsel).log = v.toNat))) ∧
  (∀ (s : State) (p rank log : Nat) (base : Word), (berthAt s p rank).next = some (base, log) → ¬ berthHolds s p rank →
    rising s.cores → (∀ j l, j ∈ s.cores → l ∈ s.cores → j.2.rank = some rank → l.2.rank = some rank → s.corePart j.1 = p →
      s.corePart l.1 = p → j.1 = l.1) →
    Runs (.berthReconfigApply p rank) s (fun t => (berthAt t p rank).base = base ∧ (berthAt t p rank).log = log ∧
      (berthAt t p rank).next = none)) ∧
  (∀ (s : State) (k : Nat) (v : Word) (pa : Nat),
    let p := s.corePart k
    let rank := (s.core k).sup.ranksel
    fld v 10 16 = s.pkg → v.getLsbD 31 = true → s.corePart (fld v 0 10) = p → (s.core (fld v 0 10)).rank = none → rising s.cores →
    rank < 2 ^ (s.part p).ranklog → s.ms.own = [] → s.ms.moves = [] →
    mapped s (coreDie k) (s.part p).netasid (((s.part p).rankbase.toNat + 4 * rank) % 2 ^ 32) true pa →
    Runs (.ranksetWrite k v) s (fun t => (t.core (fld v 0 10)).rank = some rank)) ∧
  (∀ (s : State) (die n : Nat) (v : Word), die < 8 →
    let p := fld (s.die die).pgsel 0 6
    let i := fld (s.die die).pgsel 8 4
    let r := tget (s.part p).ranges {} i
    (r.lo.toNat ≤ r.hi.toNat → (∀ q ∈ s.parts, q.1 ≠ p → ∀ x ∈ q.2.ranges, x.2.valid = false) →
      Runs (.pgctlWrite die v) s (fun t => tget (t.part p).ranges {} i = { r with valid := v.getLsbD 31 })) ∧
    (n < 3 → (s.part p).hard.getD n 0 ≤ v.toNat → (s.part p).tgrant.length = 3 →
      Runs (.tgrantWrite die n v) s (fun t => (t.part p).tgrant.getD n 0 = v.toNat)))

/-- R89 to R92, R97 to R101, R178, R402 to R404, R408 to R412, R418 to R424, R427, R429: where events of dispatchers, links, the host, the boot
and the service cores run to their effect: a record is taken, a part received, a launch completed or cancelled, a leader elected, a packet
taken, a landing completed, a store of the host made, a test ended, a cluster given, a ring flushed, a sample taken. -/
def Sys2Proof.Claims.PackageEventsComplete : Prop :=
  (∀ (s : State) (l die : Nat) (x : Launch), tfind s.launches l = some x →
    (x.done = false → x.refused = false → x.status = 0 → x.mask / 2 ^ die % 2 = 1 → tfind x.parts die = none → (s.die die).lost = false →
      (∀ y ∈ s.launches, y.2.done = true ∨ y.2 = x) →
      Runs (.launchPartReceive l die) s (fun t => ∃ m p, tfind t.launches l = some m ∧ tfind m.parts die = some p)) ∧
    (∀ p, tfind x.parts die = some p → (∀ c ∈ s.cores, c.2.task = none) →
      (x.done = false → p.left = false → p.waitSince + 2 ^ 26 ≤ s.ck → Runs (.launchStarvationTimeout l die) s (fun t =>
        ∃ m, tfind t.launches l = some m ∧ tfind m.parts die = some { p with starved := true })) ∧
      (x.mask / 2 ^ die % 2 = 0 → (∀ q ∈ p.landings, q = []) → x.again = [] → Runs (.withdrawnDieLeave l die) s (fun t =>
        ∃ m, tfind t.launches l = some m ∧ tfind m.parts die = some { p with left := true, assigned := [] }))) ∧
    (∀ mask, x.done = false → x.refused = false → mask % 256 ≠ 0 → Runs (.dieSetRequest l mask) s (fun t =>
      ∃ m, tfind t.launches l = some m ∧ m.pendMask = some (mask % 256))) ∧
    (x.done = false → x.status = 0 → rising s.cores → Runs (.launchCancel l) s (fun t => ∃ m, tfind t.launches l = some m ∧ m.status = 4 ∧ m.again = [])) ∧
    (x.done = false → atBoundary s l x → x.doneAddr = 0 → Runs (.kernelBoundary l) s (fun t =>
      (∃ m, tfind t.launches l = some m ∧ m.done = true) ∧ ∀ k ∈ x.cores, (t.core k).snap = [])) ∧
    (∀ k n p, k < 1024 → coreDie k = die → (s.core k).isFree = true → (s.die die).lost = false → nextLaunchFor s k = some l →
      x.partFor k = some p → workFor s l x k = some (.flight 0) → x.tileFor k = some n → Runs (.dispatchAssign k l) s (fun t =>
        (∃ a, (t.core k).task = some a ∧ a.launch = l ∧ a.flight = 0) ∧ (t.core k).run = .running ∧
          ∃ m, tfind t.launches l = some m ∧ m.started = n :: x.started))) ∧
  (∀ (s : State) (k : Nat) (v : Word), 4 ≤ fld v 0 4 → fld v 0 4 ≤ 12 → v.getLsbD 7 = false →
    Runs (.wqctlWrite k v) s (fun t => let w := queueAt t (s.core k).sup.wqsel
      w.en = false ∧ w.asid = fld v 16 16 ∧ w.prio = fld v 4 3 ∧ w.log = fld v 0 4)) ∧
  (∀ (s t : State) (q pa : Nat) (w : WorkQueue), tfind s.queues q = some w → w.en = true → s.healthy s.leader = true → w.taila.toNat % 4 = 0 →
    mapped s s.leader w.asid w.taila.toNat false pa → s.ms.owned (pa / 64) = false → wordAt s.ms (.die s.leader) pa = w.head + 1 →
    takes q s t → exec (.wqTailStore q) s = .next t) ∧
  (∀ (s : State) (d : Nat), d < 8 → s.healthy d = true → (∀ j, j < d → s.healthy j = false) → (∀ q ∈ s.queues, q.2.en = false) →
    (s.leader ≠ d → Runs .leaderElection s (fun t => t.leader = d)) ∧
    (s.healthy s.leader = false → (s.die d).heartbeat + 2 ^ 20 ≤ s.ck → Runs (.heartbeatTimeout d) s (fun t => t.leader = d))) ∧
  (∀ (s : State) (p : Packet), p.seq < 2 ^ 32 → (peerAt s p.src).expect < 2 ^ 32 → (peerAt s p.src).heldPk = [] →
    0 < (p.seq + 2 ^ 32 - (peerAt s p.src).expect) % 2 ^ 32 → (p.seq + 2 ^ 32 - (peerAt s p.src).expect) % 2 ^ 32 < 4096 →
    Runs (.quayPacketArrival p) s (fun t => (peerAt t p.src).heldPk = [p])) ∧
  (∀ (s : State) (peer seq ans : Nat), (∃ u ∈ (peerAt s peer).unacked, u.1.seq = seq) →
    (noCoreWaits s peer seq → noRecordWaits s peer seq → nothingQueued s →
      Runs (.e2eAckArrival peer seq ans) s (fun t => ∀ u ∈ (peerAt t peer).unacked, u.1.seq ≠ seq)) ∧
    (s.viral = false → (∃ u ∈ (peerAt s peer).unacked, u.1.seq = seq ∧ u.2 + 2 ^ 18 ≤ s.ck) →
      Runs (.packetRetransmitTimeout peer seq) s (fun t => ∃ u ∈ (peerAt t peer).unacked, u.1.seq = seq ∧ u.2 = s.ck)) ∧
    ((peerAt s peer).lost = false → (peerAt s peer).lastAck + 2 ^ 24 ≤ s.ck →
      Runs (.packageLost peer) s (fun t => (peerAt t peer).lost = true ∧ (peerAt t peer).unacked = []))) ∧
  (∀ (s : State) (n : Nat), n < 36 →
    (tget s.links true n = true → Runs (.linkRemoved n) s (fun t => tget t.links true n = false)) ∧
    Runs (.linkReturn n) s (fun t => tget t.links true n = true)) ∧
  (∀ (s : State) (line k : Nat) (data : List Byte), s.skovazDead = false →
    let one (t : State) : Prop := t.answers.length = s.answers.length + 1
    let written (t : State) (mask : Nat → Bool) : Prop := ∀ i, i < 64 → i < data.length → mask i = true →
      t.ms.byteAt .host (line * 64 + i) = data.getD i 0
    Runs (.snpData line) s one ∧ Runs (.snpCur line) s one ∧ Runs (.memRd line) s one ∧
    (∀ op addr rd, Runs (.m2sRefused ⟨op, addr⟩ rd) s one) ∧
    (s.ms.owned line = false → Runs (.snpInv line data) s (fun t => one t ∧ written t (fun _ => true)) ∧
      Runs (.memWr line data) s (fun t => one t ∧ written t (fun _ => true)) ∧
      ∀ mask, Runs (.memWrPtl line mask data) s (fun t => one t ∧ written t (fun i => mask / 2 ^ i % 2 == 1))) ∧
    (∀ p r, (s.core k).goPend = p :: r →
      Runs (.go k) s (fun t => (t.core k).goPend = r) ∧ Runs (.goWritePull k) s (fun t => (t.core k).goPend = r ∧ one t) ∧
      Runs (.writePull k) s (fun t => (t.core k).goPend = p :: r ∧ one t) ∧
      Runs (.goErr k) s (fun t => (t.core k).goPend = r ∧ t.linePoison p.line = true)) ∧
    Runs .skovazLinkLost s (fun t => t.skovazDead = true)) ∧
  (∀ (s : State) (pass : Nat), s.fw.strapRecovery = false → (∃ a, s.fw.slotA = some a ∧ accepts s.fw a) → s.fw.slotB = none →
    Runs (.powerOnReset ⟨pass, false⟩) s (fun t => t.fw.booted = true ∧ t.cores = [] ∧ ∀ d, d < 8 → (t.die d).bootstat = 0)) ∧
  (∀ (s : State), recovering s →
    (∀ slot img, accepts s.fw img → Runs (.recoveryImageLoad slot img) s (fun t => (if slot then t.fw.slotB else t.fw.slotA) = some img)) ∧
    ∀ hash, s.fw.ownerKeys.length < 4 → Runs (.recoveryKeyEnrol hash true) s (fun t => t.fw.ownerKeys = s.fw.ownerKeys ++ [hash])) ∧
  (∀ (s : State) (die : Nat) (v : Word), die < 8 →
    ((s.die die).bistctl.getLsbD 30 = false → v.getLsbD 31 = true → unused s die (fld v 8 5) (fld v 0 8) →
      Runs (.bistctlGo die v) s (fun t => (t.die die).bistctl.getLsbD 30 = true)) ∧
    ((s.die die).bistctl.getLsbD 30 = true → fld v 0 8 ≤ 2 →
      Runs (.bistComplete die v) s (fun t => (t.die die).bistctl.getLsbD 30 = false ∧ fld (t.die die).bistres 0 16 = fld v 0 16)) ∧
    (v.getLsbD 31 = true → (s.die die).spareUsed = false → (s.die die).spareBad = false → s.cores = [] →
      Runs (.remapGo die v) s (fun t => (t.die die).spareUsed = true ∧ (t.cluster (16 * die + fld v 0 4)).icache = [])) ∧
    (v.getLsbD 31 = true → (s.die die).partsel < 48 → (∃ w ∈ (s.part (s.die die).partsel).tkeyh, w ≠ 0) →
      tget s.ms.asidPart 63 (fld v 0 16) = 63 → Runs (.partctlWrite die v) s (fun t =>
        (t.part (s.die die).partsel).valid = true ∧ (t.part (s.die die).partsel).netasid = fld v 0 16)) ∧
    (v.getLsbD 31 = true → fld v 0 6 < 48 → s.cores = [] → (s.cluster (s.die die).clusel).part = none →
      Runs (.clupartWrite die v) s (fun t => (t.cluster (s.die die).clusel).part = some (fld v 0 6))) ∧
    ((s.die die).lastFlush + 2 ^ 30 ≤ s.ck → Runs (.blackBoxFlush die) s (fun t => (t.die die).bboxFlash = (s.die die).bbox)) ∧
    Runs .inputPowerLoss s (fun t => (t.die die).bboxFlash = (t.die die).bbox ∧ (t.die die).bbox = (s.die die).bbox)) ∧
  (∀ (s : State) (k : Nat) (v : Word) (hp rp : List Nat), v.getLsbD 31 = true → s.ms.own = [] → s.ms.moves = [] → coreDie k < 8 →
    let p := s.corePart k
    let x := s.part p
    let at' (off n : Nat) : List Nat := (List.range n).map (fun i => ((x.polAddr.toNat + off) % 2 ^ 32 + i) % 2 ^ 32)
    translateRun s (coreDie k) (s.core k).masid .load (at' 0 64) [] = (.inl hp, s) →
    let rules := min (wordOf ((dieBytes s (coreDie k) hp).drop 16 |>.take 4)).toNat 1024
    translateRun s (coreDie k) (s.core k).masid .load (at' 64 (16 * rules + 1280)) [] = (.inl rp, s) →
    let bs := dieBytes s (coreDie k) hp ++ dieBytes s (coreDie k) rp
    let w (i : Nat) : Word := wordOf ((bs.drop (4 * i)).take 4)
    Config.signatureVerifies (bytesToNat (bs ++ (x.tkeyh.map (fun w => bytesLE 4 w.toNat)).flatten)) = true → (w 2).toNat = p →
    x.polSeq < (w 3).toNat → policyHolds w → Config.policyFits (bytesToNat bs) = true → (∀ d, d < 8 → (classAt s d 0).old = false) →
    (∀ j, (s.core j).gal.queue = []) →
    Runs (.polctlGo k v) s (fun t => (t.part p).polStatus = 2 ∧ (t.part p).polSeq = (w 3).toNat)) ∧
  (∀ (s : State) (k : Nat), Runs (.bbdataRead k) s (fun t => (t.core k).sup.bbword = (s.core k).sup.bbword + 1)) ∧
  (∀ (s : State) (die mw temp : Nat) (heat : Bool),
    (s.clockStep < 7 → Runs (.clockStep die true heat) s (fun t => t.clockStep = s.clockStep + 1)) ∧
    ((s.die die).lastPower + 2 ^ 24 ≤ s.ck → Runs (.powerSample die mw temp) s (fun t => t.pwrstat = mw % 2 ^ 12 ∧ (t.die die).tjmax = temp % 2 ^ 8)) ∧
    ((s.die die).lastSample + 2 ^ 24 ≤ s.ck → Runs (.telemetryCounterSample die) s (fun t => (t.die die).tele = [] ∧ (t.die die).lastSample = s.ck))) ∧
  (∀ (s : State) (line k : Nat), line < 2 ^ 42 → Runs (.uncorrectableErrorDetected line k false) s (fun t => t.linePoison line = true ∧
    (t.core k).tr.imp.length = (s.core k).tr.imp.length + 1))

end

/-! ## Statements of several parts -/

/-- A decodable word is the word of one instruction only; absent opcodes are no instruction's. -/
def Obligations.WordsHaveOneReading : Prop :=
  Sys2Proof.Claims.EncodeDecodeAgree ∧ Sys2Proof.Claims.AbsentOpcodes

/-- The state that reset leaves, by the tables' reset columns, its memory canonical. -/
def Obligations.ResetLeaves : Prop :=
  Sys2Proof.Claims.ResetState ∧ Sys2Proof.Claims.ResetMemoryCanonical

/-- Settling changes no read; a byte that is published is read by every party in scope, and no other read changes. -/
def Obligations.PublishedByteReads : Prop :=
  Sys2Proof.Claims.SettlingKeepsReads ∧ Sys2Proof.Claims.PublishedByteReads

/-- A step runs the instruction decoded at the PC, or takes the scheduled event. -/
def Obligations.StepRunsDecoded : Prop :=
  Sys2Proof.Claims.StepRunsDecoded ∧ Sys2Proof.Claims.StepTakesEvents

/-- A fetch reads the word at the PC's physical address; a word placed after reset runs next. -/
def Obligations.FetchReadsMemory : Prop :=
  Sys2Proof.Claims.FetchReadsMemory ∧ Sys2Proof.Claims.PlacedWordRuns

/-- Integer instructions: the register's new value, and nothing else; and their words. -/
def Obligations.IntegerResults : Prop :=
  Sys2Proof.Claims.IntegerResults ∧ Sys2Proof.Claims.IntegerWords

/-- A divide issues as a long-latency producer, and its completion writes its value. -/
def Obligations.Divides : Prop :=
  Sys2Proof.Claims.DividesIssue ∧ Sys2Proof.Claims.DivideCompletes

/-- Scalar FP32 instructions write their results; finite sums and products are rounded once. -/
def Obligations.FloatResults : Prop :=
  Sys2Proof.Claims.FloatResults ∧ Sys2Proof.Claims.FloatRounding

/-- NaNs, infinities and conversions of scalar FP32. -/
def Obligations.FloatSpecials : Prop :=
  Sys2Proof.Claims.FloatSpecials ∧ Sys2Proof.Claims.FloatConversions

/-- Register writes, the always-zero x0, full bits, and the values of source operands. -/
def Obligations.RegisterWrites : Prop :=
  Sys2Proof.Claims.RegisterWrites ∧ Sys2Proof.Claims.OperandValues

/-- Branches, jumps, engine-status branches and ALIGN: where the core goes on. -/
def Obligations.Branches : Prop :=
  Sys2Proof.Claims.Branches ∧ Sys2Proof.Claims.Jumps ∧ Sys2Proof.Claims.EngineBranches ∧ Sys2Proof.Claims.Aligns

/-- LOOP, its faults, the loop-back step, the count of passes, and what ends a level. -/
def Obligations.HardwareLoops : Prop :=
  Sys2Proof.Claims.LoopSets ∧ Sys2Proof.Claims.LoopFaults ∧ Sys2Proof.Claims.LoopBacks ∧ Sys2Proof.Claims.LoopPasses ∧
  Sys2Proof.Claims.TransfersLeaveLoops

/-- Loads issue, stores enter the phase buffer, hints complete. -/
def Obligations.LoadsAndStores : Prop :=
  Sys2Proof.Claims.LoadsIssue ∧ Sys2Proof.Claims.StoresBuffer ∧ Sys2Proof.Claims.Hints

/-- A load's completion, its failed translation, and an access rearmed after a notice. -/
def Obligations.LoadCompletions : Prop :=
  Sys2Proof.Claims.LoadsComplete ∧ Sys2Proof.Claims.LoadsFail ∧ Sys2Proof.Claims.RearmedAccesses

/-- Atomics and CAS: their issue, and the one move that reads, appends and writes back. -/
def Obligations.Atomics : Prop :=
  Sys2Proof.Claims.AtomicsIssue ∧ Sys2Proof.Claims.AtomicsPerform ∧ Sys2Proof.Claims.AtomicsWait

/-- PHASE, SyncPoints and landings; WAITC, ARRIVE, AWAIT and SSTEP. -/
def Obligations.PhasesAndSynchronisation : Prop :=
  Sys2Proof.Claims.Phases ∧ Sys2Proof.Claims.AcquiresAndSyncPoints ∧ Sys2Proof.Claims.SyncPointPublishes ∧
  Sys2Proof.Claims.Lands ∧ Sys2Proof.Claims.CounterWaits ∧ Sys2Proof.Claims.Arrives ∧ Sys2Proof.Claims.Awaits ∧
  Sys2Proof.Claims.Steps

/-- EFENCE, ICSYNC, TRAP, BRK, HALT, and words that are no instruction. -/
def Obligations.FencesAndDeliberateTraps : Prop :=
  Sys2Proof.Claims.ErrorFences ∧ Sys2Proof.Claims.InstructionSyncs ∧ Sys2Proof.Claims.DeliberateTraps ∧
  Sys2Proof.Claims.IllegalWords ∧ Sys2Proof.Claims.Halts

/-- A message's arrival, its berth, and the receive that takes it. -/
def Obligations.MessagesAndReceives : Prop :=
  Sys2Proof.Claims.MessagesArrive ∧ Sys2Proof.Claims.Receives

/-- TAKE, PASS, landings, and TDONE. -/
def Obligations.ItemsAndTaskEnds : Prop :=
  Sys2Proof.Claims.Items ∧ Sys2Proof.Claims.TaskEnds

/-- MARK and LAUNCH. -/
def Obligations.MarksAndChildLaunches : Prop :=
  Sys2Proof.Claims.Marks ∧ Sys2Proof.Claims.ChildLaunches

/-- Taking a trap, a double trap, and an upcall: what is saved and where the core goes on. -/
def Obligations.TrapEntry : Prop :=
  Sys2Proof.Claims.TrapEntry ∧ Sys2Proof.Claims.DoubleTrap ∧ Sys2Proof.Claims.Upcalls

/-- A basin's fence, and the delivery of queue entries and imprecise errors. -/
def Obligations.FencesAndDeliveries : Prop :=
  Sys2Proof.Claims.BasinFence ∧ Sys2Proof.Claims.Deliveries

/-- ERET, UPRET, RESUME and YIELD. -/
def Obligations.Returns : Prop :=
  Sys2Proof.Claims.Returns ∧ Sys2Proof.Claims.Resumes ∧ Sys2Proof.Claims.Yields

/-- Breakpoints, halts, single access to a halted core, debug memory access and trace. -/
def Obligations.Debug : Prop :=
  Sys2Proof.Claims.DebugStops ∧ Sys2Proof.Claims.TraceDrains ∧ Sys2Proof.Claims.DebugMemory

/-- CSR instructions: which numbers trap, and the one access of the rest. -/
def Obligations.CsrAccesses : Prop :=
  Sys2Proof.Claims.CsrRefusals ∧ Sys2Proof.Claims.CsrAccesses

/-- CSR writes read back, refused values, and the core's own CSRs. -/
def Obligations.CsrRules : Prop :=
  Sys2Proof.Claims.CsrReadBack ∧ Sys2Proof.Claims.CsrWriteRules ∧ Sys2Proof.Claims.CoreCsrValues ∧
  Sys2Proof.Claims.CoreCsrEvents

/-- SRAM splits, stash instructions, TLBINV, memory registers, and the copy engine's rows. -/
def Obligations.StashRegistersAndCopies : Prop :=
  Sys2Proof.Claims.SramSplits ∧ Sys2Proof.Claims.StashControl ∧ Sys2Proof.Claims.SupervisorRegisters ∧
  Sys2Proof.Claims.Invalidations ∧ Sys2Proof.Claims.CopyRows

/-- Instructions handed to engines: the checks at issue, and the command offered. -/
def Obligations.EngineIssues : Prop :=
  Sys2Proof.Claims.EngineIssues ∧ Sys2Proof.Claims.DescriptorIssues

/-- Vector instructions are handed to the sequencer; vector memory entries at their turn. -/
def Obligations.VectorIssuesAndMemory : Prop :=
  Sys2Proof.Claims.VectorHandOffs ∧ Sys2Proof.Claims.VectorMemory

/-- VCLAIM, VYIELD, VREL, their renegotiation, and VLOOP. -/
def Obligations.GrantsAndVectorLoops : Prop :=
  Sys2Proof.Claims.Renegotiations ∧ Sys2Proof.Claims.VectorLoops

/-- Matrix set-up commands, MMUL's reads, and whose tile starts. -/
def Obligations.MatrixSetUpAndReads : Prop :=
  Sys2Proof.Claims.MatrixSetUp ∧ Sys2Proof.Claims.MatrixReads ∧ Sys2Proof.Claims.MatrixTurns

/-- What MMUL and MSCAC add to the accumulators, for integer and for floating formats. -/
def Obligations.MatrixSums : Prop :=
  Sys2Proof.Claims.MatrixIntegers ∧ Sys2Proof.Claims.MatrixFloats

/-- The array's check under an injected error, MDRN and MCHK. -/
def Obligations.MatrixChecksAndDrains : Prop :=
  Sys2Proof.Claims.MatrixChecks ∧ Sys2Proof.Claims.MatrixDrains

/-- Gallery table writes, commits, the shadow copy, and stage ownership. -/
def Obligations.GalleryTables : Prop :=
  Sys2Proof.Claims.GalleryTables ∧ Sys2Proof.Claims.GallerySets

/-- Gallery records through admission, stages and sinks, and the commands' results. -/
def Obligations.GalleryRecords : Prop :=
  Sys2Proof.Claims.GalleryRecords ∧ Sys2Proof.Claims.GalleryResults

/-- Ferry commands at their turn, and the ferry's registers. -/
def Obligations.FerryCommands : Prop :=
  Sys2Proof.Claims.FerryCommands ∧ Sys2Proof.Claims.FerryRegisters

/-- A ferry round, and the mass that no round, timeout or refusal changes. -/
def Obligations.FerryRounds : Prop :=
  Sys2Proof.Claims.FerryRounds ∧ Sys2Proof.Claims.FerryMass

/-- The fates of ferry halves, and checkpoint copies. -/
def Obligations.FerryHalvesAndCopies : Prop :=
  Sys2Proof.Claims.FerryHalves ∧ Sys2Proof.Claims.FerryCopies

/-- DEMOTE, PROMOTE, the stages of a page move, and demotion engines. -/
def Obligations.TierMoves : Prop :=
  Sys2Proof.Claims.TierCommands ∧ Sys2Proof.Claims.TierMoves ∧ Sys2Proof.Claims.Demotions

/-- Berth registers, rank bindings and frame grants. -/
def Obligations.BerthsRanksAndFrames : Prop :=
  Sys2Proof.Claims.Berths ∧ Sys2Proof.Claims.RankBindings ∧ Sys2Proof.Claims.FrameGrants

/-- A pre-emption: the save asked for, the save, and the restore. -/
def Obligations.Preemption : Prop :=
  Sys2Proof.Claims.SavesAsked ∧ Sys2Proof.Claims.Saves ∧ Sys2Proof.Claims.Restores

/-- Defining and resetting basins, and the loss of a die. -/
def Obligations.BasinsAndDieLosses : Prop :=
  Sys2Proof.Claims.BasinDefinitions ∧ Sys2Proof.Claims.BasinResets ∧ Sys2Proof.Claims.DieLosses

/-- Work queues, the status of a launch record, and the parts of a launch. -/
def Obligations.WorkQueuesAndRecords : Prop :=
  Sys2Proof.Claims.WorkQueues ∧ Sys2Proof.Claims.RecordStatus ∧ Sys2Proof.Claims.LaunchParts

/-- Which task a free core enters, what the dispatcher chooses, and a launch's completion. -/
def Obligations.DispatchAndKernelBoundary : Prop :=
  Sys2Proof.Claims.TaskEntries ∧ Sys2Proof.Claims.DispatchChoices ∧ Sys2Proof.Claims.KernelBoundaries

/-- Packets between packages: sequence, answers, retransmission and loss. -/
def Obligations.QuayLinks : Prop :=
  Sys2Proof.Claims.QuayPackets ∧ Sys2Proof.Claims.QuayAnswers ∧ Sys2Proof.Claims.QuayLosses

/-- The host's accesses, and the completions of writes at H. -/
def Obligations.HostLink : Prop :=
  Sys2Proof.Claims.HostAccesses ∧ Sys2Proof.Claims.HostCompletions

/-- Boot images, self-tests and the remapping of a cluster. -/
def Obligations.BootTestRemap : Prop :=
  Sys2Proof.Claims.Boots ∧ Sys2Proof.Claims.SelfTests ∧ Sys2Proof.Claims.Remaps

/-- Partitions, cluster ownership, policies and the black box. -/
def Obligations.PartitionsAndPolicies : Prop :=
  Sys2Proof.Claims.Partitions ∧ Sys2Proof.Claims.Policies ∧ Sys2Proof.Claims.BlackBoxes

/-- Clock steps, power samples, counters, and uncorrectable errors. -/
def Obligations.PowerAndUncorrectableErrors : Prop :=
  Sys2Proof.Claims.PowerAndCounters ∧ Sys2Proof.Claims.UncorrectableErrors

/-- Where the opcode table's events run to their effect. -/
def Obligations.EventsComplete : Prop :=
  Sys2Proof.Claims.CoreEventsComplete ∧ Sys2Proof.Claims.EngineEventsComplete ∧ Sys2Proof.Claims.MemoryEventsComplete ∧
  Sys2Proof.Claims.PackageEventsComplete
end

