-- ==== Sys2Proof/Laws/State.lean ====
section
/-!
SUPPORT. Sys2Proof/Laws/State.lean: for each update of the state and of a core, what each field holds after it.
-/
namespace Sys2Proof.Machine
open Sys2Proof

/-! Updates of the state. -/

variable (s : State) (k n : Nat) (c : Core)

@[simp] theorem State.setCore_sched : (s.setCore k c).sched = s.sched := rfl
@[simp] theorem State.setCore_cur : (s.setCore k c).cur = s.cur := rfl
@[simp] theorem State.setCore_ck : (s.setCore k c).ck = s.ck := rfl
@[simp] theorem State.setCore_fresh : (s.setCore k c).fresh = s.fresh := rfl
@[simp] theorem State.setCore_cores : (s.setCore k c).cores = tset s.cores k c := rfl
@[simp] theorem State.setCore_clusters : (s.setCore k c).clusters = s.clusters := rfl
@[simp] theorem State.setCore_dies : (s.setCore k c).dies = s.dies := rfl
@[simp] theorem State.setCore_parts : (s.setCore k c).parts = s.parts := rfl
@[simp] theorem State.setCore_ms : (s.setCore k c).ms = s.ms := rfl
@[simp] theorem State.setCore_queues : (s.setCore k c).queues = s.queues := rfl
@[simp] theorem State.setCore_launches : (s.setCore k c).launches = s.launches := rfl
@[simp] theorem State.setCore_nextLaunch : (s.setCore k c).nextLaunch = s.nextLaunch := rfl
@[simp] theorem State.setCore_nextTask : (s.setCore k c).nextTask = s.nextTask := rfl
@[simp] theorem State.setCore_leader : (s.setCore k c).leader = s.leader := rfl
@[simp] theorem State.setCore_saved : (s.setCore k c).saved = s.saved := rfl
@[simp] theorem State.setCore_peers : (s.setCore k c).peers = s.peers := rfl
@[simp] theorem State.setCore_pkg : (s.setCore k c).pkg = s.pkg := rfl
@[simp] theorem State.setCore_links : (s.setCore k c).links = s.links := rfl
@[simp] theorem State.setCore_skovazDead : (s.setCore k c).skovazDead = s.skovazDead := rfl
@[simp] theorem State.setCore_viral : (s.setCore k c).viral = s.viral := rfl
@[simp] theorem State.setCore_viralEn : (s.setCore k c).viralEn = s.viralEn := rfl
@[simp] theorem State.setCore_pwrlim : (s.setCore k c).pwrlim = s.pwrlim := rfl
@[simp] theorem State.setCore_pwrstat : (s.setCore k c).pwrstat = s.pwrstat := rfl
@[simp] theorem State.setCore_clockStep : (s.setCore k c).clockStep = s.clockStep := rfl
@[simp] theorem State.setCore_fw : (s.setCore k c).fw = s.fw := rfl
@[simp] theorem State.setCore_exported : (s.setCore k c).exported = s.exported := rfl
@[simp] theorem State.setCore_withheld : (s.setCore k c).withheld = s.withheld := rfl
@[simp] theorem State.setCore_answers : (s.setCore k c).answers = s.answers := rfl

@[simp] theorem State.updCore_sched (f : Core → Core) : (s.updCore k f).sched = s.sched := rfl
@[simp] theorem State.updCore_cur (f : Core → Core) : (s.updCore k f).cur = s.cur := rfl
@[simp] theorem State.updCore_ck (f : Core → Core) : (s.updCore k f).ck = s.ck := rfl
@[simp] theorem State.updCore_fresh (f : Core → Core) : (s.updCore k f).fresh = s.fresh := rfl
@[simp] theorem State.updCore_cores (f : Core → Core) : (s.updCore k f).cores = tset s.cores k (f (s.core k)) := rfl
@[simp] theorem State.updCore_clusters (f : Core → Core) : (s.updCore k f).clusters = s.clusters := rfl
@[simp] theorem State.updCore_dies (f : Core → Core) : (s.updCore k f).dies = s.dies := rfl
@[simp] theorem State.updCore_parts (f : Core → Core) : (s.updCore k f).parts = s.parts := rfl
@[simp] theorem State.updCore_ms (f : Core → Core) : (s.updCore k f).ms = s.ms := rfl
@[simp] theorem State.updCore_queues (f : Core → Core) : (s.updCore k f).queues = s.queues := rfl
@[simp] theorem State.updCore_launches (f : Core → Core) : (s.updCore k f).launches = s.launches := rfl
@[simp] theorem State.updCore_nextLaunch (f : Core → Core) : (s.updCore k f).nextLaunch = s.nextLaunch := rfl
@[simp] theorem State.updCore_nextTask (f : Core → Core) : (s.updCore k f).nextTask = s.nextTask := rfl
@[simp] theorem State.updCore_leader (f : Core → Core) : (s.updCore k f).leader = s.leader := rfl
@[simp] theorem State.updCore_saved (f : Core → Core) : (s.updCore k f).saved = s.saved := rfl
@[simp] theorem State.updCore_peers (f : Core → Core) : (s.updCore k f).peers = s.peers := rfl
@[simp] theorem State.updCore_pkg (f : Core → Core) : (s.updCore k f).pkg = s.pkg := rfl
@[simp] theorem State.updCore_links (f : Core → Core) : (s.updCore k f).links = s.links := rfl
@[simp] theorem State.updCore_skovazDead (f : Core → Core) : (s.updCore k f).skovazDead = s.skovazDead := rfl
@[simp] theorem State.updCore_viral (f : Core → Core) : (s.updCore k f).viral = s.viral := rfl
@[simp] theorem State.updCore_viralEn (f : Core → Core) : (s.updCore k f).viralEn = s.viralEn := rfl
@[simp] theorem State.updCore_pwrlim (f : Core → Core) : (s.updCore k f).pwrlim = s.pwrlim := rfl
@[simp] theorem State.updCore_pwrstat (f : Core → Core) : (s.updCore k f).pwrstat = s.pwrstat := rfl
@[simp] theorem State.updCore_clockStep (f : Core → Core) : (s.updCore k f).clockStep = s.clockStep := rfl
@[simp] theorem State.updCore_fw (f : Core → Core) : (s.updCore k f).fw = s.fw := rfl
@[simp] theorem State.updCore_exported (f : Core → Core) : (s.updCore k f).exported = s.exported := rfl
@[simp] theorem State.updCore_withheld (f : Core → Core) : (s.updCore k f).withheld = s.withheld := rfl
@[simp] theorem State.updCore_answers (f : Core → Core) : (s.updCore k f).answers = s.answers := rfl

@[simp] theorem State.updCluster_sched (f : Cluster → Cluster) : (s.updCluster n f).sched = s.sched := rfl
@[simp] theorem State.updCluster_cur (f : Cluster → Cluster) : (s.updCluster n f).cur = s.cur := rfl
@[simp] theorem State.updCluster_ck (f : Cluster → Cluster) : (s.updCluster n f).ck = s.ck := rfl
@[simp] theorem State.updCluster_fresh (f : Cluster → Cluster) : (s.updCluster n f).fresh = s.fresh := rfl
@[simp] theorem State.updCluster_cores (f : Cluster → Cluster) : (s.updCluster n f).cores = s.cores := rfl
@[simp] theorem State.updCluster_clusters (f : Cluster → Cluster) : (s.updCluster n f).clusters = tset s.clusters n (f (s.cluster n)) := rfl
@[simp] theorem State.updCluster_dies (f : Cluster → Cluster) : (s.updCluster n f).dies = s.dies := rfl
@[simp] theorem State.updCluster_parts (f : Cluster → Cluster) : (s.updCluster n f).parts = s.parts := rfl
@[simp] theorem State.updCluster_ms (f : Cluster → Cluster) : (s.updCluster n f).ms = s.ms := rfl
@[simp] theorem State.updCluster_queues (f : Cluster → Cluster) : (s.updCluster n f).queues = s.queues := rfl
@[simp] theorem State.updCluster_launches (f : Cluster → Cluster) : (s.updCluster n f).launches = s.launches := rfl
@[simp] theorem State.updCluster_nextLaunch (f : Cluster → Cluster) : (s.updCluster n f).nextLaunch = s.nextLaunch := rfl
@[simp] theorem State.updCluster_nextTask (f : Cluster → Cluster) : (s.updCluster n f).nextTask = s.nextTask := rfl
@[simp] theorem State.updCluster_leader (f : Cluster → Cluster) : (s.updCluster n f).leader = s.leader := rfl
@[simp] theorem State.updCluster_saved (f : Cluster → Cluster) : (s.updCluster n f).saved = s.saved := rfl
@[simp] theorem State.updCluster_peers (f : Cluster → Cluster) : (s.updCluster n f).peers = s.peers := rfl
@[simp] theorem State.updCluster_pkg (f : Cluster → Cluster) : (s.updCluster n f).pkg = s.pkg := rfl
@[simp] theorem State.updCluster_links (f : Cluster → Cluster) : (s.updCluster n f).links = s.links := rfl
@[simp] theorem State.updCluster_skovazDead (f : Cluster → Cluster) : (s.updCluster n f).skovazDead = s.skovazDead := rfl
@[simp] theorem State.updCluster_viral (f : Cluster → Cluster) : (s.updCluster n f).viral = s.viral := rfl
@[simp] theorem State.updCluster_viralEn (f : Cluster → Cluster) : (s.updCluster n f).viralEn = s.viralEn := rfl
@[simp] theorem State.updCluster_pwrlim (f : Cluster → Cluster) : (s.updCluster n f).pwrlim = s.pwrlim := rfl
@[simp] theorem State.updCluster_pwrstat (f : Cluster → Cluster) : (s.updCluster n f).pwrstat = s.pwrstat := rfl
@[simp] theorem State.updCluster_clockStep (f : Cluster → Cluster) : (s.updCluster n f).clockStep = s.clockStep := rfl
@[simp] theorem State.updCluster_fw (f : Cluster → Cluster) : (s.updCluster n f).fw = s.fw := rfl
@[simp] theorem State.updCluster_exported (f : Cluster → Cluster) : (s.updCluster n f).exported = s.exported := rfl
@[simp] theorem State.updCluster_withheld (f : Cluster → Cluster) : (s.updCluster n f).withheld = s.withheld := rfl
@[simp] theorem State.updCluster_answers (f : Cluster → Cluster) : (s.updCluster n f).answers = s.answers := rfl

@[simp] theorem State.updDie_sched (f : Die → Die) : (s.updDie n f).sched = s.sched := rfl
@[simp] theorem State.updDie_cur (f : Die → Die) : (s.updDie n f).cur = s.cur := rfl
@[simp] theorem State.updDie_ck (f : Die → Die) : (s.updDie n f).ck = s.ck := rfl
@[simp] theorem State.updDie_fresh (f : Die → Die) : (s.updDie n f).fresh = s.fresh := rfl
@[simp] theorem State.updDie_cores (f : Die → Die) : (s.updDie n f).cores = s.cores := rfl
@[simp] theorem State.updDie_clusters (f : Die → Die) : (s.updDie n f).clusters = s.clusters := rfl
@[simp] theorem State.updDie_dies (f : Die → Die) : (s.updDie n f).dies = tset s.dies n (f (s.die n)) := rfl
@[simp] theorem State.updDie_parts (f : Die → Die) : (s.updDie n f).parts = s.parts := rfl
@[simp] theorem State.updDie_ms (f : Die → Die) : (s.updDie n f).ms = s.ms := rfl
@[simp] theorem State.updDie_queues (f : Die → Die) : (s.updDie n f).queues = s.queues := rfl
@[simp] theorem State.updDie_launches (f : Die → Die) : (s.updDie n f).launches = s.launches := rfl
@[simp] theorem State.updDie_nextLaunch (f : Die → Die) : (s.updDie n f).nextLaunch = s.nextLaunch := rfl
@[simp] theorem State.updDie_nextTask (f : Die → Die) : (s.updDie n f).nextTask = s.nextTask := rfl
@[simp] theorem State.updDie_leader (f : Die → Die) : (s.updDie n f).leader = s.leader := rfl
@[simp] theorem State.updDie_saved (f : Die → Die) : (s.updDie n f).saved = s.saved := rfl
@[simp] theorem State.updDie_peers (f : Die → Die) : (s.updDie n f).peers = s.peers := rfl
@[simp] theorem State.updDie_pkg (f : Die → Die) : (s.updDie n f).pkg = s.pkg := rfl
@[simp] theorem State.updDie_links (f : Die → Die) : (s.updDie n f).links = s.links := rfl
@[simp] theorem State.updDie_skovazDead (f : Die → Die) : (s.updDie n f).skovazDead = s.skovazDead := rfl
@[simp] theorem State.updDie_viral (f : Die → Die) : (s.updDie n f).viral = s.viral := rfl
@[simp] theorem State.updDie_viralEn (f : Die → Die) : (s.updDie n f).viralEn = s.viralEn := rfl
@[simp] theorem State.updDie_pwrlim (f : Die → Die) : (s.updDie n f).pwrlim = s.pwrlim := rfl
@[simp] theorem State.updDie_pwrstat (f : Die → Die) : (s.updDie n f).pwrstat = s.pwrstat := rfl
@[simp] theorem State.updDie_clockStep (f : Die → Die) : (s.updDie n f).clockStep = s.clockStep := rfl
@[simp] theorem State.updDie_fw (f : Die → Die) : (s.updDie n f).fw = s.fw := rfl
@[simp] theorem State.updDie_exported (f : Die → Die) : (s.updDie n f).exported = s.exported := rfl
@[simp] theorem State.updDie_withheld (f : Die → Die) : (s.updDie n f).withheld = s.withheld := rfl
@[simp] theorem State.updDie_answers (f : Die → Die) : (s.updDie n f).answers = s.answers := rfl

@[simp] theorem State.updPart_sched (f : Partition → Partition) : (s.updPart n f).sched = s.sched := rfl
@[simp] theorem State.updPart_cur (f : Partition → Partition) : (s.updPart n f).cur = s.cur := rfl
@[simp] theorem State.updPart_ck (f : Partition → Partition) : (s.updPart n f).ck = s.ck := rfl
@[simp] theorem State.updPart_fresh (f : Partition → Partition) : (s.updPart n f).fresh = s.fresh := rfl
@[simp] theorem State.updPart_cores (f : Partition → Partition) : (s.updPart n f).cores = s.cores := rfl
@[simp] theorem State.updPart_clusters (f : Partition → Partition) : (s.updPart n f).clusters = s.clusters := rfl
@[simp] theorem State.updPart_dies (f : Partition → Partition) : (s.updPart n f).dies = s.dies := rfl
@[simp] theorem State.updPart_parts (f : Partition → Partition) : (s.updPart n f).parts = tset s.parts n (f (s.part n)) := rfl
@[simp] theorem State.updPart_ms (f : Partition → Partition) : (s.updPart n f).ms = s.ms := rfl
@[simp] theorem State.updPart_queues (f : Partition → Partition) : (s.updPart n f).queues = s.queues := rfl
@[simp] theorem State.updPart_launches (f : Partition → Partition) : (s.updPart n f).launches = s.launches := rfl
@[simp] theorem State.updPart_nextLaunch (f : Partition → Partition) : (s.updPart n f).nextLaunch = s.nextLaunch := rfl
@[simp] theorem State.updPart_nextTask (f : Partition → Partition) : (s.updPart n f).nextTask = s.nextTask := rfl
@[simp] theorem State.updPart_leader (f : Partition → Partition) : (s.updPart n f).leader = s.leader := rfl
@[simp] theorem State.updPart_saved (f : Partition → Partition) : (s.updPart n f).saved = s.saved := rfl
@[simp] theorem State.updPart_peers (f : Partition → Partition) : (s.updPart n f).peers = s.peers := rfl
@[simp] theorem State.updPart_pkg (f : Partition → Partition) : (s.updPart n f).pkg = s.pkg := rfl
@[simp] theorem State.updPart_links (f : Partition → Partition) : (s.updPart n f).links = s.links := rfl
@[simp] theorem State.updPart_skovazDead (f : Partition → Partition) : (s.updPart n f).skovazDead = s.skovazDead := rfl
@[simp] theorem State.updPart_viral (f : Partition → Partition) : (s.updPart n f).viral = s.viral := rfl
@[simp] theorem State.updPart_viralEn (f : Partition → Partition) : (s.updPart n f).viralEn = s.viralEn := rfl
@[simp] theorem State.updPart_pwrlim (f : Partition → Partition) : (s.updPart n f).pwrlim = s.pwrlim := rfl
@[simp] theorem State.updPart_pwrstat (f : Partition → Partition) : (s.updPart n f).pwrstat = s.pwrstat := rfl
@[simp] theorem State.updPart_clockStep (f : Partition → Partition) : (s.updPart n f).clockStep = s.clockStep := rfl
@[simp] theorem State.updPart_fw (f : Partition → Partition) : (s.updPart n f).fw = s.fw := rfl
@[simp] theorem State.updPart_exported (f : Partition → Partition) : (s.updPart n f).exported = s.exported := rfl
@[simp] theorem State.updPart_withheld (f : Partition → Partition) : (s.updPart n f).withheld = s.withheld := rfl
@[simp] theorem State.updPart_answers (f : Partition → Partition) : (s.updPart n f).answers = s.answers := rfl

@[simp] theorem State.updMs_sched (f : MemSys → MemSys) : (s.updMs f).sched = s.sched := rfl
@[simp] theorem State.updMs_cur (f : MemSys → MemSys) : (s.updMs f).cur = s.cur := rfl
@[simp] theorem State.updMs_ck (f : MemSys → MemSys) : (s.updMs f).ck = s.ck := rfl
@[simp] theorem State.updMs_fresh (f : MemSys → MemSys) : (s.updMs f).fresh = s.fresh := rfl
@[simp] theorem State.updMs_cores (f : MemSys → MemSys) : (s.updMs f).cores = s.cores := rfl
@[simp] theorem State.updMs_clusters (f : MemSys → MemSys) : (s.updMs f).clusters = s.clusters := rfl
@[simp] theorem State.updMs_dies (f : MemSys → MemSys) : (s.updMs f).dies = s.dies := rfl
@[simp] theorem State.updMs_parts (f : MemSys → MemSys) : (s.updMs f).parts = s.parts := rfl
@[simp] theorem State.updMs_ms (f : MemSys → MemSys) : (s.updMs f).ms = f s.ms := rfl
@[simp] theorem State.updMs_queues (f : MemSys → MemSys) : (s.updMs f).queues = s.queues := rfl
@[simp] theorem State.updMs_launches (f : MemSys → MemSys) : (s.updMs f).launches = s.launches := rfl
@[simp] theorem State.updMs_nextLaunch (f : MemSys → MemSys) : (s.updMs f).nextLaunch = s.nextLaunch := rfl
@[simp] theorem State.updMs_nextTask (f : MemSys → MemSys) : (s.updMs f).nextTask = s.nextTask := rfl
@[simp] theorem State.updMs_leader (f : MemSys → MemSys) : (s.updMs f).leader = s.leader := rfl
@[simp] theorem State.updMs_saved (f : MemSys → MemSys) : (s.updMs f).saved = s.saved := rfl
@[simp] theorem State.updMs_peers (f : MemSys → MemSys) : (s.updMs f).peers = s.peers := rfl
@[simp] theorem State.updMs_pkg (f : MemSys → MemSys) : (s.updMs f).pkg = s.pkg := rfl
@[simp] theorem State.updMs_links (f : MemSys → MemSys) : (s.updMs f).links = s.links := rfl
@[simp] theorem State.updMs_skovazDead (f : MemSys → MemSys) : (s.updMs f).skovazDead = s.skovazDead := rfl
@[simp] theorem State.updMs_viral (f : MemSys → MemSys) : (s.updMs f).viral = s.viral := rfl
@[simp] theorem State.updMs_viralEn (f : MemSys → MemSys) : (s.updMs f).viralEn = s.viralEn := rfl
@[simp] theorem State.updMs_pwrlim (f : MemSys → MemSys) : (s.updMs f).pwrlim = s.pwrlim := rfl
@[simp] theorem State.updMs_pwrstat (f : MemSys → MemSys) : (s.updMs f).pwrstat = s.pwrstat := rfl
@[simp] theorem State.updMs_clockStep (f : MemSys → MemSys) : (s.updMs f).clockStep = s.clockStep := rfl
@[simp] theorem State.updMs_fw (f : MemSys → MemSys) : (s.updMs f).fw = s.fw := rfl
@[simp] theorem State.updMs_exported (f : MemSys → MemSys) : (s.updMs f).exported = s.exported := rfl
@[simp] theorem State.updMs_withheld (f : MemSys → MemSys) : (s.updMs f).withheld = s.withheld := rfl
@[simp] theorem State.updMs_answers (f : MemSys → MemSys) : (s.updMs f).answers = s.answers := rfl

/-! Updates of a core. -/

@[simp] theorem Core.leave_regs : (c.leave).regs = c.regs := rfl
@[simp] theorem Core.leave_pc : (c.leave).pc = c.pc := rfl
@[simp] theorem Core.leave_priv : (c.leave).priv = c.priv := rfl
@[simp] theorem Core.leave_run : (c.leave).run = c.run := rfl
@[simp] theorem Core.leave_fenced : (c.leave).fenced = c.fenced := rfl
@[simp] theorem Core.leave_standing : (c.leave).standing = none := rfl
@[simp] theorem Core.leave_pubDone : (c.leave).pubDone = false := rfl
@[simp] theorem Core.leave_hand : (c.leave).hand = none := rfl
@[simp] theorem Core.leave_pops : (c.leave).pops = [] := rfl
@[simp] theorem Core.leave_handPoison : (c.leave).handPoison = false := rfl
@[simp] theorem Core.leave_waitSince : (c.leave).waitSince = 0 := rfl
@[simp] theorem Core.leave_emptySince : (c.leave).emptySince = c.emptySince := rfl
@[simp] theorem Core.leave_woken : (c.leave).woken = false := rfl
@[simp] theorem Core.leave_freed : (c.leave).freed = false := rfl
@[simp] theorem Core.leave_fbuf : (c.leave).fbuf = [] := rfl
@[simp] theorem Core.leave_loop0 : (c.leave).loop0 = c.loop0 := rfl
@[simp] theorem Core.leave_loop1 : (c.leave).loop1 = c.loop1 := rfl
@[simp] theorem Core.leave_up : (c.leave).up = c.up := rfl
@[simp] theorem Core.leave_tr : (c.leave).tr = c.tr := rfl
@[simp] theorem Core.leave_alignlim : (c.leave).alignlim = c.alignlim := rfl
@[simp] theorem Core.leave_cache : (c.leave).cache = c.cache := rfl
@[simp] theorem Core.leave_group : (c.leave).group = c.group := rfl
@[simp] theorem Core.leave_markin : (c.leave).markin = c.markin := rfl
@[simp] theorem Core.leave_marked : (c.leave).marked = c.marked := rfl
@[simp] theorem Core.leave_rank : (c.leave).rank = c.rank := rfl
@[simp] theorem Core.leave_masid : (c.leave).masid = c.masid := rfl
@[simp] theorem Core.leave_task : (c.leave).task = c.task := rfl
@[simp] theorem Core.leave_cnt : (c.leave).cnt = c.cnt := rfl
@[simp] theorem Core.leave_buf : (c.leave).buf = c.buf := rfl
@[simp] theorem Core.leave_out : (c.leave).out = c.out := rfl
@[simp] theorem Core.leave_snap : (c.leave).snap = c.snap := rfl
@[simp] theorem Core.leave_acc : (c.leave).acc = c.acc := rfl
@[simp] theorem Core.leave_pageWaits : (c.leave).pageWaits = c.pageWaits := rfl
@[simp] theorem Core.leave_discarded : (c.leave).discarded = c.discarded := rfl
@[simp] theorem Core.leave_arrived : (c.leave).arrived = c.arrived := rfl
@[simp] theorem Core.leave_notices : (c.leave).notices = c.notices := rfl
@[simp] theorem Core.leave_recvq : (c.leave).recvq = c.recvq := rfl
@[simp] theorem Core.leave_rankCache : (c.leave).rankCache = c.rankCache := rfl
@[simp] theorem Core.leave_sup : (c.leave).sup = c.sup := rfl
@[simp] theorem Core.leave_dbg : (c.leave).dbg = c.dbg := rfl
@[simp] theorem Core.leave_stbase : (c.leave).stbase = c.stbase := rfl
@[simp] theorem Core.leave_stdef : (c.leave).stdef = c.stdef := rfl
@[simp] theorem Core.leave_held : (c.leave).held = c.held := rfl
@[simp] theorem Core.leave_dirty : (c.leave).dirty = c.dirty := rfl
@[simp] theorem Core.leave_goPend : (c.leave).goPend = c.goPend := rfl
@[simp] theorem Core.leave_saveReq : (c.leave).saveReq = c.saveReq := rfl
@[simp] theorem Core.leave_vec : (c.leave).vec = c.vec := rfl
@[simp] theorem Core.leave_mat : (c.leave).mat = c.mat := rfl
@[simp] theorem Core.leave_cpy : (c.leave).cpy = c.cpy := rfl
@[simp] theorem Core.leave_gal : (c.leave).gal = c.gal := rfl
@[simp] theorem Core.leave_fer : (c.leave).fer = c.fer := rfl

@[simp] theorem Core.seal_regs (sc : Scope) : (c.seal sc).regs = c.regs := rfl
@[simp] theorem Core.seal_pc (sc : Scope) : (c.seal sc).pc = c.pc := rfl
@[simp] theorem Core.seal_priv (sc : Scope) : (c.seal sc).priv = c.priv := rfl
@[simp] theorem Core.seal_run (sc : Scope) : (c.seal sc).run = c.run := rfl
@[simp] theorem Core.seal_fenced (sc : Scope) : (c.seal sc).fenced = c.fenced := rfl
@[simp] theorem Core.seal_standing (sc : Scope) : (c.seal sc).standing = c.standing := rfl
@[simp] theorem Core.seal_pubDone (sc : Scope) : (c.seal sc).pubDone = c.pubDone := rfl
@[simp] theorem Core.seal_hand (sc : Scope) : (c.seal sc).hand = c.hand := rfl
@[simp] theorem Core.seal_pops (sc : Scope) : (c.seal sc).pops = c.pops := rfl
@[simp] theorem Core.seal_handPoison (sc : Scope) : (c.seal sc).handPoison = c.handPoison := rfl
@[simp] theorem Core.seal_waitSince (sc : Scope) : (c.seal sc).waitSince = c.waitSince := rfl
@[simp] theorem Core.seal_emptySince (sc : Scope) : (c.seal sc).emptySince = c.emptySince := rfl
@[simp] theorem Core.seal_woken (sc : Scope) : (c.seal sc).woken = c.woken := rfl
@[simp] theorem Core.seal_freed (sc : Scope) : (c.seal sc).freed = c.freed := rfl
@[simp] theorem Core.seal_fbuf (sc : Scope) : (c.seal sc).fbuf = c.fbuf := rfl
@[simp] theorem Core.seal_loop0 (sc : Scope) : (c.seal sc).loop0 = c.loop0 := rfl
@[simp] theorem Core.seal_loop1 (sc : Scope) : (c.seal sc).loop1 = c.loop1 := rfl
@[simp] theorem Core.seal_up (sc : Scope) : (c.seal sc).up = c.up := rfl
@[simp] theorem Core.seal_tr (sc : Scope) : (c.seal sc).tr = c.tr := rfl
@[simp] theorem Core.seal_alignlim (sc : Scope) : (c.seal sc).alignlim = c.alignlim := rfl
@[simp] theorem Core.seal_cache (sc : Scope) : (c.seal sc).cache = c.cache := rfl
@[simp] theorem Core.seal_group (sc : Scope) : (c.seal sc).group = c.group := rfl
@[simp] theorem Core.seal_markin (sc : Scope) : (c.seal sc).markin = c.markin := rfl
@[simp] theorem Core.seal_marked (sc : Scope) : (c.seal sc).marked = c.marked := rfl
@[simp] theorem Core.seal_rank (sc : Scope) : (c.seal sc).rank = c.rank := rfl
@[simp] theorem Core.seal_masid (sc : Scope) : (c.seal sc).masid = c.masid := rfl
@[simp] theorem Core.seal_task (sc : Scope) : (c.seal sc).task = c.task := rfl
@[simp] theorem Core.seal_buf (sc : Scope) : (c.seal sc).buf = [] := rfl
@[simp] theorem Core.seal_out (sc : Scope) : (c.seal sc).out = c.out ++ c.buf.map (fun e => OutItem.entry e sc) ++ [.mark sc c.launch] := rfl
@[simp] theorem Core.seal_snap (sc : Scope) : (c.seal sc).snap = c.snap := rfl
@[simp] theorem Core.seal_acc (sc : Scope) : (c.seal sc).acc = c.acc := rfl
@[simp] theorem Core.seal_pageWaits (sc : Scope) : (c.seal sc).pageWaits = c.pageWaits := rfl
@[simp] theorem Core.seal_discarded (sc : Scope) : (c.seal sc).discarded = c.discarded := rfl
@[simp] theorem Core.seal_arrived (sc : Scope) : (c.seal sc).arrived = c.arrived := rfl
@[simp] theorem Core.seal_notices (sc : Scope) : (c.seal sc).notices = c.notices := rfl
@[simp] theorem Core.seal_recvq (sc : Scope) : (c.seal sc).recvq = c.recvq := rfl
@[simp] theorem Core.seal_rankCache (sc : Scope) : (c.seal sc).rankCache = c.rankCache := rfl
@[simp] theorem Core.seal_sup (sc : Scope) : (c.seal sc).sup = c.sup := rfl
@[simp] theorem Core.seal_dbg (sc : Scope) : (c.seal sc).dbg = c.dbg := rfl
@[simp] theorem Core.seal_stbase (sc : Scope) : (c.seal sc).stbase = c.stbase := rfl
@[simp] theorem Core.seal_stdef (sc : Scope) : (c.seal sc).stdef = c.stdef := rfl
@[simp] theorem Core.seal_held (sc : Scope) : (c.seal sc).held = c.held := rfl
@[simp] theorem Core.seal_dirty (sc : Scope) : (c.seal sc).dirty = c.dirty := rfl
@[simp] theorem Core.seal_goPend (sc : Scope) : (c.seal sc).goPend = c.goPend := rfl
@[simp] theorem Core.seal_saveReq (sc : Scope) : (c.seal sc).saveReq = c.saveReq := rfl
@[simp] theorem Core.seal_vec (sc : Scope) : (c.seal sc).vec = c.vec := rfl
@[simp] theorem Core.seal_mat (sc : Scope) : (c.seal sc).mat = c.mat := rfl
@[simp] theorem Core.seal_cpy (sc : Scope) : (c.seal sc).cpy = c.cpy := rfl
@[simp] theorem Core.seal_gal (sc : Scope) : (c.seal sc).gal = c.gal := rfl
@[simp] theorem Core.seal_fer (sc : Scope) : (c.seal sc).fer = c.fer := rfl

@[simp] theorem Core.bump_regs (e : Engine) (n : Nat) : (c.bump e n).regs = c.regs := rfl
@[simp] theorem Core.bump_pc (e : Engine) (n : Nat) : (c.bump e n).pc = c.pc := rfl
@[simp] theorem Core.bump_priv (e : Engine) (n : Nat) : (c.bump e n).priv = c.priv := rfl
@[simp] theorem Core.bump_run (e : Engine) (n : Nat) : (c.bump e n).run = c.run := rfl
@[simp] theorem Core.bump_fenced (e : Engine) (n : Nat) : (c.bump e n).fenced = c.fenced := rfl
@[simp] theorem Core.bump_standing (e : Engine) (n : Nat) : (c.bump e n).standing = c.standing := rfl
@[simp] theorem Core.bump_pubDone (e : Engine) (n : Nat) : (c.bump e n).pubDone = c.pubDone := rfl
@[simp] theorem Core.bump_hand (e : Engine) (n : Nat) : (c.bump e n).hand = c.hand := rfl
@[simp] theorem Core.bump_pops (e : Engine) (n : Nat) : (c.bump e n).pops = c.pops := rfl
@[simp] theorem Core.bump_handPoison (e : Engine) (n : Nat) : (c.bump e n).handPoison = c.handPoison := rfl
@[simp] theorem Core.bump_waitSince (e : Engine) (n : Nat) : (c.bump e n).waitSince = c.waitSince := rfl
@[simp] theorem Core.bump_emptySince (e : Engine) (n : Nat) : (c.bump e n).emptySince = c.emptySince := rfl
@[simp] theorem Core.bump_woken (e : Engine) (n : Nat) : (c.bump e n).woken = c.woken := rfl
@[simp] theorem Core.bump_freed (e : Engine) (n : Nat) : (c.bump e n).freed = c.freed := rfl
@[simp] theorem Core.bump_fbuf (e : Engine) (n : Nat) : (c.bump e n).fbuf = c.fbuf := rfl
@[simp] theorem Core.bump_loop0 (e : Engine) (n : Nat) : (c.bump e n).loop0 = c.loop0 := rfl
@[simp] theorem Core.bump_loop1 (e : Engine) (n : Nat) : (c.bump e n).loop1 = c.loop1 := rfl
@[simp] theorem Core.bump_up (e : Engine) (n : Nat) : (c.bump e n).up = c.up := rfl
@[simp] theorem Core.bump_tr (e : Engine) (n : Nat) : (c.bump e n).tr = c.tr := rfl
@[simp] theorem Core.bump_alignlim (e : Engine) (n : Nat) : (c.bump e n).alignlim = c.alignlim := rfl
@[simp] theorem Core.bump_cache (e : Engine) (n : Nat) : (c.bump e n).cache = c.cache := rfl
@[simp] theorem Core.bump_group (e : Engine) (n : Nat) : (c.bump e n).group = c.group := rfl
@[simp] theorem Core.bump_markin (e : Engine) (n : Nat) : (c.bump e n).markin = c.markin := rfl
@[simp] theorem Core.bump_marked (e : Engine) (n : Nat) : (c.bump e n).marked = c.marked := rfl
@[simp] theorem Core.bump_rank (e : Engine) (n : Nat) : (c.bump e n).rank = c.rank := rfl
@[simp] theorem Core.bump_masid (e : Engine) (n : Nat) : (c.bump e n).masid = c.masid := rfl
@[simp] theorem Core.bump_task (e : Engine) (n : Nat) : (c.bump e n).task = c.task := rfl
@[simp] theorem Core.bump_cnt (e : Engine) (n : Nat) : (c.bump e n).cnt = c.cnt.set (engineCounter e) (c.cnt.get (engineCounter e) + n) := rfl
@[simp] theorem Core.bump_buf (e : Engine) (n : Nat) : (c.bump e n).buf = c.buf := rfl
@[simp] theorem Core.bump_out (e : Engine) (n : Nat) : (c.bump e n).out = c.out := rfl
@[simp] theorem Core.bump_snap (e : Engine) (n : Nat) : (c.bump e n).snap = c.snap := rfl
@[simp] theorem Core.bump_acc (e : Engine) (n : Nat) : (c.bump e n).acc = c.acc := rfl
@[simp] theorem Core.bump_pageWaits (e : Engine) (n : Nat) : (c.bump e n).pageWaits = c.pageWaits := rfl
@[simp] theorem Core.bump_discarded (e : Engine) (n : Nat) : (c.bump e n).discarded = c.discarded := rfl
@[simp] theorem Core.bump_arrived (e : Engine) (n : Nat) : (c.bump e n).arrived = c.arrived := rfl
@[simp] theorem Core.bump_notices (e : Engine) (n : Nat) : (c.bump e n).notices = c.notices := rfl
@[simp] theorem Core.bump_recvq (e : Engine) (n : Nat) : (c.bump e n).recvq = c.recvq := rfl
@[simp] theorem Core.bump_rankCache (e : Engine) (n : Nat) : (c.bump e n).rankCache = c.rankCache := rfl
@[simp] theorem Core.bump_sup (e : Engine) (n : Nat) : (c.bump e n).sup = c.sup := rfl
@[simp] theorem Core.bump_dbg (e : Engine) (n : Nat) : (c.bump e n).dbg = c.dbg := rfl
@[simp] theorem Core.bump_stbase (e : Engine) (n : Nat) : (c.bump e n).stbase = c.stbase := rfl
@[simp] theorem Core.bump_stdef (e : Engine) (n : Nat) : (c.bump e n).stdef = c.stdef := rfl
@[simp] theorem Core.bump_held (e : Engine) (n : Nat) : (c.bump e n).held = c.held := rfl
@[simp] theorem Core.bump_dirty (e : Engine) (n : Nat) : (c.bump e n).dirty = c.dirty := rfl
@[simp] theorem Core.bump_goPend (e : Engine) (n : Nat) : (c.bump e n).goPend = c.goPend := rfl
@[simp] theorem Core.bump_saveReq (e : Engine) (n : Nat) : (c.bump e n).saveReq = c.saveReq := rfl
@[simp] theorem Core.bump_vec (e : Engine) (n : Nat) : (c.bump e n).vec = c.vec := rfl
@[simp] theorem Core.bump_mat (e : Engine) (n : Nat) : (c.bump e n).mat = c.mat := rfl
@[simp] theorem Core.bump_cpy (e : Engine) (n : Nat) : (c.bump e n).cpy = c.cpy := rfl
@[simp] theorem Core.bump_gal (e : Engine) (n : Nat) : (c.bump e n).gal = c.gal := rfl
@[simp] theorem Core.bump_fer (e : Engine) (n : Nat) : (c.bump e n).fer = c.fer := rfl

@[simp] theorem Core.drop_regs (e : Engine) (n : Nat) : (c.drop e n).regs = c.regs := rfl
@[simp] theorem Core.drop_pc (e : Engine) (n : Nat) : (c.drop e n).pc = c.pc := rfl
@[simp] theorem Core.drop_priv (e : Engine) (n : Nat) : (c.drop e n).priv = c.priv := rfl
@[simp] theorem Core.drop_run (e : Engine) (n : Nat) : (c.drop e n).run = c.run := rfl
@[simp] theorem Core.drop_fenced (e : Engine) (n : Nat) : (c.drop e n).fenced = c.fenced := rfl
@[simp] theorem Core.drop_standing (e : Engine) (n : Nat) : (c.drop e n).standing = c.standing := rfl
@[simp] theorem Core.drop_pubDone (e : Engine) (n : Nat) : (c.drop e n).pubDone = c.pubDone := rfl
@[simp] theorem Core.drop_hand (e : Engine) (n : Nat) : (c.drop e n).hand = c.hand := rfl
@[simp] theorem Core.drop_pops (e : Engine) (n : Nat) : (c.drop e n).pops = c.pops := rfl
@[simp] theorem Core.drop_handPoison (e : Engine) (n : Nat) : (c.drop e n).handPoison = c.handPoison := rfl
@[simp] theorem Core.drop_waitSince (e : Engine) (n : Nat) : (c.drop e n).waitSince = c.waitSince := rfl
@[simp] theorem Core.drop_emptySince (e : Engine) (n : Nat) : (c.drop e n).emptySince = c.emptySince := rfl
@[simp] theorem Core.drop_woken (e : Engine) (n : Nat) : (c.drop e n).woken = c.woken := rfl
@[simp] theorem Core.drop_freed (e : Engine) (n : Nat) : (c.drop e n).freed = c.freed := rfl
@[simp] theorem Core.drop_fbuf (e : Engine) (n : Nat) : (c.drop e n).fbuf = c.fbuf := rfl
@[simp] theorem Core.drop_loop0 (e : Engine) (n : Nat) : (c.drop e n).loop0 = c.loop0 := rfl
@[simp] theorem Core.drop_loop1 (e : Engine) (n : Nat) : (c.drop e n).loop1 = c.loop1 := rfl
@[simp] theorem Core.drop_up (e : Engine) (n : Nat) : (c.drop e n).up = c.up := rfl
@[simp] theorem Core.drop_tr (e : Engine) (n : Nat) : (c.drop e n).tr = c.tr := rfl
@[simp] theorem Core.drop_alignlim (e : Engine) (n : Nat) : (c.drop e n).alignlim = c.alignlim := rfl
@[simp] theorem Core.drop_cache (e : Engine) (n : Nat) : (c.drop e n).cache = c.cache := rfl
@[simp] theorem Core.drop_group (e : Engine) (n : Nat) : (c.drop e n).group = c.group := rfl
@[simp] theorem Core.drop_markin (e : Engine) (n : Nat) : (c.drop e n).markin = c.markin := rfl
@[simp] theorem Core.drop_marked (e : Engine) (n : Nat) : (c.drop e n).marked = c.marked := rfl
@[simp] theorem Core.drop_rank (e : Engine) (n : Nat) : (c.drop e n).rank = c.rank := rfl
@[simp] theorem Core.drop_masid (e : Engine) (n : Nat) : (c.drop e n).masid = c.masid := rfl
@[simp] theorem Core.drop_task (e : Engine) (n : Nat) : (c.drop e n).task = c.task := rfl
@[simp] theorem Core.drop_cnt (e : Engine) (n : Nat) : (c.drop e n).cnt = c.cnt.set (engineCounter e) (c.cnt.get (engineCounter e) - n) := rfl
@[simp] theorem Core.drop_buf (e : Engine) (n : Nat) : (c.drop e n).buf = c.buf := rfl
@[simp] theorem Core.drop_out (e : Engine) (n : Nat) : (c.drop e n).out = c.out := rfl
@[simp] theorem Core.drop_snap (e : Engine) (n : Nat) : (c.drop e n).snap = c.snap := rfl
@[simp] theorem Core.drop_acc (e : Engine) (n : Nat) : (c.drop e n).acc = c.acc := rfl
@[simp] theorem Core.drop_pageWaits (e : Engine) (n : Nat) : (c.drop e n).pageWaits = c.pageWaits := rfl
@[simp] theorem Core.drop_discarded (e : Engine) (n : Nat) : (c.drop e n).discarded = c.discarded := rfl
@[simp] theorem Core.drop_arrived (e : Engine) (n : Nat) : (c.drop e n).arrived = c.arrived := rfl
@[simp] theorem Core.drop_notices (e : Engine) (n : Nat) : (c.drop e n).notices = c.notices := rfl
@[simp] theorem Core.drop_recvq (e : Engine) (n : Nat) : (c.drop e n).recvq = c.recvq := rfl
@[simp] theorem Core.drop_rankCache (e : Engine) (n : Nat) : (c.drop e n).rankCache = c.rankCache := rfl
@[simp] theorem Core.drop_sup (e : Engine) (n : Nat) : (c.drop e n).sup = c.sup := rfl
@[simp] theorem Core.drop_dbg (e : Engine) (n : Nat) : (c.drop e n).dbg = c.dbg := rfl
@[simp] theorem Core.drop_stbase (e : Engine) (n : Nat) : (c.drop e n).stbase = c.stbase := rfl
@[simp] theorem Core.drop_stdef (e : Engine) (n : Nat) : (c.drop e n).stdef = c.stdef := rfl
@[simp] theorem Core.drop_held (e : Engine) (n : Nat) : (c.drop e n).held = c.held := rfl
@[simp] theorem Core.drop_dirty (e : Engine) (n : Nat) : (c.drop e n).dirty = c.dirty := rfl
@[simp] theorem Core.drop_goPend (e : Engine) (n : Nat) : (c.drop e n).goPend = c.goPend := rfl
@[simp] theorem Core.drop_saveReq (e : Engine) (n : Nat) : (c.drop e n).saveReq = c.saveReq := rfl
@[simp] theorem Core.drop_vec (e : Engine) (n : Nat) : (c.drop e n).vec = c.vec := rfl
@[simp] theorem Core.drop_mat (e : Engine) (n : Nat) : (c.drop e n).mat = c.mat := rfl
@[simp] theorem Core.drop_cpy (e : Engine) (n : Nat) : (c.drop e n).cpy = c.cpy := rfl
@[simp] theorem Core.drop_gal (e : Engine) (n : Nat) : (c.drop e n).gal = c.gal := rfl
@[simp] theorem Core.drop_fer (e : Engine) (n : Nat) : (c.drop e n).fer = c.fer := rfl

@[simp] theorem Core.produce_pc (a : Access) : (c.produce a).pc = c.pc := rfl
@[simp] theorem Core.produce_priv (a : Access) : (c.produce a).priv = c.priv := rfl
@[simp] theorem Core.produce_run (a : Access) : (c.produce a).run = c.run := rfl
@[simp] theorem Core.produce_fenced (a : Access) : (c.produce a).fenced = c.fenced := rfl
@[simp] theorem Core.produce_standing (a : Access) : (c.produce a).standing = c.standing := rfl
@[simp] theorem Core.produce_pubDone (a : Access) : (c.produce a).pubDone = c.pubDone := rfl
@[simp] theorem Core.produce_hand (a : Access) : (c.produce a).hand = c.hand := rfl
@[simp] theorem Core.produce_pops (a : Access) : (c.produce a).pops = c.pops := rfl
@[simp] theorem Core.produce_handPoison (a : Access) : (c.produce a).handPoison = c.handPoison := rfl
@[simp] theorem Core.produce_waitSince (a : Access) : (c.produce a).waitSince = c.waitSince := rfl
@[simp] theorem Core.produce_emptySince (a : Access) : (c.produce a).emptySince = c.emptySince := rfl
@[simp] theorem Core.produce_woken (a : Access) : (c.produce a).woken = c.woken := rfl
@[simp] theorem Core.produce_freed (a : Access) : (c.produce a).freed = c.freed := rfl
@[simp] theorem Core.produce_fbuf (a : Access) : (c.produce a).fbuf = c.fbuf := rfl
@[simp] theorem Core.produce_loop0 (a : Access) : (c.produce a).loop0 = c.loop0 := rfl
@[simp] theorem Core.produce_loop1 (a : Access) : (c.produce a).loop1 = c.loop1 := rfl
@[simp] theorem Core.produce_up (a : Access) : (c.produce a).up = c.up := rfl
@[simp] theorem Core.produce_tr (a : Access) : (c.produce a).tr = c.tr := rfl
@[simp] theorem Core.produce_alignlim (a : Access) : (c.produce a).alignlim = c.alignlim := rfl
@[simp] theorem Core.produce_cache (a : Access) : (c.produce a).cache = c.cache := rfl
@[simp] theorem Core.produce_group (a : Access) : (c.produce a).group = c.group := rfl
@[simp] theorem Core.produce_markin (a : Access) : (c.produce a).markin = c.markin := rfl
@[simp] theorem Core.produce_marked (a : Access) : (c.produce a).marked = c.marked := rfl
@[simp] theorem Core.produce_rank (a : Access) : (c.produce a).rank = c.rank := rfl
@[simp] theorem Core.produce_masid (a : Access) : (c.produce a).masid = c.masid := rfl
@[simp] theorem Core.produce_task (a : Access) : (c.produce a).task = c.task := rfl
@[simp] theorem Core.produce_cnt (a : Access) : (c.produce a).cnt = c.cnt := rfl
@[simp] theorem Core.produce_buf (a : Access) : (c.produce a).buf = c.buf := rfl
@[simp] theorem Core.produce_out (a : Access) : (c.produce a).out = c.out := rfl
@[simp] theorem Core.produce_snap (a : Access) : (c.produce a).snap = c.snap := rfl
@[simp] theorem Core.produce_pageWaits (a : Access) : (c.produce a).pageWaits = c.pageWaits := rfl
@[simp] theorem Core.produce_discarded (a : Access) : (c.produce a).discarded = c.discarded := rfl
@[simp] theorem Core.produce_arrived (a : Access) : (c.produce a).arrived = c.arrived := rfl
@[simp] theorem Core.produce_notices (a : Access) : (c.produce a).notices = c.notices := rfl
@[simp] theorem Core.produce_recvq (a : Access) : (c.produce a).recvq = c.recvq := rfl
@[simp] theorem Core.produce_rankCache (a : Access) : (c.produce a).rankCache = c.rankCache := rfl
@[simp] theorem Core.produce_sup (a : Access) : (c.produce a).sup = c.sup := rfl
@[simp] theorem Core.produce_dbg (a : Access) : (c.produce a).dbg = c.dbg := rfl
@[simp] theorem Core.produce_stbase (a : Access) : (c.produce a).stbase = c.stbase := rfl
@[simp] theorem Core.produce_stdef (a : Access) : (c.produce a).stdef = c.stdef := rfl
@[simp] theorem Core.produce_held (a : Access) : (c.produce a).held = c.held := rfl
@[simp] theorem Core.produce_dirty (a : Access) : (c.produce a).dirty = c.dirty := rfl
@[simp] theorem Core.produce_goPend (a : Access) : (c.produce a).goPend = c.goPend := rfl
@[simp] theorem Core.produce_saveReq (a : Access) : (c.produce a).saveReq = c.saveReq := rfl
@[simp] theorem Core.produce_vec (a : Access) : (c.produce a).vec = c.vec := rfl
@[simp] theorem Core.produce_mat (a : Access) : (c.produce a).mat = c.mat := rfl
@[simp] theorem Core.produce_cpy (a : Access) : (c.produce a).cpy = c.cpy := rfl
@[simp] theorem Core.produce_gal (a : Access) : (c.produce a).gal = c.gal := rfl
@[simp] theorem Core.produce_fer (a : Access) : (c.produce a).fer = c.fer := rfl

end Sys2Proof.Machine
end

