-- ==== Sys2Proof/Laws/Tables.lean ====
section
/-!
SUPPORT. Sys2Proof/Laws/Tables.lean: reads of a table after a write, and the parts of the package after an update.
-/
namespace Sys2Proof.Machine
open Sys2Proof

variable {α : Type}

@[simp] theorem tfind_nil (n : Nat) : tfind ([] : Tbl α) n = none := rfl

@[simp] theorem tfind_tset_same (t : Tbl α) (n : Nat) (a : α) : tfind (tset t n a) n = some a := by
  induction t with
  | nil => simp [tset, tfind]
  | cons p r ih =>
    obtain ⟨k, v⟩ := p
    unfold tset
    split
    · simp [tfind]
    · split
      · simp [tfind]
      · simp [tfind, *]

theorem tfind_tset_ne (t : Tbl α) {m n : Nat} (a : α) (h : m ≠ n) : tfind (tset t n a) m = tfind t m := by
  induction t with
  | nil => simp [tset, tfind, h]
  | cons p r ih =>
    obtain ⟨k, v⟩ := p
    unfold tset
    split
    · simp [tfind, h]
    · split
      · rename_i hk
        subst hk
        simp [tfind, h]
      · simp [tfind, ih]

@[simp] theorem tset_tset (t : Tbl α) (n : Nat) (a b : α) : tset (tset t n a) n b = tset t n b := by
  induction t with
  | nil => simp [tset]
  | cons p r ih =>
    obtain ⟨k, v⟩ := p
    by_cases h : n < k
    · simp [tset, h]
    · by_cases h' : n = k
      · simp [tset, h']
      · simp [tset, h, h', ih]

@[simp] theorem tget_tset_same (t : Tbl α) (d : α) (n : Nat) (a : α) : tget (tset t n a) d n = a := by simp [tget]

theorem tget_tset_ne (t : Tbl α) (d : α) {m n : Nat} (a : α) (h : m ≠ n) : tget (tset t n a) d m = tget t d m := by
  simp [tget, tfind_tset_ne t a h]

/-! Cores, clusters, dies and partitions. -/

variable (s : State)

@[simp] theorem core_setCore_same (k : Nat) (c : Core) : (s.setCore k c).core k = c := by simp [State.core]
theorem core_setCore_ne {j k : Nat} (c : Core) (h : j ≠ k) : (s.setCore k c).core j = s.core j := by
  simp [State.core, tfind_tset_ne _ _ h]
@[simp] theorem core_updCore_same (k : Nat) (f : Core → Core) : (s.updCore k f).core k = f (s.core k) := by
  simp [State.updCore]
theorem core_updCore_ne {j k : Nat} (f : Core → Core) (h : j ≠ k) : (s.updCore k f).core j = s.core j := by
  simp [State.updCore, core_setCore_ne s _ h]
@[simp] theorem setCore_setCore (k : Nat) (c d : Core) : (s.setCore k c).setCore k d = s.setCore k d := by
  simp [State.setCore]
@[simp] theorem updCore_updCore (k : Nat) (f g : Core → Core) : (s.updCore k f).updCore k g = s.updCore k (fun c => g (f c)) := by
  simp [State.updCore]

@[simp] theorem core_updMs (f : MemSys → MemSys) (k : Nat) : (s.updMs f).core k = s.core k := rfl
@[simp] theorem core_updDie (n : Nat) (f : Die → Die) (k : Nat) : (s.updDie n f).core k = s.core k := rfl
@[simp] theorem core_updCluster (n : Nat) (f : Cluster → Cluster) (k : Nat) : (s.updCluster n f).core k = s.core k := rfl
@[simp] theorem core_updPart (n : Nat) (f : Partition → Partition) (k : Nat) : (s.updPart n f).core k = s.core k := rfl

@[simp] theorem die_updDie_same (n : Nat) (f : Die → Die) : (s.updDie n f).die n = f (s.die n) := by simp [State.die]
theorem die_updDie_ne {m n : Nat} (f : Die → Die) (h : m ≠ n) : (s.updDie n f).die m = s.die m := by
  simp [State.die, tget_tset_ne _ _ _ h]
@[simp] theorem die_setCore (k : Nat) (c : Core) (n : Nat) : (s.setCore k c).die n = s.die n := rfl
@[simp] theorem die_updCore (k : Nat) (f : Core → Core) (n : Nat) : (s.updCore k f).die n = s.die n := rfl
@[simp] theorem die_updMs (f : MemSys → MemSys) (n : Nat) : (s.updMs f).die n = s.die n := rfl

@[simp] theorem part_updPart_same (n : Nat) (f : Partition → Partition) : (s.updPart n f).part n = f (s.part n) := by
  simp [State.part]
theorem part_updPart_ne {m n : Nat} (f : Partition → Partition) (h : m ≠ n) : (s.updPart n f).part m = s.part m := by
  simp [State.part, tget_tset_ne _ _ _ h]
@[simp] theorem part_setCore (k : Nat) (c : Core) (n : Nat) : (s.setCore k c).part n = s.part n := rfl
@[simp] theorem part_updCore (k : Nat) (f : Core → Core) (n : Nat) : (s.updCore k f).part n = s.part n := rfl

@[simp] theorem cluster_updCluster_same (n : Nat) (f : Cluster → Cluster) : (s.updCluster n f).cluster n = f (s.cluster n) := by
  simp [State.cluster]
@[simp] theorem cluster_setCore (k : Nat) (c : Core) (n : Nat) : (s.setCore k c).cluster n = s.cluster n := rfl
@[simp] theorem cluster_updCore (k : Nat) (f : Core → Core) (n : Nat) : (s.updCore k f).cluster n = s.cluster n := rfl
@[simp] theorem corePart_setCore (k : Nat) (c : Core) (j : Nat) : (s.setCore k c).corePart j = s.corePart j := rfl
@[simp] theorem corePart_updCore (k : Nat) (f : Core → Core) (j : Nat) : (s.updCore k f).corePart j = s.corePart j := rfl

/-! Registers. -/

variable (r : Regs)

@[simp] theorem Regs.get_zero : r.get 0 = 0 := rfl
@[simp] theorem Regs.put_zero (v : Word) (p : Bool) : r.put 0 v p = r := rfl

theorem Regs.get_put_same {n : XReg} (v : Word) (p : Bool) (h : n.val ≠ 0) : (r.put n v p).get n = v := by
  simp [Regs.get, Regs.put, h]

theorem Regs.get_put_ne {m n : XReg} (v : Word) (p : Bool) (h : m ≠ n) : (r.put n v p).get m = r.get m := by
  have h' : n.val ≠ m.val := fun e => h (Fin.ext e.symm)
  by_cases hn : n.val = 0
  · simp [Regs.put, hn]
  · unfold Regs.get Regs.put
    simp [hn, h']

@[simp] theorem Regs.q_put (n : XReg) (v : Word) (p : Bool) : (r.put n v p).q = r.q := by
  unfold Regs.put; split <;> rfl
@[simp] theorem Regs.held_put (n : XReg) (v : Word) (p : Bool) : (r.put n v p).held = r.held := by
  unfold Regs.put; split <;> rfl

/-! What a core's own operations leave alone. -/

theorem Core.trace_only (c : Core) (ck code : Nat) (a b : Word) :
    c.trace ck code a b = { c with dbg := (c.trace ck code a b).dbg } := by
  simp only [Core.trace]
  split
  · rfl
  · split <;> split <;> rfl

@[simp] theorem Core.trace_regs (c : Core) (ck code : Nat) (a b : Word) : (c.trace ck code a b).regs = c.regs := by
  rw [Core.trace_only]
@[simp] theorem Core.trace_pc (c : Core) (ck code : Nat) (a b : Word) : (c.trace ck code a b).pc = c.pc := by
  rw [Core.trace_only]

theorem Core.foldTrace_only {β : Type} (l : List β) (f : Core → β → Core)
    (h : ∀ c b, f c b = { c with dbg := (f c b).dbg }) (c : Core) :
    l.foldl f c = { c with dbg := (l.foldl f c).dbg } := by
  induction l generalizing c with
  | nil => rfl
  | cons b r ih =>
    simp only [List.foldl_cons]
    rw [ih, h c b]

theorem Core.acquire_only (c : Core) (ck : Nat) : c.acquire ck = { c with snap := [], dbg := (c.acquire ck).dbg } := by
  simp only [Core.acquire]
  split
  · have h := Core.foldTrace_only c.dbg.bounds
      (fun c b => c.trace ck 0x1006 (BitVec.ofNat 32 (b.page * 65536 + b.count)) (BitVec.ofNat 32 (b.hi * 65536 + b.lo)))
      (fun c b => Core.trace_only c _ _ _ _) c
    rw [h]
  · rfl

theorem Core.haltDebug_only (c : Core) (ck reason : Nat) :
    c.haltDebug ck reason = { c with run := .debug reason, dbg := (c.haltDebug ck reason).dbg } := by
  simp only [Core.haltDebug]
  split
  · rw [Core.trace_only]
  · rfl

/-- A write changes the registers, or makes a trace record. -/
theorem Core.writeDst_only (c : Core) (ck : Nat) (d : Dst) (v : Word) (p : Bool) :
    c.writeDst ck d v p = { c with regs := (c.writeDst ck d v p).regs, dbg := (c.writeDst ck d v p).dbg } := by
  cases d with
  | x n => rfl
  | q7 =>
    simp only [Core.writeDst]
    rw [Core.trace_only]

end Sys2Proof.Machine
end

