-- ==== Sys2Proof/Laws/Memory.lean ====
section
/-!
SUPPORT. Sys2Proof/Laws/Memory.lean: the canonical form of memory is kept by every operation, and reads after writes (R30, R31).
-/
namespace Sys2Proof.Machine
open Sys2Proof

/-! The canonical form. -/

theorem memWfFrom_mono {lo lo' : Nat} {m : List Host.Cell} (h : memWfFrom lo' m = true) (hle : lo ≤ lo') :
    memWfFrom lo m = true := by
  cases m with
  | nil => rfl
  | cons c r =>
    simp only [memWfFrom, Bool.and_eq_true, decide_eq_true_eq] at h ⊢
    exact ⟨⟨by omega, h.1.2⟩, h.2⟩

theorem memWfFrom_write {lo : Nat} {m : List Host.Cell} (a : Nat) (b : Byte) (ha : lo ≤ a) (h : memWfFrom lo m = true) :
    memWfFrom lo (memWrite m a b) = true := by
  induction m generalizing lo with
  | nil =>
    unfold memWrite
    split <;> simp_all [memWfFrom]
  | cons c r ih =>
    obtain ⟨k, v⟩ := c
    simp only [memWfFrom, Bool.and_eq_true, decide_eq_true_eq] at h
    unfold memWrite
    split
    · rename_i hk
      have hr : memWfFrom (a + 1) ((k, v) :: r) = true := by
        simp only [memWfFrom, Bool.and_eq_true, decide_eq_true_eq]
        exact ⟨⟨by omega, h.1.2⟩, h.2⟩
      split
      · exact memWfFrom_mono hr (by omega)
      · simp_all [memWfFrom]
    · split
      · have hr : memWfFrom lo r = true := memWfFrom_mono h.2 (by omega)
        split <;> simp_all [memWfFrom]
      · simp only [memWfFrom, Bool.and_eq_true, decide_eq_true_eq]
        exact ⟨⟨h.1.1, h.1.2⟩, ih (by omega) h.2⟩

theorem memWrite_wf {m : List Host.Cell} (a : Nat) (b : Byte) (h : Memory.wf m = true) : Memory.wf (memWrite m a b) = true :=
  memWfFrom_write a b (Nat.zero_le a) h

theorem foldWrite_wf (m : List Host.Cell) : Memory.wf (m.foldr (fun c acc => memWrite acc c.1 c.2) []) = true := by
  induction m with
  | nil => rfl
  | cons c r ih => exact memWrite_wf _ _ ih

theorem memCanon_wf (m : List Host.Cell) : Memory.wf (memCanon m) = true := by
  unfold memCanon
  split
  · assumption
  · exact foldWrite_wf m

theorem memCanon_of_wf {m : List Host.Cell} (h : Memory.wf m = true) : memCanon m = m := by simp [memCanon, h]

theorem memWfFrom_filter {lo : Nat} {m : List Host.Cell} (p : Host.Cell → Bool) (h : memWfFrom lo m = true) :
    memWfFrom lo (m.filter p) = true := by
  induction m generalizing lo with
  | nil => rfl
  | cons c r ih =>
    simp only [memWfFrom, Bool.and_eq_true, decide_eq_true_eq] at h
    simp only [List.filter_cons]
    split
    · simp only [memWfFrom, Bool.and_eq_true, decide_eq_true_eq]
      exact ⟨⟨h.1.1, h.1.2⟩, ih h.2⟩
    · exact memWfFrom_mono (ih h.2) (by omega)

/-- Contents cut down by a test (a dissolution, a page) keep the form. -/
theorem filter_wf {m : List Host.Cell} (p : Host.Cell → Bool) (h : Memory.wf m = true) : Memory.wf (m.filter p) = true :=
  memWfFrom_filter p h

theorem placeBytes_wf (ms : MemSys) (pa : Nat) (bs : List Byte) (h : Memory.wf ms.mem = true) :
    Memory.wf (placeBytes ms pa bs).mem = true := by
  simp only [placeBytes]
  generalize bs.zipIdx = l
  generalize hm : ms.mem = m at h
  clear hm
  induction l generalizing m with
  | nil => exact h
  | cons x r ih => exact ih _ (memWrite_wf _ _ h)

/-! Reads after writes. -/

theorem memRead_below {lo a : Nat} {m : List Host.Cell} (h : memWfFrom lo m = true) (ha : a < lo) : memRead m a = memDefault := by
  induction m generalizing lo with
  | nil => rfl
  | cons c r ih =>
    obtain ⟨k, v⟩ := c
    simp only [memWfFrom, Bool.and_eq_true, decide_eq_true_eq] at h
    have : a ≠ k := by omega
    simp only [memRead, this, if_false]
    exact ih h.2 (by omega)

theorem memRead_write_same {lo : Nat} {m : List Host.Cell} (a : Nat) (b : Byte) (h : memWfFrom lo m = true) :
    memRead (memWrite m a b) a = b := by
  induction m generalizing lo with
  | nil => unfold memWrite; split <;> simp_all [memRead]
  | cons c r ih =>
    obtain ⟨k, v⟩ := c
    simp only [memWfFrom, Bool.and_eq_true, decide_eq_true_eq] at h
    unfold memWrite
    split
    · rename_i hk
      split
      · have : a ≠ k := by omega
        simp only [memRead, this, if_false]
        rw [memRead_below h.2 (by omega)]
        simp_all
      · simp [memRead]
    · split
      · rename_i hk
        split
        · rw [memRead_below h.2 (by omega)]
          simp_all
        · simp [memRead]
      · rename_i hk
        simp only [memRead, hk, if_false]
        exact ih h.2

theorem memRead_write_ne {lo : Nat} {m : List Host.Cell} {a x : Nat} (b : Byte) (h : memWfFrom lo m = true) (hx : x ≠ a) :
    memRead (memWrite m a b) x = memRead m x := by
  induction m generalizing lo with
  | nil => unfold memWrite; split <;> simp_all [memRead]
  | cons c r ih =>
    obtain ⟨k, v⟩ := c
    simp only [memWfFrom, Bool.and_eq_true, decide_eq_true_eq] at h
    unfold memWrite
    split
    · split
      · rfl
      · simp [memRead, hx]
    · split
      · rename_i hk
        split
        · simp [memRead, ← hk, hx]
        · simp [memRead, ← hk, hx]
      · simp only [memRead]
        split
        · rfl
        · exact ih h.2

/-! What a step leaves. -/

theorem settleHist_wf (h : List Ev) {m : List Host.Cell} (hm : Memory.wf m = true) : Memory.wf (settleHist h m).2 = true := by
  induction h with
  | nil => exact hm
  | cons e r ih =>
    simp only [settleHist]
    split
    · exact memWrite_wf _ _ ih
    · exact ih

theorem settleHist_noH (h : List Ev) (m : List Host.Cell) : (settleHist h m).1.all (fun e => e.scope != .H) = true := by
  induction h with
  | nil => rfl
  | cons e r ih =>
    simp only [settleHist]
    split
    · rw [List.all_eq_true] at ih ⊢
      exact fun x hx => ih x (List.mem_filter.mp hx).1
    · rename_i he
      simp only [List.all_cons, ih, Bool.and_true]
      simpa using he

theorem settle_settled (s : State) : s.settle.settled = true := by
  simp only [State.settled, State.settle, Bool.and_eq_true]
  exact ⟨memCanon_wf _, settleHist_noH _ _⟩

theorem covers_H (a b : Party) : covers .H a b = true := rfl

theorem settleHist_read (r : Party) (a : Nat) (h : List Ev) {m : List Host.Cell} (hm : Memory.wf m = true) :
    (match (settleHist h m).1.find? (fun e => e.addr == a && visible r e) with
      | some e => e.byte
      | none => memRead (settleHist h m).2 a) =
    (match h.find? (fun e => e.addr == a && visible r e) with
      | some e => e.byte
      | none => memRead m a) := by
  induction h with
  | nil => rfl
  | cons e l ih =>
    simp only [settleHist]
    by_cases hs : e.scope = .H
    · simp only [hs, beq_self_eq_true, if_true]
      by_cases ha : e.addr = a
      · have h1 : ((settleHist l m).1.filter (fun x => x.addr != e.addr)).find? (fun e => e.addr == a && visible r e) = none := by
          rw [List.find?_eq_none]
          intro x hx
          have := (List.mem_filter.mp hx).2
          simp_all
        have h2 : (e :: l).find? (fun e => e.addr == a && visible r e) = some e := by
          simp [ha, visible, hs, covers_H]
        rw [h1, h2, ha]
        exact memRead_write_same (lo := 0) a e.byte (settleHist_wf l hm)
      · have h1 : ((settleHist l m).1.filter (fun x => x.addr != e.addr)).find? (fun e => e.addr == a && visible r e) =
            (settleHist l m).1.find? (fun e => e.addr == a && visible r e) := by
          rw [List.find?_filter]
          congr 1
          funext x
          by_cases hx : x.addr = a
          · have : x.addr ≠ e.addr := fun h => ha (h ▸ hx)
            simp [hx, Ne.symm ha]
          · simp [hx]
        have h2 : (e :: l).find? (fun e => e.addr == a && visible r e) = l.find? (fun e => e.addr == a && visible r e) := by
          simp [ha]
        rw [h1, h2, ← ih, memRead_write_ne (lo := 0) e.byte (settleHist_wf l hm) (Ne.symm ha)]
    · have hs' : (e.scope == .H) = false := by simpa using hs
      simp only [hs', Bool.false_eq_true, if_false, List.find?_cons]
      by_cases hv : (e.addr == a && visible r e) = true
      · simp [hv]
      · simp only [hv]
        exact ih

end Sys2Proof.Machine
end

