-- ==== Sys2Proof/Laws/Operands.lean ====
section
/-!
SUPPORT. Sys2Proof/Laws/Operands.lean: the gate before every effect, and the completion behind it (R41, R49, R132, R194).
-/
namespace Sys2Proof.Machine
open Sys2Proof

/-! The gate. -/

theorem find?_eq_none_of_all {α : Type} {p : α → Bool} {l : List α} (h : l.all (fun x => !p x) = true) : l.find? p = none := by
  simpa [List.find?_eq_none] using h

theorem findSome?_eq_none_of_all {α β : Type} {f : α → Option β} {l : List α} (h : l.all (fun x => (f x).isNone) = true) :
    l.findSome? f = none := by
  simpa [List.findSome?_eq_none_iff] using h

/-- An instruction that passes the checks is not blocked (R49). -/
theorem blocked_of_passes {i : Instr} {u : Uses} {s : State} (h : s.passes u = true) : blocked i u s = none := by
  simp only [State.passes, Bool.and_eq_true, Bool.not_eq_true'] at h
  obtain ⟨⟨⟨⟨⟨⟨⟨⟨hl, hn⟩, he⟩, hs⟩, hf⟩, hr⟩, hd⟩, hm⟩, hc⟩ := h
  have hlev : ¬ ((u.floor = .supervisor ∧ (s.core s.cur).priv = .task) ∨
      (u.floor = .service ∧ (s.core s.cur).priv ≠ .service) ∨ u.denied) := by
    revert hl
    cases u.floor <;> cases (s.core s.cur).priv <;> simp [Priv.allows, hn]
  have he' : (s.core s.cur).engineCause u = none := Option.isNone_iff_eq_none.mp he
  have h1 : ((s.core s.cur).emptiness u.srcs []).find? (fun x => x.1.e && x.2.2) = none := by
    refine find?_eq_none_of_all ?_
    rw [List.all_eq_true] at hs ⊢
    intro x hx
    have := hs x hx
    simp_all
  have h2 : u.order.findSome? (fun n => ((s.core s.cur).recorded n).map (fun r => (n, r))) = none := by
    refine findSome?_eq_none_of_all ?_
    simpa using hr
  have h3 : ¬ (((s.core s.cur).emptiness u.srcs []).any (fun x => x.2.2) ∨
      (!u.late ∧ u.dests.any (fun n => ((s.core s.cur).owner n).isSome)) ∨ (u.moves ∧ (s.core s.cur).heldBack) ∨
      (u.csr ∧ (s.core s.cur).acc.any (·.holdsBack))) := by
    rw [List.all_eq_true] at hs
    simp only [Bool.or_eq_true, List.all_eq_true] at hd
    simp only [not_or, not_and]
    refine ⟨?_, fun hu => ?_, fun hu => ?_, fun hu => ?_⟩
    · simp only [List.any_eq_true, not_exists, not_and]
      intro x hx
      have := hs x hx; simp_all
    · simp only [List.any_eq_true, not_exists, not_and]
      intro x hx
      simp only [Bool.not_eq_true'] at hu
      have := (hd.resolve_left (by simp [hu])) x hx
      simp only [Option.isNone_iff_eq_none] at this
      simp [this]
    · simpa [hu] using hm
    · simpa [hu] using hc
  simp only [blocked]
  rw [if_neg hlev]
  simp only [he', h1, hf, h2, Bool.false_eq_true, if_false]
  rw [if_neg h3]

/-- With every read made, the reads before a seal change nothing (R170). -/
theorem performReads_done {s : State} {k : Nat} (h : (s.core k).readsDone = true) : performReads s k = some s := by
  have aux : ∀ (l : List Access) (n : Nat) (s : State), l.all (fun a => match a.op, a.st, a.dead with
      | .load _ _, .issued, false => false
      | _, _, _ => true) = true → performReadsFrom s k n l = some s := by
    intro l
    induction l with
    | nil => intros; rfl
    | cons a r ih =>
      intro n s h
      simp only [List.all_cons, Bool.and_eq_true] at h
      unfold performReadsFrom
      split
      · rename_i h1 h2 h3
        simp [h1, h2, h3] at h
      · exact ih _ _ h.2
  exact aux _ _ _ h

theorem gate_of_passes {i : Instr} {u : Uses} {s : State} {go : Vals → State → Out} (h : s.passes u = true)
    (h6 : u.pops.contains 6 = true → (s.core s.cur).readsDone = true) : gate i u s go = go (s.vals u) s := by
  simp only [gate, blocked_of_passes h, State.vals]
  split
  · rename_i h'
    rw [performReads_done (h6 h')]
  · rfl

/-- A ready instruction goes on with its operands' values in the state as it stands. -/
theorem gate_of_ready {i : Instr} {u : Uses} {s : State} {go : Vals → State → Out} (h : s.ready u = true) :
    gate i u s go = go (s.vals u) s := by
  simp only [State.ready, Bool.and_eq_true, Bool.or_eq_true, Bool.not_eq_true'] at h
  refine gate_of_passes h.1.1 (fun h6 => ?_)
  rcases h.2 with h' | h'
  · rw [h'] at h6; cases h6
  · exact h'

theorem ready_unstepped {u : Uses} {s : State} (h : s.ready u = true) : (s.core s.cur).unstepped = true := by
  simp only [State.ready, Bool.and_eq_true] at h
  exact h.1.2

/-! Completion. -/

theorem popQueues_only (r : Regs) (qs : List (Fin 7)) : popQueues r qs = { r with q := (popQueues r qs).q } := by
  unfold popQueues
  induction qs generalizing r with
  | nil => rfl
  | cons n l ih => simp only [List.foldl_cons]; rw [ih]; rfl

theorem popQueues_q (r : Regs) (qs : List (Fin 7)) (n : Fin 7) : (popQueues r qs).q[n] = (r.q[n]).drop (qs.count n) := by
  unfold popQueues
  induction qs generalizing r with
  | nil => simp
  | cons m l ih =>
    simp only [List.foldl_cons]
    rw [ih]
    by_cases h : m = n
    · subst h
      simp [Regs.setQ, Nat.add_comm]
    · have h' : m.val ≠ n.val := fun e => h (Fin.ext e)
      have hb : (m == n) = false := by simpa using h
      simp [Regs.setQ, List.count_cons, h', hb]

theorem freeSlots_cons (s : State) (n : Nat × Nat) (ns : List (Nat × Nat)) : freeSlots s (n :: ns) = freeSlots (freeSlots s [n]) ns := rfl

@[simp] theorem freeSlots_core (s : State) (ns : List (Nat × Nat)) (k : Nat) : (freeSlots s ns).core k = s.core k := by
  induction ns generalizing s with
  | nil => rfl
  | cons n r ih => rw [freeSlots_cons, ih]; rfl

theorem freeSlots_only (s : State) (ns : List (Nat × Nat)) : freeSlots s ns = { s with dies := (freeSlots s ns).dies } := by
  induction ns generalizing s with
  | nil => rfl
  | cons n r ih => rw [freeSlots_cons, ih]; rfl

theorem freeSlots_die (s : State) (ns : List (Nat × Nat)) (d : Nat) :
    (freeSlots s ns).die d = { s.die d with children := ((freeSlots s ns).die d).children } := by
  induction ns generalizing s with
  | nil => rfl
  | cons n r ih =>
    rw [freeSlots_cons, ih]
    by_cases h : d = n.1
    · subst h; simp [freeSlots]
    · simp only [freeSlots, List.foldl_cons, List.foldl_nil]
      rw [die_updDie_ne s _ h]

@[simp] theorem freeSlots_nil (s : State) : freeSlots s [] = s := rfl

theorem stepStop_unstepped {s : State} {k : Nat} (h : (s.core k).unstepped = true) : stepStop s k = s := by
  simp only [Core.unstepped, Bool.and_eq_true, Bool.not_eq_true'] at h
  simp [stepStop, h.1, h.2]

/-- What completion gives a core before its PC moves. -/
structure Mid where
  regs : Regs
  standing : Option Instr
  pubDone : Bool
  hand : Option Hand
  pops : List (Fin 7)
  handPoison : Bool
  imp : List ImpRec
  dbg : Debug
  snap : List SnapLine
  notices : List (Nat × Nat)
  emptySince : Option Nat

def Core.withMid (c : Core) (m : Mid) : Core :=
  { c with
    regs := m.regs, standing := m.standing, pubDone := m.pubDone, hand := m.hand, pops := m.pops, handPoison := m.handPoison,
    tr := { c.tr with imp := m.imp }, dbg := m.dbg, snap := m.snap, notices := m.notices, emptySince := m.emptySince }

/-- A change of the PC and the loop levels that may leave a trace record, and that reads nothing which completion changes. -/
structure PcOnly (pcf : Core → Core) : Prop where
  only : ∀ c, pcf c = { c with pc := (pcf c).pc, loop0 := (pcf c).loop0, loop1 := (pcf c).loop1, dbg := (pcf c).dbg }
  same : ∀ (c : Core) (m : Mid),
    (pcf (c.withMid m)).pc = (pcf c).pc ∧ (pcf (c.withMid m)).loop0 = (pcf c).loop0 ∧ (pcf (c.withMid m)).loop1 = (pcf c).loop1
  trace : ∀ (c : Core) (m : Mid) (n st : Nat), m.dbg = { c.dbg with retired := n, stalled := st } →
    (pcf (c.withMid m)).dbg = { (pcf c).dbg with retired := n, stalled := st }
  steps : ∀ c, (pcf c).dbg.step = c.dbg.step ∧ (pcf c).dbg.stepping = c.dbg.stepping ∧ (pcf c).dbg.retired = c.dbg.retired

theorem Core.loopEnd_only (c : Core) (n : Word) :
    c.loopEnd n = { c with pc := (c.loopEnd n).pc, loop0 := (c.loopEnd n).loop0, loop1 := (c.loopEnd n).loop1 } := by
  simp only [Core.loopEnd]
  split
  · split
    · rfl
    · split <;> rfl
  · split <;> rfl

theorem Core.advance_only (c : Core) :
    c.advance = { c with pc := c.advance.pc, loop0 := c.advance.loop0, loop1 := c.advance.loop1 } := by
  simp only [Core.advance]
  split
  · rw [Core.loopEnd_only]
  · rfl

theorem Core.loopEnd_same (c : Core) (n : Word) (m : Mid) : (c.withMid m).loopEnd n = (c.loopEnd n).withMid m := by
  by_cases h1 : c.loop1.active ∧ c.loop1.le = n <;> by_cases h2 : c.loop1.lc.toNat > 1 <;>
    by_cases h3 : c.loop0.active ∧ c.loop0.le = n <;> simp only [Core.loopEnd, Core.withMid, h1, h2, h3, and_self, if_true, if_false] <;> first | done | rfl

theorem Core.advance_run {c : Core} (h : c.loopsRun = true) : c.advance = c.loopEnd (c.pc + 4) := if_pos h
theorem Core.advance_noLoops {c : Core} (h : ¬ c.loopsRun = true) : c.advance = { c with pc := c.pc + 4 } := if_neg h

theorem Core.advance_same (c : Core) (m : Mid) : (c.withMid m).advance = c.advance.withMid m := by
  by_cases hb : c.loopsRun = true
  · rw [Core.advance_run hb, Core.advance_run (c := c.withMid m) hb]
    exact Core.loopEnd_same c _ m
  · rw [Core.advance_noLoops hb, Core.advance_noLoops (c := c.withMid m) hb]
    rfl

theorem Core.advance_dbg (c : Core) : c.advance.dbg = c.dbg := by rw [Core.advance_only]

theorem pcOnly_advance : PcOnly Core.advance where
  only c := by rw [Core.advance_dbg]; exact Core.advance_only c
  same c m := by rw [Core.advance_same]; exact ⟨rfl, rfl, rfl⟩
  trace c m n st h := by rw [Core.advance_dbg, Core.advance_dbg]; exact h
  steps c := by rw [Core.advance_dbg]; exact ⟨rfl, rfl, rfl⟩

theorem Core.leaveLoops_only (c : Core) (t : Word) :
    c.leaveLoops t = { c with loop0 := (c.leaveLoops t).loop0, loop1 := (c.leaveLoops t).loop1 } := by
  simp only [Core.leaveLoops]; split <;> rfl

theorem Core.leaveLoops_same (c : Core) (t : Word) (m : Mid) :
    ((c.withMid m).leaveLoops t).loop0 = (c.leaveLoops t).loop0 ∧ ((c.withMid m).leaveLoops t).loop1 = (c.leaveLoops t).loop1 := by
  by_cases hb : c.loopsRun = true
  · have hb' : (c.withMid m).loopsRun = true := hb
    unfold Core.leaveLoops
    rw [if_pos hb, if_pos hb']
    exact ⟨rfl, rfl⟩
  · have hb' : ¬ (c.withMid m).loopsRun = true := hb
    unfold Core.leaveLoops
    rw [if_neg hb, if_neg hb']
    exact ⟨rfl, rfl⟩

/-- The fields of a core as they stand. -/
def Core.mid (c : Core) : Mid :=
  ⟨c.regs, c.standing, c.pubDone, c.hand, c.pops, c.handPoison, c.tr.imp, c.dbg, c.snap, c.notices, c.emptySince⟩

theorem Core.jump_only (c : Core) (ck : Nat) (t : Word) :
    c.jump ck t = { c with pc := t, loop0 := (c.leaveLoops t).loop0, loop1 := (c.leaveLoops t).loop1, dbg := (c.jump ck t).dbg } := by
  have h : ∀ d : Debug, ({ c with dbg := d } : Core).leaveLoops t =
      { c with dbg := d, loop0 := (c.leaveLoops t).loop0, loop1 := (c.leaveLoops t).loop1 } := by
    intro d
    rw [Core.leaveLoops_only]
    have e := Core.leaveLoops_same c t { c.mid with dbg := d }
    congr 1
    · exact e.1
    · exact e.2
  simp only [Core.jump]
  split
  · rw [Core.trace_only, h]
  · have e := Core.leaveLoops_only c t
    generalize c.leaveLoops t = x at e ⊢
    rw [e]

theorem Core.trace_steps (c : Core) (ck code : Nat) (a b : Word) : (c.trace ck code a b).dbg.step = c.dbg.step ∧
    (c.trace ck code a b).dbg.stepping = c.dbg.stepping ∧ (c.trace ck code a b).dbg.retired = c.dbg.retired := by
  simp only [Core.trace]
  split
  · exact ⟨rfl, rfl, rfl⟩
  · split <;> split <;> exact ⟨rfl, rfl, rfl⟩

theorem Core.jump_dbg (c : Core) (ck : Nat) (t : Word) :
    (c.jump ck t).dbg = if c.dbg.tracectl / 2 % 2 = 1 then (c.trace ck 0x1002 c.pc t).dbg else c.dbg := by
  simp only [Core.jump]
  split <;> (rw [Core.leaveLoops_only])

theorem pcOnly_jump (ck : Nat) (t : Word) : PcOnly (fun c => c.jump ck t) where
  only c := by
    have := Core.jump_only c ck t
    rw [this]
  same c m := by
    have e := Core.leaveLoops_same c t m
    rw [Core.jump_only (c.withMid m), Core.jump_only c]
    exact ⟨rfl, e.1, e.2⟩
  trace c m n st h := by
    have h1 : (c.withMid m).dbg = m.dbg := rfl
    have h2 : (c.withMid m).pc = c.pc := rfl
    simp only [Core.jump_dbg, h1, h2, h]
    split
    · simp only [Core.trace, h1, h]
      split
      · exact h
      · split <;> split <;> rfl
    · rfl
  steps c := by
    simp only [Core.jump_dbg]
    split
    · exact Core.trace_steps c _ _ _ _
    · exact ⟨rfl, rfl, rfl⟩

theorem Core.foldTrace_steps {β : Type} (l : List β) (f : Core → β → Core)
    (h : ∀ c b, (f c b).dbg.step = c.dbg.step ∧ (f c b).dbg.stepping = c.dbg.stepping ∧ (f c b).dbg.retired = c.dbg.retired) (c : Core) :
    (l.foldl f c).dbg.step = c.dbg.step ∧ (l.foldl f c).dbg.stepping = c.dbg.stepping ∧ (l.foldl f c).dbg.retired = c.dbg.retired := by
  induction l generalizing c with
  | nil => exact ⟨rfl, rfl, rfl⟩
  | cons b r ih =>
    have h1 := ih (f c b)
    have h2 := h c b
    exact ⟨h1.1.trans h2.1, h1.2.1.trans h2.2.1, h1.2.2.trans h2.2.2⟩

theorem Core.acquire_steps (c : Core) (ck : Nat) : (c.acquire ck).dbg.step = c.dbg.step ∧
    (c.acquire ck).dbg.stepping = c.dbg.stepping ∧ (c.acquire ck).dbg.retired = c.dbg.retired := by
  simp only [Core.acquire]
  split
  · exact Core.foldTrace_steps _ _ (fun c b => Core.trace_steps c _ _ _ _) c
  · exact ⟨rfl, rfl, rfl⟩

/-- The state in which consumed poison is recorded (R194). -/
def State.consumed (s : State) (p : Bool) : State := if p then pendImp s s.cur 0x71 (s.core s.cur).pc 0 else s

theorem consumed_core (s : State) (p : Bool) : (s.consumed p).core s.cur = { s.core s.cur with
    tr := { (s.core s.cur).tr with imp := (s.core s.cur).tr.imp ++ (if p then [s.poisonRec s.cur] else []) } } := by
  cases p
  · simp [State.consumed]
  · simp only [State.consumed, if_true, pendImp, core_updCore_same]
    rfl

theorem consumed_others (s : State) (p : Bool) {j : Nat} (hj : j ≠ s.cur) : (s.consumed p).core j = s.core j := by
  cases p
  · rfl
  · simp only [State.consumed, if_true, pendImp]
    exact core_updCore_ne s _ hj

theorem consumed_only (s : State) (p : Bool) : s.consumed p = { s with cores := (s.consumed p).cores } := by
  cases p <;> rfl

/-- A core as it stands at its completion, before the PC moves. -/
def Core.finished (c : Core) (pops : List (Fin 7)) (ck : Nat) : Core :=
  let c : Core := { c with
    regs := popQueues c.regs pops, notices := c.notices.drop (pops.count 6), standing := none, pubDone := false, hand := none,
    pops := [], handPoison := false, emptySince := none,
    dbg := { c.dbg with
      retired := c.dbg.retired + 1, stalled := c.dbg.stalled + (c.emptySince.map (ck - ·)).getD 0 } }
  if pops.contains 6 then c.acquire ck else c

theorem finished_eq (c : Core) (pops : List (Fin 7)) (ck : Nat) : ∃ d sn, c.finished pops ck = c.withMid
      ⟨popQueues c.regs pops, none, false, none, [], false, c.tr.imp, d, sn, c.notices.drop (pops.count 6), none⟩ ∧
    d.retired = c.dbg.retired + 1 ∧ d.step = c.dbg.step ∧ d.stepping = c.dbg.stepping ∧
    (pops.contains 6 = false → d = { c.dbg with
      retired := c.dbg.retired + 1, stalled := c.dbg.stalled + (c.emptySince.map (ck - ·)).getD 0 }) ∧
    sn = if pops.contains 6 then [] else c.snap := by
  simp only [Core.finished]
  cases h6 : pops.contains 6
  · exact ⟨_, _, rfl, rfl, rfl, rfl, fun _ => rfl, rfl⟩
  · rw [if_pos rfl, Core.acquire_only]
    refine ⟨_, _, rfl, ?_, ?_, ?_, nofun, rfl⟩
    · exact (Core.acquire_steps _ _).2.2
    · exact (Core.acquire_steps _ _).1
    · exact (Core.acquire_steps _ _).2.1

theorem consumed_unstepped {s : State} (p : Bool) (h : (s.core s.cur).unstepped = true) :
    ((s.consumed p).core s.cur).unstepped = true := by rw [consumed_core]; exact h

theorem consumed_cur (s : State) (p : Bool) : (s.consumed p).cur = s.cur := by rw [consumed_only]
theorem consumed_ck (s : State) (p : Bool) : (s.consumed p).ck = s.ck := by rw [consumed_only]

/-- The child notices that leave q6. -/
def State.leaving (s : State) (pops : List (Fin 7)) : List (Nat × Nat) := (s.core s.cur).notices.take (pops.count 6)

theorem leaving_none {s : State} {pops : List (Fin 7)} (h : pops.contains 6 = false) : s.leaving pops = [] := by
  have : pops.count 6 = 0 := List.count_eq_zero.mpr (by simpa using h)
  simp [State.leaving, this]

theorem retire_eq {u : Uses} {s : State} {p : Bool} {pcf : Core → Core} (hp : PcOnly pcf) (h : (s.core s.cur).unstepped = true) :
    retire u s p pcf = (freeSlots (s.consumed p) ((s.consumed p).leaving u.pops)).updCore s.cur
      (fun c => pcf (c.finished u.pops s.ck)) := by
  have e : retire u s p pcf = stepStop ((freeSlots (s.consumed p) ((s.consumed p).leaving u.pops)).updCore s.cur
      (fun c => pcf (c.finished u.pops s.ck))) s.cur := by
    simp only [retire, retireQ, completeQ, State.leaving, consumed_cur]
    rw [show (if p then pendImp s s.cur 0x71 (s.core s.cur).pc 0 else s) = s.consumed p from rfl]
    rw [show (freeSlots (s.consumed p) (List.take (List.count 6 u.pops) ((s.consumed p).core s.cur).notices)).ck = s.ck by
        rw [freeSlots_only]; exact consumed_ck s p]
    rfl
  rw [e, stepStop_unstepped]
  simp only [core_updCore_same, freeSlots_core]
  obtain ⟨d, sn, hf, hr, hs, hst, -, -⟩ := finished_eq ((s.consumed p).core s.cur) u.pops s.ck
  have h1 := hp.steps (((s.consumed p).core s.cur).finished u.pops s.ck)
  have h2 := consumed_unstepped p h
  simp only [Core.unstepped] at h2 ⊢
  rw [h1.1, h1.2.1, hf]
  simp only [Core.withMid, hs, hst]
  exact h2

/-- What completion leaves, for a change of the PC of that kind (R36, R41, R102, R132, R194). -/
theorem retire_retires {u : Uses} {s : State} {p : Bool} {pcf : Core → Core} (hp : PcOnly pcf)
    (h : (s.core s.cur).unstepped = true) : Retires u p pcf s (retire u s p pcf) := by
  obtain ⟨d, sn, hf, hr, -, -, h6, hsn⟩ := finished_eq ((s.consumed p).core s.cur) u.pops s.ck
  have hcore : (retire u s p pcf).core s.cur = pcf (((s.consumed p).core s.cur).finished u.pops s.ck) := by
    rw [retire_eq hp h]; simp
  rw [hf, consumed_core] at hcore
  let m : Mid := ⟨popQueues (s.core s.cur).regs u.pops, none, false, none, [], false,
    (s.core s.cur).tr.imp ++ (if p then [s.poisonRec s.cur] else []), d, sn, (s.core s.cur).notices.drop (u.pops.count 6), none⟩
  have hcore : (retire u s p pcf).core s.cur = pcf ((s.core s.cur).withMid m) := hcore
  have hsame := hp.same (s.core s.cur) m
  have hthis : (retire u s p pcf).core s.cur = { s.core s.cur with
      regs := popQueues (s.core s.cur).regs u.pops,
      pc := (pcf (s.core s.cur)).pc, loop0 := (pcf (s.core s.cur)).loop0, loop1 := (pcf (s.core s.cur)).loop1,
      standing := none, pubDone := false, hand := none, pops := [], handPoison := false, emptySince := none,
      notices := (s.core s.cur).notices.drop (u.pops.count 6),
      tr := { (s.core s.cur).tr with imp := (s.core s.cur).tr.imp ++ (if p then [s.poisonRec s.cur] else []) },
      dbg := ((retire u s p pcf).core s.cur).dbg, snap := sn } := by
    rw [hcore, hp.only]
    congr 1
    · exact hsame.1
    · exact hsame.2.1
    · exact hsame.2.2
  have hre := retire_eq (u := u) (p := p) hp h
  refine ⟨?_, ?_, ?_, ?_, ?_, ?_, ?_, ?_, ?_⟩
  · rw [hre, freeSlots_only, consumed_only]; rfl
  · intro j hj
    rw [hre, core_updCore_ne _ _ hj, freeSlots_core, consumed_others s p hj]
  · intro n
    rw [hre]
    show (freeSlots _ _).die n = _
    rw [freeSlots_die]
    rw [show (s.consumed p).die n = s.die n by rw [consumed_only]; rfl]
    rfl
  · intro h6'
    rw [hre, leaving_none h6', freeSlots_nil]
    rw [consumed_only]; rfl
  · have hq : popQueues (s.core s.cur).regs u.pops = { (s.core s.cur).regs with q := (popQueues (s.core s.cur).regs u.pops).q } :=
      popQueues_only _ _
    have hn : sn = if u.pops.contains 6 then [] else (s.core s.cur).snap := by rw [hsn, consumed_core]
    rw [hn] at hthis
    rw [hthis]
    conv => lhs; rw [hq]
  · intro n
    rw [hthis]
    exact popQueues_q _ _ _
  · rw [hthis]
  · rw [hcore]
    exact (hp.steps _).2.2.trans (hr.trans (by rw [consumed_core]))
  · intro h6'
    have hd := h6 h6'
    rw [consumed_core] at hd
    rw [hcore]
    exact hp.trace (s.core s.cur) m _ _ hd

theorem unstepped_writeDst (c : Core) (ck : Nat) (d : Dst) (v : Word) (p : Bool) : (c.writeDst ck d v p).unstepped = c.unstepped := by
  cases d with
  | x n => rfl
  | q7 =>
    have h := Core.trace_steps c ck 0x1001 0 v
    simp only [Core.writeDst, Core.unstepped, h.1, h.2.1]

/-- A ready instruction that computes one value writes its destination and completes (R41, R80, R81, R194). -/
theorem compute_retires {i : Instr} {u : Uses} {s : State} {f : Vals → Word} {d : Dst} (hd : u.dst = some d)
    (h : s.ready u = true) : ∃ t, compute i u s f = .next t ∧ Retires u (s.vals u).poison Core.advance
      (s.updCore s.cur (fun c => c.writeDst s.ck d (f (s.vals u)) (s.vals u).poison)) t := by
  refine ⟨_, by rw [compute, gate_of_ready h], ?_⟩
  simp only [hd, retireNext]
  refine retire_retires pcOnly_advance ?_
  show (((s.updCore s.cur _).core s.cur)).unstepped = true
  rw [core_updCore_same, unstepped_writeDst]
  exact ready_unstepped h

/-- A ready instruction that acts on the state, and then completes; the act leaves the current core and its stepping alone. -/
theorem act_retires {i : Instr} {u : Uses} {s s' : State} {go : Vals → State → Out} {p : Bool} {pcf : Core → Core}
    (h : s.ready u = true) (hg : go (s.vals u) s = .next (retire u s' p pcf)) (hp : PcOnly pcf) (hc : s'.cur = s.cur)
    (hs : (s'.core s.cur).unstepped = (s.core s.cur).unstepped) :
    ∃ t, gate i u s go = .next t ∧ Retires u p pcf s' t := by
  refine ⟨_, by rw [gate_of_ready h, hg], retire_retires hp ?_⟩
  rw [hc, hs]
  exact ready_unstepped h

end Sys2Proof.Machine
end

