-- ==== Sys2Proof/Laws/PerInstr.lean ====
section
/-!
SUPPORT. Sys2Proof/Laws/PerInstr.lean: the round trip of every instruction that has a word (R43 to R48): decoding its encoding
gives it back, with every operand at every value its type and its well-formedness admit.
-/
namespace Sys2Proof.Laws.RoundTrip
open Sys2Proof

/-- The decoder reads the encoder's word as the instruction it was made from. -/
def Statement (i : Instr) : Prop := i.isWord = true → i.wellFormed = true → decodeWord (encode i) = .ok i

/-! Fields of the formats of R43. -/

theorem b2n_lt (b : Bool) : b2n b < 2 := by cases b <;> decide
theorem b2n_beq (b : Bool) : (b2n b == 1) = b := by cases b <;> rfl
theorem src_lt (r : SrcReg) : r.code < 31 := by cases r <;> simp only [SrcReg.code] <;> omega
theorem dst_lt (d : Dst) : d.code < 32 := by cases d <;> simp only [Dst.code] <;> omega

theorem toNat_word {n : Nat} (h : n < 2 ^ 32) : (BitVec.ofNat 32 n).toNat = n := by
  rw [BitVec.toNat_ofNat]; exact Nat.mod_eq_of_lt h

@[simp] theorem srcReg_code (r : SrcReg) : srcReg r.code = .ok r := by
  cases r with
  | x n => simp [srcReg, SrcReg.code]
  | q n => rcases n with ⟨_ | _ | _ | _ | _ | _ | _ | n, h⟩ <;> first | rfl | omega
@[simp] theorem dstF_code (d : Dst) : dstF d.code = .ok d := by
  cases d with
  | x n => simp [dstF, Dst.code]
  | q7 => rfl
@[simp] theorem dstX_val (n : XReg) : dstX n.val = .ok n := by simp [dstX]
@[simp] theorem dstF_val (n : XReg) : dstF n.val = .ok (.x n) := by simp [dstF]


theorem src32 (a : Src) : a.reg.code < 32 := Nat.lt_trans (src_lt a.reg) (by decide)
theorem x32 (n : XReg) : n.val < 32 := Nat.lt_trans n.isLt (by decide)
theorem b2n32 (b : Bool) : b2n b < 32 := Nat.lt_trans (b2n_lt b) (by decide)
theorem b2n_false : b2n false = 0 := rfl

/-! Fields of the formats of R43. -/

theorem encR_lt {op d a b fn : Nat} {ea eb : Bool} (_ : op < 64) (_ : d < 32) (_ : a < 32) (_ : b < 32) (_ : fn < 512) : encR op d a ea b eb fn < 2 ^ 32 := by
  have := b2n_lt ea
  have := b2n_lt eb
  simp only [encR]; omega
theorem encR_op {op d a b fn : Nat} {ea eb : Bool} (_ : op < 64) (_ : d < 32) (_ : a < 32) (_ : b < 32) (_ : fn < 512) : fld (encR op d a ea b eb fn) 26 6 = op := by
  have := b2n_lt ea
  have := b2n_lt eb
  simp only [encR, fld]; omega
theorem encR_d {op d a b fn : Nat} {ea eb : Bool} (_ : op < 64) (_ : d < 32) (_ : a < 32) (_ : b < 32) (_ : fn < 512) : fld (encR op d a ea b eb fn) 21 5 = d := by
  have := b2n_lt ea
  have := b2n_lt eb
  simp only [encR, fld]; omega
theorem encR_a {op d a b fn : Nat} {ea eb : Bool} (_ : op < 64) (_ : d < 32) (_ : a < 32) (_ : b < 32) (_ : fn < 512) : fld (encR op d a ea b eb fn) 16 5 = a := by
  have := b2n_lt ea
  have := b2n_lt eb
  simp only [encR, fld]; omega
theorem encR_b {op d a b fn : Nat} {ea eb : Bool} (_ : op < 64) (_ : d < 32) (_ : a < 32) (_ : b < 32) (_ : fn < 512) : fld (encR op d a ea b eb fn) 11 5 = b := by
  have := b2n_lt ea
  have := b2n_lt eb
  simp only [encR, fld]; omega
theorem encR_ea {op d a b fn : Nat} {ea eb : Bool} (_ : op < 64) (_ : d < 32) (_ : a < 32) (_ : b < 32) (_ : fn < 512) : fld (encR op d a ea b eb fn) 10 1 = b2n ea := by
  have := b2n_lt ea
  have := b2n_lt eb
  simp only [encR, fld]; omega
theorem encR_eb {op d a b fn : Nat} {ea eb : Bool} (_ : op < 64) (_ : d < 32) (_ : a < 32) (_ : b < 32) (_ : fn < 512) : fld (encR op d a ea b eb fn) 9 1 = b2n eb := by
  have := b2n_lt ea
  have := b2n_lt eb
  simp only [encR, fld]; omega
theorem encR_fn {op d a b fn : Nat} {ea eb : Bool} (_ : op < 64) (_ : d < 32) (_ : a < 32) (_ : b < 32) (_ : fn < 512) : fld (encR op d a ea b eb fn) 0 9 = fn := by
  have := b2n_lt ea
  have := b2n_lt eb
  simp only [encR, fld]; omega
theorem encI_lt {op d a fn : Nat} {ea : Bool} (_ : op < 64) (_ : d < 32) (_ : a < 32) (_ : fn < 32768) : encI op d a ea fn < 2 ^ 32 := by
  have := b2n_lt ea
  simp only [encI]; omega
theorem encI_op {op d a fn : Nat} {ea : Bool} (_ : op < 64) (_ : d < 32) (_ : a < 32) (_ : fn < 32768) : fld (encI op d a ea fn) 26 6 = op := by
  have := b2n_lt ea
  simp only [encI, fld]; omega
theorem encI_d {op d a fn : Nat} {ea : Bool} (_ : op < 64) (_ : d < 32) (_ : a < 32) (_ : fn < 32768) : fld (encI op d a ea fn) 21 5 = d := by
  have := b2n_lt ea
  simp only [encI, fld]; omega
theorem encI_a {op d a fn : Nat} {ea : Bool} (_ : op < 64) (_ : d < 32) (_ : a < 32) (_ : fn < 32768) : fld (encI op d a ea fn) 16 5 = a := by
  have := b2n_lt ea
  simp only [encI, fld]; omega
theorem encI_ea {op d a fn : Nat} {ea : Bool} (_ : op < 64) (_ : d < 32) (_ : a < 32) (_ : fn < 32768) : fld (encI op d a ea fn) 15 1 = b2n ea := by
  have := b2n_lt ea
  simp only [encI, fld]; omega
theorem encI_fn {op d a fn : Nat} {ea : Bool} (_ : op < 64) (_ : d < 32) (_ : a < 32) (_ : fn < 32768) : fld (encI op d a ea fn) 0 15 = fn := by
  have := b2n_lt ea
  simp only [encI, fld]; omega
theorem encM_lt {op a b fn : Nat} {ea eb : Bool} (_ : op < 64) (_ : a < 32) (_ : b < 32) (_ : fn < 16384) : encM op a ea b eb fn < 2 ^ 32 := by
  have := b2n_lt ea
  have := b2n_lt eb
  simp only [encM]; omega
theorem encM_op {op a b fn : Nat} {ea eb : Bool} (_ : op < 64) (_ : a < 32) (_ : b < 32) (_ : fn < 16384) : fld (encM op a ea b eb fn) 26 6 = op := by
  have := b2n_lt ea
  have := b2n_lt eb
  simp only [encM, fld]; omega
theorem encM_a {op a b fn : Nat} {ea eb : Bool} (_ : op < 64) (_ : a < 32) (_ : b < 32) (_ : fn < 16384) : fld (encM op a ea b eb fn) 21 5 = a := by
  have := b2n_lt ea
  have := b2n_lt eb
  simp only [encM, fld]; omega
theorem encM_b {op a b fn : Nat} {ea eb : Bool} (_ : op < 64) (_ : a < 32) (_ : b < 32) (_ : fn < 16384) : fld (encM op a ea b eb fn) 16 5 = b := by
  have := b2n_lt ea
  have := b2n_lt eb
  simp only [encM, fld]; omega
theorem encM_ea {op a b fn : Nat} {ea eb : Bool} (_ : op < 64) (_ : a < 32) (_ : b < 32) (_ : fn < 16384) : fld (encM op a ea b eb fn) 15 1 = b2n ea := by
  have := b2n_lt ea
  have := b2n_lt eb
  simp only [encM, fld]; omega
theorem encM_eb {op a b fn : Nat} {ea eb : Bool} (_ : op < 64) (_ : a < 32) (_ : b < 32) (_ : fn < 16384) : fld (encM op a ea b eb fn) 14 1 = b2n eb := by
  have := b2n_lt ea
  have := b2n_lt eb
  simp only [encM, fld]; omega
theorem encM_fn {op a b fn : Nat} {ea eb : Bool} (_ : op < 64) (_ : a < 32) (_ : b < 32) (_ : fn < 16384) : fld (encM op a ea b eb fn) 0 14 = fn := by
  have := b2n_lt ea
  have := b2n_lt eb
  simp only [encM, fld]; omega
theorem encJ_lt {op d fn : Nat} (_ : op < 64) (_ : d < 32) (_ : fn < 2097152) : encJ op d fn < 2 ^ 32 := by
  simp only [encJ]; omega
theorem encJ_op {op d fn : Nat} (_ : op < 64) (_ : d < 32) (_ : fn < 2097152) : fld (encJ op d fn) 26 6 = op := by
  simp only [encJ, fld]; omega
theorem encJ_d {op d fn : Nat} (_ : op < 64) (_ : d < 32) (_ : fn < 2097152) : fld (encJ op d fn) 21 5 = d := by
  simp only [encJ, fld]; omega
theorem encJ_fn {op d fn : Nat} (_ : op < 64) (_ : d < 32) (_ : fn < 2097152) : fld (encJ op d fn) 0 21 = fn := by
  simp only [encJ, fld]; omega
theorem encL_lt {c fn : Nat} {ea lv : Bool} (_ : c < 32) (_ : fn < 262144) : encL c ea lv fn < 2 ^ 32 := by
  have := b2n_lt ea
  have := b2n_lt lv
  simp only [encL]; omega
theorem encL_op {c fn : Nat} {ea lv : Bool} (_ : c < 32) (_ : fn < 262144) : fld (encL c ea lv fn) 26 6 = 40 := by
  have := b2n_lt ea
  have := b2n_lt lv
  simp only [encL, fld]; omega
theorem encL_c {c fn : Nat} {ea lv : Bool} (_ : c < 32) (_ : fn < 262144) : fld (encL c ea lv fn) 21 5 = c := by
  have := b2n_lt ea
  have := b2n_lt lv
  simp only [encL, fld]; omega
theorem encL_ea {c fn : Nat} {ea lv : Bool} (_ : c < 32) (_ : fn < 262144) : fld (encL c ea lv fn) 20 1 = b2n ea := by
  have := b2n_lt ea
  have := b2n_lt lv
  simp only [encL, fld]; omega
theorem encL_lv {c fn : Nat} {ea lv : Bool} (_ : c < 32) (_ : fn < 262144) : fld (encL c ea lv fn) 18 1 = b2n lv := by
  have := b2n_lt ea
  have := b2n_lt lv
  simp only [encL, fld]; omega
theorem encL_fn {c fn : Nat} {ea lv : Bool} (_ : c < 32) (_ : fn < 262144) : fld (encL c ea lv fn) 0 18 = fn := by
  have := b2n_lt ea
  have := b2n_lt lv
  simp only [encL, fld]; omega
theorem encC_lt {op a b sel fn : Nat} {ea eb : Bool} (_ : op < 64) (_ : a < 32) (_ : b < 32) (_ : sel < 32) (_ : fn < 512) : encC op a b ea eb sel fn < 2 ^ 32 := by
  have := b2n_lt ea
  have := b2n_lt eb
  simp only [encC]; omega
theorem encC_op {op a b sel fn : Nat} {ea eb : Bool} (_ : op < 64) (_ : a < 32) (_ : b < 32) (_ : sel < 32) (_ : fn < 512) : fld (encC op a b ea eb sel fn) 26 6 = op := by
  have := b2n_lt ea
  have := b2n_lt eb
  simp only [encC, fld]; omega
theorem encC_a {op a b sel fn : Nat} {ea eb : Bool} (_ : op < 64) (_ : a < 32) (_ : b < 32) (_ : sel < 32) (_ : fn < 512) : fld (encC op a b ea eb sel fn) 21 5 = a := by
  have := b2n_lt ea
  have := b2n_lt eb
  simp only [encC, fld]; omega
theorem encC_b {op a b sel fn : Nat} {ea eb : Bool} (_ : op < 64) (_ : a < 32) (_ : b < 32) (_ : sel < 32) (_ : fn < 512) : fld (encC op a b ea eb sel fn) 16 5 = b := by
  have := b2n_lt ea
  have := b2n_lt eb
  simp only [encC, fld]; omega
theorem encC_ea {op a b sel fn : Nat} {ea eb : Bool} (_ : op < 64) (_ : a < 32) (_ : b < 32) (_ : sel < 32) (_ : fn < 512) : fld (encC op a b ea eb sel fn) 15 1 = b2n ea := by
  have := b2n_lt ea
  have := b2n_lt eb
  simp only [encC, fld]; omega
theorem encC_eb {op a b sel fn : Nat} {ea eb : Bool} (_ : op < 64) (_ : a < 32) (_ : b < 32) (_ : sel < 32) (_ : fn < 512) : fld (encC op a b ea eb sel fn) 14 1 = b2n eb := by
  have := b2n_lt ea
  have := b2n_lt eb
  simp only [encC, fld]; omega
theorem encC_sel {op a b sel fn : Nat} {ea eb : Bool} (_ : op < 64) (_ : a < 32) (_ : b < 32) (_ : sel < 32) (_ : fn < 512) : fld (encC op a b ea eb sel fn) 9 5 = sel := by
  have := b2n_lt ea
  have := b2n_lt eb
  simp only [encC, fld]; omega
theorem encC_fn {op a b sel fn : Nat} {ea eb : Bool} (_ : op < 64) (_ : a < 32) (_ : b < 32) (_ : sel < 32) (_ : fn < 512) : fld (encC op a b ea eb sel fn) 0 9 = fn := by
  have := b2n_lt ea
  have := b2n_lt eb
  simp only [encC, fld]; omega
theorem encV_lt {op d a b c xs fn : Nat} (_ : op < 64) (_ : d < 16) (_ : a < 16) (_ : b < 16) (_ : c < 16) (_ : xs < 32) (_ : fn < 32) : encV op d a b c xs fn < 2 ^ 32 := by
  simp only [encV]; omega
theorem encV_op {op d a b c xs fn : Nat} (_ : op < 64) (_ : d < 16) (_ : a < 16) (_ : b < 16) (_ : c < 16) (_ : xs < 32) (_ : fn < 32) : fld (encV op d a b c xs fn) 26 6 = op := by
  simp only [encV, fld]; omega
theorem encV_d {op d a b c xs fn : Nat} (_ : op < 64) (_ : d < 16) (_ : a < 16) (_ : b < 16) (_ : c < 16) (_ : xs < 32) (_ : fn < 32) : fld (encV op d a b c xs fn) 22 4 = d := by
  simp only [encV, fld]; omega
theorem encV_a {op d a b c xs fn : Nat} (_ : op < 64) (_ : d < 16) (_ : a < 16) (_ : b < 16) (_ : c < 16) (_ : xs < 32) (_ : fn < 32) : fld (encV op d a b c xs fn) 18 4 = a := by
  simp only [encV, fld]; omega
theorem encV_b {op d a b c xs fn : Nat} (_ : op < 64) (_ : d < 16) (_ : a < 16) (_ : b < 16) (_ : c < 16) (_ : xs < 32) (_ : fn < 32) : fld (encV op d a b c xs fn) 14 4 = b := by
  simp only [encV, fld]; omega
theorem encV_c {op d a b c xs fn : Nat} (_ : op < 64) (_ : d < 16) (_ : a < 16) (_ : b < 16) (_ : c < 16) (_ : xs < 32) (_ : fn < 32) : fld (encV op d a b c xs fn) 10 4 = c := by
  simp only [encV, fld]; omega
theorem encV_xs {op d a b c xs fn : Nat} (_ : op < 64) (_ : d < 16) (_ : a < 16) (_ : b < 16) (_ : c < 16) (_ : xs < 32) (_ : fn < 32) : fld (encV op d a b c xs fn) 5 5 = xs := by
  simp only [encV, fld]; omega
theorem encV_fn {op d a b c xs fn : Nat} (_ : op < 64) (_ : d < 16) (_ : a < 16) (_ : b < 16) (_ : c < 16) (_ : xs < 32) (_ : fn < 32) : fld (encV op d a b c xs fn) 0 5 = fn := by
  simp only [encV, fld]; omega
theorem encE_lt {e f sn fn : Nat} (_ : e < 32) (_ : f < 32) (_ : sn < 2) (_ : fn < 16384) : encE e f sn fn < 2 ^ 32 := by
  simp only [encE]; omega
theorem encE_op {e f sn fn : Nat} (_ : e < 32) (_ : f < 32) (_ : sn < 2) (_ : fn < 16384) : fld (encE e f sn fn) 26 6 = 41 := by
  simp only [encE, fld]; omega
theorem encE_e {e f sn fn : Nat} (_ : e < 32) (_ : f < 32) (_ : sn < 2) (_ : fn < 16384) : fld (encE e f sn fn) 21 5 = e := by
  simp only [encE, fld]; omega
theorem encE_f {e f sn fn : Nat} (_ : e < 32) (_ : f < 32) (_ : sn < 2) (_ : fn < 16384) : fld (encE e f sn fn) 16 5 = f := by
  simp only [encE, fld]; omega
theorem encE_sn {e f sn fn : Nat} (_ : e < 32) (_ : f < 32) (_ : sn < 2) (_ : fn < 16384) : fld (encE e f sn fn) 15 1 = sn := by
  simp only [encE, fld]; omega
theorem encE_fn {e f sn fn : Nat} (_ : e < 32) (_ : f < 32) (_ : sn < 2) (_ : fn < 16384) : fld (encE e f sn fn) 0 14 = fn := by
  simp only [encE, fld]; omega
theorem encR_o {op d a b o s k : Nat} {ea eb : Bool} (_ : op < 64) (_ : d < 32) (_ : a < 32) (_ : b < 32) (_ : o < 4) (_ : s < 4) (_ : k < 32) : fld (encR op d a ea b eb (o * 2 ^ 7 + s * 2 ^ 5 + k)) 7 2 = o := by
  have := b2n_lt ea
  have := b2n_lt eb
  simp only [encR, fld]; omega
theorem encR_s {op d a b o s k : Nat} {ea eb : Bool} (_ : op < 64) (_ : d < 32) (_ : a < 32) (_ : b < 32) (_ : o < 4) (_ : s < 4) (_ : k < 32) : fld (encR op d a ea b eb (o * 2 ^ 7 + s * 2 ^ 5 + k)) 5 2 = s := by
  have := b2n_lt ea
  have := b2n_lt eb
  simp only [encR, fld]; omega
theorem encR_k {op d a b o s k : Nat} {ea eb : Bool} (_ : op < 64) (_ : d < 32) (_ : a < 32) (_ : b < 32) (_ : o < 4) (_ : s < 4) (_ : k < 32) : fld (encR op d a ea b eb (o * 2 ^ 7 + s * 2 ^ 5 + k)) 0 5 = k := by
  have := b2n_lt ea
  have := b2n_lt eb
  simp only [encR, fld]; omega
theorem encR_f {op d a b o s f : Nat} {ea eb : Bool} (_ : op < 64) (_ : d < 32) (_ : a < 32) (_ : b < 32) (_ : o < 4) (_ : s < 4) (_ : f < 4) : fld (encR op d a ea b eb (o * 2 ^ 7 + s * 2 ^ 5 + f * 2 ^ 3)) 3 2 = f := by
  have := b2n_lt ea
  have := b2n_lt eb
  simp only [encR, fld]; omega
theorem encR_z {op d a b o s f : Nat} {ea eb : Bool} (_ : op < 64) (_ : d < 32) (_ : a < 32) (_ : b < 32) (_ : o < 4) (_ : s < 4) (_ : f < 4) : fld (encR op d a ea b eb (o * 2 ^ 7 + s * 2 ^ 5 + f * 2 ^ 3)) 0 3 = 0 := by
  have := b2n_lt ea
  have := b2n_lt eb
  simp only [encR, fld]; omega
theorem encR_fo {op d a b o s f : Nat} {ea eb : Bool} (_ : op < 64) (_ : d < 32) (_ : a < 32) (_ : b < 32) (_ : o < 4) (_ : s < 4) (_ : f < 4) : fld (encR op d a ea b eb (o * 2 ^ 7 + s * 2 ^ 5 + f * 2 ^ 3)) 7 2 = o := by
  have := b2n_lt ea
  have := b2n_lt eb
  simp only [encR, fld]; omega
theorem encR_fs {op d a b o s f : Nat} {ea eb : Bool} (_ : op < 64) (_ : d < 32) (_ : a < 32) (_ : b < 32) (_ : o < 4) (_ : s < 4) (_ : f < 4) : fld (encR op d a ea b eb (o * 2 ^ 7 + s * 2 ^ 5 + f * 2 ^ 3)) 5 2 = s := by
  have := b2n_lt ea
  have := b2n_lt eb
  simp only [encR, fld]; omega
theorem encR_rm {op d a b o k : Nat} {ea eb : Bool} (_ : op < 64) (_ : d < 32) (_ : a < 32) (_ : b < 32) (_ : o < 4) (_ : k < 128) : fld (encR op d a ea b eb (o * 2 ^ 7 + k)) 7 2 = o := by
  have := b2n_lt ea
  have := b2n_lt eb
  simp only [encR, fld]; omega
theorem encR_rk {op d a b o k : Nat} {ea eb : Bool} (_ : op < 64) (_ : d < 32) (_ : a < 32) (_ : b < 32) (_ : o < 4) (_ : k < 128) : fld (encR op d a ea b eb (o * 2 ^ 7 + k)) 0 7 = k := by
  have := b2n_lt ea
  have := b2n_lt eb
  simp only [encR, fld]; omega
theorem encI_shk {op d a k n : Nat} {ea : Bool} (_ : op < 64) (_ : d < 32) (_ : a < 32) (_ : k < 4) (_ : n < 32) : fld (encI op d a ea (k * 2 ^ 13 + n)) 13 2 = k := by
  have := b2n_lt ea
  simp only [encI, fld]; omega
theorem encI_shz {op d a k n : Nat} {ea : Bool} (_ : op < 64) (_ : d < 32) (_ : a < 32) (_ : k < 4) (_ : n < 32) : fld (encI op d a ea (k * 2 ^ 13 + n)) 5 8 = 0 := by
  have := b2n_lt ea
  simp only [encI, fld]; omega
theorem encI_shn {op d a k n : Nat} {ea : Bool} (_ : op < 64) (_ : d < 32) (_ : a < 32) (_ : k < 4) (_ : n < 32) : fld (encI op d a ea (k * 2 ^ 13 + n)) 0 5 = n := by
  have := b2n_lt ea
  simp only [encI, fld]; omega
theorem encI_ck {op d a k n : Nat} {ea : Bool} (_ : op < 64) (_ : d < 32) (_ : a < 32) (_ : k < 8) (_ : n < 4096) : fld (encI op d a ea (k * 2 ^ 12 + n)) 12 3 = k := by
  have := b2n_lt ea
  simp only [encI, fld]; omega
theorem encI_cn {op d a k n : Nat} {ea : Bool} (_ : op < 64) (_ : d < 32) (_ : a < 32) (_ : k < 8) (_ : n < 4096) : fld (encI op d a ea (k * 2 ^ 12 + n)) 0 12 = n := by
  have := b2n_lt ea
  simp only [encI, fld]; omega
theorem encI_pz {op d a fn : Nat} {ea : Bool} (_ : op < 64) (_ : d < 2) (_ : a < 32) (_ : fn < 32768) : fld (encI op d a ea fn) 22 4 = 0 := by
  have := b2n_lt ea
  simp only [encI, fld]; omega
theorem encI_pw {op d a fn : Nat} {ea : Bool} (_ : op < 64) (_ : d < 2) (_ : a < 32) (_ : fn < 32768) : fld (encI op d a ea fn) 21 1 = d := by
  have := b2n_lt ea
  simp only [encI, fld]; omega
theorem encL_z {c fn : Nat} {ea lv : Bool} (_ : c < 32) (_ : fn < 262144) : fld (encL c ea lv fn) 19 1 = 0 := by
  have := b2n_lt ea
  have := b2n_lt lv
  simp only [encL, fld]; omega
theorem encE_z {e f sn fn : Nat} (_ : e < 32) (_ : f < 32) (_ : sn < 2) (_ : fn < 16384) : fld (encE e f sn fn) 14 1 = 0 := by
  simp only [encE, fld]; omega
theorem encC_oo {op a b fn o s : Nat} {ea eb : Bool} (_ : op < 64) (_ : a < 32) (_ : b < 32) (_ : fn < 512) (_ : o < 4) (_ : s < 4) : fld (encC op a b ea eb (o * 2 ^ 3 + s * 2) fn) 12 2 = o := by
  have := b2n_lt ea
  have := b2n_lt eb
  simp only [encC, fld]; omega
theorem encC_os {op a b fn o s : Nat} {ea eb : Bool} (_ : op < 64) (_ : a < 32) (_ : b < 32) (_ : fn < 512) (_ : o < 4) (_ : s < 4) : fld (encC op a b ea eb (o * 2 ^ 3 + s * 2) fn) 10 2 = s := by
  have := b2n_lt ea
  have := b2n_lt eb
  simp only [encC, fld]; omega
theorem encC_oz {op a b fn o s : Nat} {ea eb : Bool} (_ : op < 64) (_ : a < 32) (_ : b < 32) (_ : fn < 512) (_ : o < 4) (_ : s < 4) : fld (encC op a b ea eb (o * 2 ^ 3 + s * 2) fn) 9 1 = 0 := by
  have := b2n_lt ea
  have := b2n_lt eb
  simp only [encC, fld]; omega
theorem encC_cc {op a b fn c : Nat} {ea eb : Bool} (_ : op < 64) (_ : a < 32) (_ : b < 32) (_ : fn < 512) (_ : c < 16) : fld (encC op a b ea eb (c * 2) fn) 10 4 = c := by
  have := b2n_lt ea
  have := b2n_lt eb
  simp only [encC, fld]; omega
theorem encC_cz {op a b fn c : Nat} {ea eb : Bool} (_ : op < 64) (_ : a < 32) (_ : b < 32) (_ : fn < 512) (_ : c < 16) : fld (encC op a b ea eb (c * 2) fn) 9 1 = 0 := by
  have := b2n_lt ea
  have := b2n_lt eb
  simp only [encC, fld]; omega
theorem encV_z148 {op d c xs fn : Nat} (_ : op < 64) (_ : d < 16) (_ : c < 16) (_ : xs < 32) (_ : fn < 32) : fld (encV op d 0 0 c xs fn) 14 8 = 0 := by
  simp only [encV, fld]; omega
theorem encV_z108 {op d a xs fn : Nat} (_ : op < 64) (_ : d < 16) (_ : a < 16) (_ : xs < 32) (_ : fn < 32) : fld (encV op d a 0 0 xs fn) 10 8 = 0 := by
  simp only [encV, fld]; omega
theorem encV_z1012 {op d xs fn : Nat} (_ : op < 64) (_ : d < 16) (_ : xs < 32) (_ : fn < 32) : fld (encV op d 0 0 0 xs fn) 10 12 = 0 := by
  simp only [encV, fld]; omega
theorem encR_fk {d a b fn : Nat} {ea eb : Bool} (_ : d < 32) (_ : a < 32) (_ : b < 32) (_ : fn < 128) :
    fld (encR 48 d a ea b eb fn) 0 7 = fn := by
  have := b2n_lt ea
  have := b2n_lt eb
  simp only [encR, fld]; omega
theorem encR_fz {d a b fn : Nat} {ea eb : Bool} (_ : d < 32) (_ : a < 32) (_ : b < 32) (_ : fn < 128) :
    fld (encR 48 d a ea b eb fn) 7 2 = 0 := by
  have := b2n_lt ea
  have := b2n_lt eb
  simp only [encR, fld]; omega


/-! Parts of the decoder on a field that is known. -/

theorem code_some {α : Type} (x : α) : code (some x) = .ok x := rfl
theorem Scope.code_lt (x : Scope) : x.toCode < 4 := by cases x <;> decide
theorem Scope.of_to (x : Scope) : Scope.ofCode x.toCode = x := by cases x <;> rfl
theorem Order.code_lt (x : Order) : x.toCode < 4 := by cases x <;> decide
theorem Order.of_to (x : Order) : Order.ofCode x.toCode = x := by cases x <;> rfl
theorem AcqOrder.code_lt (x : AcqOrder) : x.toCode < 4 := by cases x <;> decide
theorem AcqOrder.of_to (x : AcqOrder) : AcqOrder.ofCode x.toCode = some x := by cases x <;> rfl
theorem RelOrder.code_lt (x : RelOrder) : x.toCode < 4 := by cases x <;> decide
theorem RelOrder.of_to (x : RelOrder) : RelOrder.ofCode x.toCode = some x := by cases x <;> rfl
theorem PhaseOrder.code_lt (x : PhaseOrder) : x.toCode < 4 := by cases x <;> decide
theorem PhaseOrder.of_to (x : PhaseOrder) : PhaseOrder.ofCode x.toCode = x := by cases x <;> rfl
theorem Rnd.code_lt (x : Rnd) : x.toCode < 4 := by cases x <;> decide
theorem Rnd.of_to (x : Rnd) : Rnd.ofCode x.toCode = x := by cases x <;> rfl
theorem Counter.code_lt (x : Counter) : x.toCode < 16 := by cases x <;> decide
theorem Counter.of_to (x : Counter) : Counter.ofCode x.toCode = some x := by cases x <;> rfl
theorem Engine.code_lt (x : Engine) : x.toCode < 32 := by cases x <;> decide
theorem Engine.of_to (x : Engine) : Engine.ofCode x.toCode = some x := by cases x <;> rfl
theorem Flag.code_lt (x : Flag) : x.toCode < 32 := by cases x <;> decide
theorem Flag.of_to (x : Flag) : Flag.ofCode x.toCode = some x := by cases x <;> rfl
theorem VCond.code_lt (x : VCond) : x.toCode < 16 := by cases x <;> decide
theorem VCond.of_to (x : VCond) : VCond.ofCode x.toCode = some x := by cases x <;> rfl
theorem VCvt.code_lt (x : VCvt) : x.toCode < 16 := by cases x <;> decide
theorem VCvt.of_to (x : VCvt) : VCvt.ofCode x.toCode = some x := by cases x <;> rfl
theorem VRedOp.code_lt (x : VRedOp) : x.toCode < 16 := by cases x <;> decide
theorem VRedOp.of_to (x : VRedOp) : VRedOp.ofCode x.toCode = some x := by cases x <;> rfl
theorem SEFmt.code_lt (x : SEFmt) : x.toCode < 16 := by cases x <;> decide
theorem SEFmt.of_to (x : SEFmt) : SEFmt.ofCode x.toCode = some x := by cases x <;> rfl
theorem VForm3.code_lt (x : VForm3) : x.toCode < 16 := by cases x <;> decide
theorem VForm3.of_to (x : VForm3) : VForm3.ofCode x.toCode = some x := by cases x <;> rfl
theorem VForm.code_lt (x : VForm) : x.toCode < 16 := by cases x <;> decide
theorem VForm.of_to (x : VForm) : VForm.ofCode x.toCode = some x := by cases x <;> rfl

theorem bv_of_fld {n w : Nat} {x : BitVec n} (h : fld w 0 n = x.toNat) : BitVec.ofNat n w = x := by
  apply BitVec.eq_of_toNat_eq
  rw [BitVec.toNat_ofNat, ← h, fld, Nat.pow_zero, Nat.div_one]
theorem zeroF_of {w lo len : Nat} (h : fld w lo len = 0) : zeroF w lo len = .ok () := if_pos h
theorem bit_of {w i : Nat} {b : Bool} (h : fld w i 1 = b2n b) : bit w i = b := by rw [bit, h, b2n_beq]
theorem srcF_of {w lo e : Nat} {a : Src} (h : fld w lo 5 = a.reg.code) (he : fld w e 1 = b2n a.e) : srcF w lo e = .ok a := by
  simp only [srcF, h, srcReg_code, bit_of he]; rfl
theorem dstF_of {n : Nat} {d : Dst} (h : n = d.code) : dstF n = .ok d := by rw [h, dstF_code]
theorem dstX_of {n : Nat} {d : XReg} (h : n = d.val) : dstX n = .ok d := by rw [h, dstX_val]
theorem xRange_of {n lo hi : Nat} {b : XReg} (hn : n = b.val) (h : lo ≤ b.val ∧ b.val ≤ hi) : xRange n lo hi = .ok b := by
  subst hn; rw [xRange, dif_pos b.isLt, if_pos h]
theorem dstPair_of {n : Nat} {d : XReg} (hn : n = d.val) (h : 1 ≤ d.val ∧ d.val ≤ 22) : dstPair n = .ok d := by
  subst hn; rw [dstPair, dif_pos d.isLt, if_pos h]
theorem xs_le (n : XReg) : 0 ≤ n.val ∧ n.val ≤ 23 := ⟨Nat.zero_le _, by omega⟩
theorem vreg_of {w lo : Nat} {v : VReg} (h : fld w lo 4 = v.val) : vreg w lo = v := Fin.ext h
theorem xsF_of {w : Nat} {x : XReg} (h : fld w 5 5 = x.val) : xsF w = .ok x := xRange_of h (xs_le x)
theorem bcast_of {w : Nat} {b : VReg} {xs : XReg} (h : fld w 14 4 = b.val) (hb : bcastOk b xs = true) : bcast w xs = .ok () := by
  simp only [bcastOk, Bool.or_eq_true, beq_iff_eq] at hb
  rw [bcast, h, if_pos hb]
theorem ok_bind {α β : Type} (x : α) (f : α → Except DecodeErr β) : (Except.ok x >>= f) = f x := rfl
theorem of_opcode {w op : Nat} {r : Except DecodeErr Instr} (hw : w < 2 ^ 32) (ho : fld w 26 6 = op) (h : decodeOp op w = r) :
    decodeWord (BitVec.ofNat 32 w) = r := by rw [decodeWord, toNat_word hw, ho, h]

/-! One lemma for each operand shape. -/

theorem rtR3 {op fn : Nat} (d : Dst) (a b : Src) (mk : Dst → Src → Src → Instr) (ho : op < 64) (hf : fn < 512) :
    decR3 (encR op d.code a.reg.code a.e b.reg.code b.e fn) mk = .ok (mk d a b) := by
  simp only [decR3, srcF_of (a := a) (encR_a ho (dst_lt d) (src32 a) (src32 b) hf) (encR_ea ho (dst_lt d) (src32 a) (src32 b)
    hf), srcF_of (a := b) (encR_b ho (dst_lt d) (src32 a) (src32 b) hf) (encR_eb ho (dst_lt d) (src32 a) (src32 b) hf),
    dstF_of (d := d) (encR_d ho (dst_lt d) (src32 a) (src32 b) hf), ok_bind]
  rfl

theorem rtR3X {op fn : Nat} (d : XReg) (a b : Src) (mk : XReg → Src → Src → Instr) (ho : op < 64) (hf : fn < 512) :
    decR3X (encR op d.val a.reg.code a.e b.reg.code b.e fn) mk = .ok (mk d a b) := by
  simp only [decR3X, srcF_of (a := a) (encR_a ho (x32 d) (src32 a) (src32 b) hf) (encR_ea ho (x32 d) (src32 a) (src32 b) hf),
    srcF_of (a := b) (encR_b ho (x32 d) (src32 a) (src32 b) hf) (encR_eb ho (x32 d) (src32 a) (src32 b) hf), dstX_of (d := d)
    (encR_d ho (x32 d) (src32 a) (src32 b) hf), ok_bind]
  rfl

theorem rtR2 {op fn : Nat} (d : Dst) (a : Src) (mk : Dst → Src → Instr) (ho : op < 64) (hf : fn < 512) :
    decR2 (encR op d.code a.reg.code a.e 0 false fn) mk = .ok (mk d a) := by
  simp only [decR2, srcF_of (a := a) (encR_a (b := 0) ho (dst_lt d) (src32 a) (by decide) hf) (encR_ea (b := 0) ho (dst_lt d)
    (src32 a) (by decide) hf), zeroF_of (encR_b (b := 0) ho (dst_lt d) (src32 a) (by decide) hf),
    zeroF_of (encR_eb (eb := false) (b := 0) ho (dst_lt d) (src32 a) (by decide) hf), dstF_of (d := d) (encR_d (b := 0)
    ho (dst_lt d) (src32 a) (by decide) hf), ok_bind]
  rfl

theorem rtI {op : Nat} (d : Dst) (a : Src) (imm : BitVec 15) (mk : Dst → Src → BitVec 15 → Instr) (ho : op < 64) :
    decI (encI op d.code a.reg.code a.e imm.toNat) mk = .ok (mk d a imm) := by
  simp only [decI, srcF_of (a := a) (encI_a ho (dst_lt d) (src32 a) imm.isLt) (encI_ea ho (dst_lt d) (src32 a) imm.isLt),
    dstF_of (d := d) (encI_d ho (dst_lt d) (src32 a) imm.isLt), bv_of_fld (x := imm) (encI_fn ho (dst_lt d) (src32 a) imm.isLt),
    ok_bind]
  rfl

theorem rtSH {op : Nat} (k : Nat) (d : Dst) (a : Src) (n : BitVec 5) (mk : Dst → Src → BitVec 5 → Instr) (ho : op < 64) (hk : k < 4) :
    decSH (encI op d.code a.reg.code a.e (k * 2 ^ 13 + n.toNat)) mk = .ok (mk d a n) := by
  have := n.isLt
  simp only [decSH, srcF_of (a := a) (encI_a (fn := (k * 2 ^ 13 + n.toNat)) ho (dst_lt d) (src32 a) (by omega))
    (encI_ea (fn := (k * 2 ^ 13 + n.toNat)) ho (dst_lt d) (src32 a) (by omega)), zeroF_of (encI_shz ho (dst_lt d) (src32 a)
    hk n.isLt), dstF_of (d := d) (encI_d (fn := (k * 2 ^ 13 + n.toNat)) ho (dst_lt d) (src32 a) (by omega)), bv_of_fld (x := n)
    (encI_shn ho (dst_lt d) (src32 a) hk n.isLt), ok_bind]
  rfl

theorem rtJ {op : Nat} (d : Dst) (imm : BitVec 21) (mk : Dst → BitVec 21 → Instr) (ho : op < 64) :
    decJ (encJ op d.code imm.toNat) mk = .ok (mk d imm) := by
  simp only [decJ, dstF_of (d := d) (encJ_d ho (dst_lt d) imm.isLt), bv_of_fld (x := imm) (encJ_fn ho (dst_lt d) imm.isLt),
    ok_bind]
  rfl

theorem rtPREF (wr : Bool) (a : Src) (off : BitVec 15) :
    decPREF (encI 21 (b2n wr) a.reg.code a.e off.toNat) = .ok (.pref wr a off) := by
  simp only [decPREF, zeroF_of (encI_pz (op := 21) (by decide) (b2n_lt wr) (src32 a) off.isLt), srcF_of (a := a)
    (encI_a (op := 21) (by decide) (b2n32 wr) (src32 a) off.isLt) (encI_ea (op := 21) (by decide) (b2n32 wr) (src32 a)
    off.isLt), bit_of (encI_pw (op := 21) (by decide) (b2n_lt wr) (src32 a) off.isLt), bv_of_fld (x := off) (encI_fn (op := 21)
    (by decide) (b2n32 wr) (src32 a) off.isLt), ok_bind]
  rfl

theorem rtM {op : Nat} (a b : Src) (off : BitVec 14) (mk : Src → Src → BitVec 14 → Instr) (ho : op < 64) :
    decM (encM op a.reg.code a.e b.reg.code b.e off.toNat) mk = .ok (mk a b off) := by
  simp only [decM, srcF_of (a := a) (encM_a ho (src32 a) (src32 b) off.isLt) (encM_ea ho (src32 a) (src32 b) off.isLt),
    srcF_of (a := b) (encM_b ho (src32 a) (src32 b) off.isLt) (encM_eb ho (src32 a) (src32 b) off.isLt), bv_of_fld (x := off)
    (encM_fn ho (src32 a) (src32 b) off.isLt), ok_bind]
  rfl

theorem rtAT {op : Nat} (k : Nat) (d : Dst) (a b : Src) (o : Order) (s : Scope) (mk : Dst → Src → Src → Order → Scope → Instr) (ho : op < 64) (hk : k < 32) :
    decAT (encR op d.code a.reg.code a.e b.reg.code b.e (o.toCode * 2 ^ 7 + s.toCode * 2 ^ 5 + k)) mk = .ok (mk d a b o s) := by
  have := Order.code_lt o
  have := Scope.code_lt s
  simp only [decAT, srcF_of (a := a) (encR_a (fn := (o.toCode * 2 ^ 7 + s.toCode * 2 ^ 5 + k)) ho (dst_lt d) (src32 a) (src32 b)
    (by omega)) (encR_ea (fn := (o.toCode * 2 ^ 7 + s.toCode * 2 ^ 5 + k)) ho (dst_lt d) (src32 a) (src32 b) (by omega)),
    srcF_of (a := b) (encR_b (fn := (o.toCode * 2 ^ 7 + s.toCode * 2 ^ 5 + k)) ho (dst_lt d) (src32 a) (src32 b) (by omega))
    (encR_eb (fn := (o.toCode * 2 ^ 7 + s.toCode * 2 ^ 5 + k)) ho (dst_lt d) (src32 a) (src32 b) (by omega)), dstF_of (d := d)
    (encR_d (fn := (o.toCode * 2 ^ 7 + s.toCode * 2 ^ 5 + k)) ho (dst_lt d) (src32 a) (src32 b) (by omega)),
    encR_o ho (dst_lt d) (src32 a) (src32 b) (Order.code_lt o) (Scope.code_lt s) hk, encR_s ho (dst_lt d) (src32 a) (src32 b)
    (Order.code_lt o) (Scope.code_lt s) hk, Order.of_to, Scope.of_to, ok_bind]
  rfl

theorem rtCAS (d : XReg) (a b : Src) (so : Order) (fo : AcqOrder) (s : Scope) :
    decCAS (encR 27 d.val a.reg.code a.e b.reg.code b.e (so.toCode * 2 ^ 7 + s.toCode * 2 ^ 5 + fo.toCode * 2 ^ 3))
      = .ok (.cas d a b so fo s) := by
  have := Order.code_lt so
  have := AcqOrder.code_lt fo
  have := Scope.code_lt s
  simp only [decCAS, srcF_of (a := a) (encR_a (op := 27) (fn := (so.toCode * 2 ^ 7 + s.toCode * 2 ^ 5 + fo.toCode * 2 ^ 3))
    (by decide) (x32 d) (src32 a) (src32 b) (by omega)) (encR_ea (op := 27)
    (fn := (so.toCode * 2 ^ 7 + s.toCode * 2 ^ 5 + fo.toCode * 2 ^ 3)) (by decide) (x32 d) (src32 a) (src32 b) (by omega)),
    srcF_of (a := b) (encR_b (op := 27) (fn := (so.toCode * 2 ^ 7 + s.toCode * 2 ^ 5 + fo.toCode * 2 ^ 3)) (by decide) (x32 d)
    (src32 a) (src32 b) (by omega)) (encR_eb (op := 27) (fn := (so.toCode * 2 ^ 7 + s.toCode * 2 ^ 5 + fo.toCode * 2 ^ 3))
    (by decide) (x32 d) (src32 a) (src32 b) (by omega)), encR_f (op := 27) (by decide) (x32 d) (src32 a) (src32 b)
    (Order.code_lt so) (Scope.code_lt s) (AcqOrder.code_lt fo), zeroF_of (encR_z (op := 27) (by decide) (x32 d) (src32 a)
    (src32 b) (Order.code_lt so) (Scope.code_lt s) (AcqOrder.code_lt fo)), dstX_of (d := d) (encR_d (op := 27)
    (fn := (so.toCode * 2 ^ 7 + s.toCode * 2 ^ 5 + fo.toCode * 2 ^ 3)) (by decide) (x32 d) (src32 a) (src32 b) (by omega)),
    encR_fo (op := 27) (by decide) (x32 d) (src32 a) (src32 b) (Order.code_lt so) (Scope.code_lt s) (AcqOrder.code_lt fo),
    encR_fs (op := 27) (by decide) (x32 d) (src32 a) (src32 b) (Order.code_lt so) (Scope.code_lt s) (AcqOrder.code_lt fo),
    Order.of_to, Scope.of_to, AcqOrder.of_to, code_some, ok_bind]
  rfl

theorem rtLOOP (count : Src) (lv : Bool) (len : BitVec 18) (h0 : len.toNat ≠ 0) :
    decLOOP (encL count.reg.code count.e lv len.toNat) = .ok (.loop count lv len) := by
  simp only [decLOOP, srcF_of (a := count) (encL_c (src32 count) len.isLt) (encL_ea (src32 count) len.isLt),
    zeroF_of (encL_z (src32 count) len.isLt), encL_fn (src32 count) len.isLt, if_neg h0, bit_of (encL_lv (src32 count)
    len.isLt), bv_of_fld (x := len) (encL_fn (src32 count) len.isLt), ok_bind]

theorem rtBES (e : Engine) (f : Flag) (off : BitVec 14) :
    decE (encE e.toCode f.toCode 0 off.toNat) = .ok (.bes e f off) := by
  simp only [decE, encE_e (sn := 0) (Engine.code_lt e) (Flag.code_lt f) (by decide) off.isLt, encE_f (sn := 0)
    (Engine.code_lt e) (Flag.code_lt f) (by decide) off.isLt, zeroF_of (encE_z (sn := 0) (Engine.code_lt e) (Flag.code_lt f)
    (by decide) off.isLt), bv_of_fld (x := off) (encE_fn (sn := 0) (Engine.code_lt e) (Flag.code_lt f) (by decide) off.isLt),
    bit, encE_sn (sn := 0) (Engine.code_lt e) (Flag.code_lt f) (by decide) off.isLt, Engine.of_to, Flag.of_to, code_some,
    ok_bind]
  rfl

theorem rtBEC (e : Engine) (f : Flag) (off : BitVec 14) :
    decE (encE e.toCode f.toCode 1 off.toNat) = .ok (.bec e f off) := by
  simp only [decE, encE_e (sn := 1) (Engine.code_lt e) (Flag.code_lt f) (by decide) off.isLt, encE_f (sn := 1)
    (Engine.code_lt e) (Flag.code_lt f) (by decide) off.isLt, zeroF_of (encE_z (sn := 1) (Engine.code_lt e) (Flag.code_lt f)
    (by decide) off.isLt), bv_of_fld (x := off) (encE_fn (sn := 1) (Engine.code_lt e) (Flag.code_lt f) (by decide) off.isLt),
    bit, encE_sn (sn := 1) (Engine.code_lt e) (Flag.code_lt f) (by decide) off.isLt, Engine.of_to, Flag.of_to, code_some,
    ok_bind]
  rfl

theorem rtPHASE {op fn : Nat} (o : PhaseOrder) (s : Scope) (ho : op < 64) (hf : fn < 512) :
    decPHASE (encC op 0 0 false false (o.toCode * 2 ^ 3 + s.toCode * 2) fn) = .ok (.phase o s) := by
  have := PhaseOrder.code_lt o
  have := Scope.code_lt s
  simp only [decPHASE, noA, zeroF_of (encC_a (a := 0) (b := 0) (sel := (o.toCode * 2 ^ 3 + s.toCode * 2)) ho (by decide)
    (by decide) (by omega) hf), zeroF_of (encC_ea (ea := false) (a := 0) (b := 0) (sel := (o.toCode * 2 ^ 3 + s.toCode * 2))
    ho (by decide) (by decide) (by omega) hf), noB, zeroF_of (encC_b (a := 0) (b := 0)
    (sel := (o.toCode * 2 ^ 3 + s.toCode * 2)) ho (by decide) (by decide) (by omega) hf), zeroF_of (encC_eb (eb := false)
    (a := 0) (b := 0) (sel := (o.toCode * 2 ^ 3 + s.toCode * 2)) ho (by decide) (by decide) (by omega) hf),
    zeroF_of (encC_oz (a := 0) (b := 0) ho (by decide) (by decide) hf (PhaseOrder.code_lt o) (Scope.code_lt s)),
    encC_oo (a := 0) (b := 0) ho (by decide) (by decide) hf (PhaseOrder.code_lt o) (Scope.code_lt s), encC_os (a := 0) (b := 0)
    ho (by decide) (by decide) hf (PhaseOrder.code_lt o) (Scope.code_lt s), PhaseOrder.of_to, Scope.of_to, ok_bind]
  rfl

theorem rtWAITC {op fn : Nat} (c : Counter) (a : Src) (ho : op < 64) (hf : fn < 512) :
    decWAITC (encC op a.reg.code 0 a.e false (c.toCode * 2) fn) = .ok (.waitc c a) := by
  have := Counter.code_lt c
  simp only [decWAITC, noB, zeroF_of (encC_b (b := 0) (sel := (c.toCode * 2)) ho (src32 a) (by decide) (by omega) hf),
    zeroF_of (encC_eb (eb := false) (b := 0) (sel := (c.toCode * 2)) ho (src32 a) (by decide) (by omega) hf),
    zeroF_of (encC_cz (b := 0) ho (src32 a) (by decide) hf (Counter.code_lt c)), srcF_of (a := a) (encC_a (b := 0)
    (sel := (c.toCode * 2)) ho (src32 a) (by decide) (by omega) hf) (encC_ea (b := 0) (sel := (c.toCode * 2)) ho (src32 a)
    (by decide) (by omega) hf), encC_cc (b := 0) ho (src32 a) (by decide) hf (Counter.code_lt c), Counter.of_to, code_some,
    ok_bind]
  rfl

theorem rtARRIVE {op fn : Nat} (o : RelOrder) (s : Scope) (a : Src) (ho : op < 64) (hf : fn < 512) :
    decARRIVE (encC op a.reg.code 0 a.e false (o.toCode * 2 ^ 3 + s.toCode * 2) fn) = .ok (.arrive o s a) := by
  have := RelOrder.code_lt o
  have := Scope.code_lt s
  simp only [decARRIVE, noB, zeroF_of (encC_b (b := 0) (sel := (o.toCode * 2 ^ 3 + s.toCode * 2)) ho (src32 a) (by decide)
    (by omega) hf), zeroF_of (encC_eb (eb := false) (b := 0) (sel := (o.toCode * 2 ^ 3 + s.toCode * 2)) ho (src32 a) (by decide)
    (by omega) hf), zeroF_of (encC_oz (b := 0) ho (src32 a) (by decide) hf (RelOrder.code_lt o) (Scope.code_lt s)),
    srcF_of (a := a) (encC_a (b := 0) (sel := (o.toCode * 2 ^ 3 + s.toCode * 2)) ho (src32 a) (by decide) (by omega) hf)
    (encC_ea (b := 0) (sel := (o.toCode * 2 ^ 3 + s.toCode * 2)) ho (src32 a) (by decide) (by omega) hf), encC_oo (b := 0)
    ho (src32 a) (by decide) hf (RelOrder.code_lt o) (Scope.code_lt s), encC_os (b := 0) ho (src32 a) (by decide)
    hf (RelOrder.code_lt o) (Scope.code_lt s), RelOrder.of_to, Scope.of_to, code_some, ok_bind]
  rfl

theorem rtAWAIT {op fn : Nat} (o : AcqOrder) (s : Scope) (a b : Src) (ho : op < 64) (hf : fn < 512) :
    decAWAIT (encC op a.reg.code b.reg.code a.e b.e (o.toCode * 2 ^ 3 + s.toCode * 2) fn) = .ok (.await o s a b) := by
  have := AcqOrder.code_lt o
  have := Scope.code_lt s
  simp only [decAWAIT, zeroF_of (encC_oz ho (src32 a) (src32 b) hf (AcqOrder.code_lt o) (Scope.code_lt s)), srcF_of (a := a)
    (encC_a (sel := (o.toCode * 2 ^ 3 + s.toCode * 2)) ho (src32 a) (src32 b) (by omega) hf)
    (encC_ea (sel := (o.toCode * 2 ^ 3 + s.toCode * 2)) ho (src32 a) (src32 b) (by omega) hf), srcF_of (a := b)
    (encC_b (sel := (o.toCode * 2 ^ 3 + s.toCode * 2)) ho (src32 a) (src32 b) (by omega) hf)
    (encC_eb (sel := (o.toCode * 2 ^ 3 + s.toCode * 2)) ho (src32 a) (src32 b) (by omega) hf), encC_oo ho (src32 a) (src32 b)
    hf (AcqOrder.code_lt o) (Scope.code_lt s), encC_os ho (src32 a) (src32 b) hf (AcqOrder.code_lt o) (Scope.code_lt s),
    AcqOrder.of_to, Scope.of_to, code_some, ok_bind]
  rfl

theorem rtC0 {op fn : Nat} (i : Instr) (ho : op < 64) (hf : fn < 512) :
    decC0 (encC op 0 0 false false 0 fn) i = .ok (i) := by
  simp only [decC0, noA, zeroF_of (encC_a (a := 0) (b := 0) (sel := 0) ho (by decide) (by decide) (by decide) hf),
    zeroF_of (encC_ea (ea := false) (a := 0) (b := 0) (sel := 0) ho (by decide) (by decide) (by decide) hf), noB,
    zeroF_of (encC_b (a := 0) (b := 0) (sel := 0) ho (by decide) (by decide) (by decide) hf), zeroF_of (encC_eb (eb := false)
    (a := 0) (b := 0) (sel := 0) ho (by decide) (by decide) (by decide) hf), zeroF_of (encC_sel (a := 0) (b := 0) (sel := 0)
    ho (by decide) (by decide) (by decide) hf), ok_bind]
  rfl

theorem rtCA {op fn : Nat} (a : Src) (mk : Src → Instr) (ho : op < 64) (hf : fn < 512) :
    decCA (encC op a.reg.code 0 a.e false 0 fn) mk = .ok (mk a) := by
  simp only [decCA, noB, zeroF_of (encC_b (b := 0) (sel := 0) ho (src32 a) (by decide) (by decide) hf),
    zeroF_of (encC_eb (eb := false) (b := 0) (sel := 0) ho (src32 a) (by decide) (by decide) hf), zeroF_of (encC_sel (b := 0)
    (sel := 0) ho (src32 a) (by decide) (by decide) hf), srcF_of (a := a) (encC_a (b := 0) (sel := 0) ho (src32 a) (by decide)
    (by decide) hf) (encC_ea (b := 0) (sel := 0) ho (src32 a) (by decide) (by decide) hf), ok_bind]
  rfl

theorem rtCAB {op fn : Nat} (a b : Src) (mk : Src → Src → Instr) (ho : op < 64) (hf : fn < 512) :
    decCAB (encC op a.reg.code b.reg.code a.e b.e 0 fn) mk = .ok (mk a b) := by
  simp only [decCAB, zeroF_of (encC_sel (sel := 0) ho (src32 a) (src32 b) (by decide) hf), srcF_of (a := a) (encC_a (sel := 0)
    ho (src32 a) (src32 b) (by decide) hf) (encC_ea (sel := 0) ho (src32 a) (src32 b) (by decide) hf), srcF_of (a := b)
    (encC_b (sel := 0) ho (src32 a) (src32 b) (by decide) hf) (encC_eb (sel := 0) ho (src32 a) (src32 b) (by decide) hf),
    ok_bind]
  rfl

theorem rtCAX {op fn : Nat} {lo hi : Nat} (a : Src) (b : XReg) (eb : Bool) (mk : Src → XReg → Bool → Instr) (ho : op < 64) (hf : fn < 512) (hr : lo ≤ b.val ∧ b.val ≤ hi) :
    decCAX (encC op a.reg.code b.val a.e eb 0 fn) lo hi mk = .ok (mk a b eb) := by
  simp only [decCAX, zeroF_of (encC_sel (sel := 0) ho (src32 a) (x32 b) (by decide) hf), srcF_of (a := a) (encC_a (sel := 0)
    ho (src32 a) (x32 b) (by decide) hf) (encC_ea (sel := 0) ho (src32 a) (x32 b) (by decide) hf), xRange_of (encC_b (sel := 0)
    ho (src32 a) (x32 b) (by decide) hf) hr, bit_of (encC_eb (sel := 0) ho (src32 a) (x32 b) (by decide) hf), ok_bind]
  rfl

theorem rtSEND {op fn : Nat} (a : Src) (b : XReg) (eb : Bool) (n : BitVec 5) (ho : op < 64) (hf : fn < 512) (hn : 1 ≤ n.toNat ∧ n.toNat ≤ 8 ∧ b.val + n.toNat ≤ 24) :
    decSEND (encC op a.reg.code b.val a.e eb n.toNat fn) = .ok (.send a b eb n) := by
  simp only [decSEND, srcF_of (a := a) (encC_a ho (src32 a) (x32 b) n.isLt hf) (encC_ea ho (src32 a) (x32 b) n.isLt hf),
    xRange_of (encC_b ho (src32 a) (x32 b) n.isLt hf) (xs_le b), encC_sel ho (src32 a) (x32 b) n.isLt hf, if_pos hn,
    bit_of (encC_eb ho (src32 a) (x32 b) n.isLt hf), BitVec.ofNat_toNat, BitVec.setWidth_eq, ok_bind]

theorem rtCDXA {op fn : Nat} (d : XReg) (a : Src) (mk : XReg → Src → Instr) (ho : op < 64) (hf : fn < 512) :
    decCDXA (encC op a.reg.code 0 a.e false d.val fn) mk = .ok (mk d a) := by
  simp only [decCDXA, noB, zeroF_of (encC_b (b := 0) ho (src32 a) (by decide) (x32 d) hf), zeroF_of (encC_eb (eb := false)
    (b := 0) ho (src32 a) (by decide) (x32 d) hf), srcF_of (a := a) (encC_a (b := 0) ho (src32 a) (by decide) (x32 d) hf)
    (encC_ea (b := 0) ho (src32 a) (by decide) (x32 d) hf), dstX_of (d := d) (encC_sel (b := 0) ho (src32 a) (by decide) (x32 d)
    hf), ok_bind]
  rfl

theorem rtCDXAB {op fn : Nat} (d : XReg) (a b : Src) (mk : XReg → Src → Src → Instr) (ho : op < 64) (hf : fn < 512) :
    decCDXAB (encC op a.reg.code b.reg.code a.e b.e d.val fn) mk = .ok (mk d a b) := by
  simp only [decCDXAB, srcF_of (a := a) (encC_a ho (src32 a) (src32 b) (x32 d) hf) (encC_ea ho (src32 a) (src32 b) (x32 d) hf),
    srcF_of (a := b) (encC_b ho (src32 a) (src32 b) (x32 d) hf) (encC_eb ho (src32 a) (src32 b) (x32 d) hf), dstX_of (d := d)
    (encC_sel ho (src32 a) (src32 b) (x32 d) hf), ok_bind]
  rfl

theorem rtCDA {op fn : Nat} (d : Dst) (a : Src) (mk : Dst → Src → Instr) (ho : op < 64) (hf : fn < 512) :
    decCDA (encC op a.reg.code 0 a.e false d.code fn) mk = .ok (mk d a) := by
  simp only [decCDA, noB, zeroF_of (encC_b (b := 0) ho (src32 a) (by decide) (dst_lt d) hf), zeroF_of (encC_eb (eb := false)
    (b := 0) ho (src32 a) (by decide) (dst_lt d) hf), srcF_of (a := a) (encC_a (b := 0) ho (src32 a) (by decide) (dst_lt d) hf)
    (encC_ea (b := 0) ho (src32 a) (by decide) (dst_lt d) hf), dstF_of (d := d) (encC_sel (b := 0) ho (src32 a) (by decide)
    (dst_lt d) hf), ok_bind]
  rfl

theorem rtCDAB {op fn : Nat} (d : Dst) (a b : Src) (mk : Dst → Src → Src → Instr) (ho : op < 64) (hf : fn < 512) :
    decCDAB (encC op a.reg.code b.reg.code a.e b.e d.code fn) mk = .ok (mk d a b) := by
  simp only [decCDAB, srcF_of (a := a) (encC_a ho (src32 a) (src32 b) (dst_lt d) hf) (encC_ea ho (src32 a) (src32 b) (dst_lt d)
    hf), srcF_of (a := b) (encC_b ho (src32 a) (src32 b) (dst_lt d) hf) (encC_eb ho (src32 a) (src32 b) (dst_lt d) hf),
    dstF_of (d := d) (encC_sel ho (src32 a) (src32 b) (dst_lt d) hf), ok_bind]
  rfl

theorem rtCDPA {op fn : Nat} (d : XReg) (a : Src) (mk : XReg → Src → Instr) (ho : op < 64) (hf : fn < 512) (hr : 1 ≤ d.val ∧ d.val ≤ 22) :
    decCDPA (encC op a.reg.code 0 a.e false d.val fn) mk = .ok (mk d a) := by
  simp only [decCDPA, noB, zeroF_of (encC_b (b := 0) ho (src32 a) (by decide) (x32 d) hf), zeroF_of (encC_eb (eb := false)
    (b := 0) ho (src32 a) (by decide) (x32 d) hf), srcF_of (a := a) (encC_a (b := 0) ho (src32 a) (by decide) (x32 d) hf)
    (encC_ea (b := 0) ho (src32 a) (by decide) (x32 d) hf), dstPair_of (encC_sel (b := 0) ho (src32 a) (by decide) (x32 d) hf)
    hr, ok_bind]
  rfl

theorem rtCD {op fn : Nat} (d : Dst) (mk : Dst → Instr) (ho : op < 64) (hf : fn < 512) :
    decCD (encC op 0 0 false false d.code fn) mk = .ok (mk d) := by
  simp only [decCD, noA, zeroF_of (encC_a (a := 0) (b := 0) ho (by decide) (by decide) (dst_lt d) hf),
    zeroF_of (encC_ea (ea := false) (a := 0) (b := 0) ho (by decide) (by decide) (dst_lt d) hf), noB, zeroF_of (encC_b (a := 0)
    (b := 0) ho (by decide) (by decide) (dst_lt d) hf), zeroF_of (encC_eb (eb := false) (a := 0) (b := 0) ho (by decide)
    (by decide) (dst_lt d) hf), dstF_of (d := d) (encC_sel (a := 0) (b := 0) ho (by decide) (by decide) (dst_lt d) hf), ok_bind]
  rfl

theorem rtVLOOP {op fn : Nat} (a : Src) (n : BitVec 5) (ho : op < 64) (hf : fn < 512) (hn : 1 ≤ n.toNat ∧ n.toNat ≤ 16) :
    decVLOOP (encC op a.reg.code 0 a.e false n.toNat fn) = .ok (.vloop a n) := by
  simp only [decVLOOP, noB, zeroF_of (encC_b (b := 0) ho (src32 a) (by decide) n.isLt hf), zeroF_of (encC_eb (eb := false)
    (b := 0) ho (src32 a) (by decide) n.isLt hf), srcF_of (a := a) (encC_a (b := 0) ho (src32 a) (by decide) n.isLt hf)
    (encC_ea (b := 0) ho (src32 a) (by decide) n.isLt hf), encC_sel (b := 0) ho (src32 a) (by decide) n.isLt hf, if_pos hn,
    BitVec.ofNat_toNat, BitVec.setWidth_eq, ok_bind]

theorem rtCSRR {op : Nat} (d : Dst) (c : BitVec 12) (ho : op < 64) :
    decCSRR (encI op d.code 0 false (0 * 2 ^ 12 + c.toNat)) = .ok (.csrr d c) := by
  have := c.isLt
  simp only [decCSRR, zeroF_of (encI_a (a := 0) (fn := (0 * 2 ^ 12 + c.toNat)) ho (dst_lt d) (by decide) (by omega)),
    zeroF_of (encI_ea (ea := false) (a := 0) (fn := (0 * 2 ^ 12 + c.toNat)) ho (dst_lt d) (by decide) (by omega)),
    dstF_of (d := d) (encI_d (a := 0) (fn := (0 * 2 ^ 12 + c.toNat)) ho (dst_lt d) (by decide) (by omega)), bv_of_fld (x := c)
    (encI_cn (a := 0) (k := 0) ho (dst_lt d) (by decide) (by decide) c.isLt), ok_bind]
  rfl

theorem rtCSR {op : Nat} (k : Nat) (d : Dst) (a : Src) (c : BitVec 12) (mk : Dst → Src → BitVec 12 → Instr) (ho : op < 64) (hk : k < 8) :
    decCSR (encI op d.code a.reg.code a.e (k * 2 ^ 12 + c.toNat)) mk = .ok (mk d a c) := by
  have := c.isLt
  simp only [decCSR, srcF_of (a := a) (encI_a (fn := (k * 2 ^ 12 + c.toNat)) ho (dst_lt d) (src32 a) (by omega))
    (encI_ea (fn := (k * 2 ^ 12 + c.toNat)) ho (dst_lt d) (src32 a) (by omega)), dstF_of (d := d)
    (encI_d (fn := (k * 2 ^ 12 + c.toNat)) ho (dst_lt d) (src32 a) (by omega)), bv_of_fld (x := c) (encI_cn ho (dst_lt d)
    (src32 a) hk c.isLt), ok_bind]
  rfl

theorem rtF3 {op : Nat} (k : Nat) (d : Dst) (a b : Src) (rm : Rnd) (mk : Dst → Src → Src → Rnd → Instr) (ho : op < 64) (hk : k < 128) :
    decF3 (encR op d.code a.reg.code a.e b.reg.code b.e (rm.toCode * 2 ^ 7 + k)) mk = .ok (mk d a b rm) := by
  have := Rnd.code_lt rm
  simp only [decF3, srcF_of (a := a) (encR_a (fn := (rm.toCode * 2 ^ 7 + k)) ho (dst_lt d) (src32 a) (src32 b) (by omega))
    (encR_ea (fn := (rm.toCode * 2 ^ 7 + k)) ho (dst_lt d) (src32 a) (src32 b) (by omega)), srcF_of (a := b)
    (encR_b (fn := (rm.toCode * 2 ^ 7 + k)) ho (dst_lt d) (src32 a) (src32 b) (by omega))
    (encR_eb (fn := (rm.toCode * 2 ^ 7 + k)) ho (dst_lt d) (src32 a) (src32 b) (by omega)), dstF_of (d := d)
    (encR_d (fn := (rm.toCode * 2 ^ 7 + k)) ho (dst_lt d) (src32 a) (src32 b) (by omega)), encR_rm ho (dst_lt d) (src32 a)
    (src32 b) (Rnd.code_lt rm) hk, Rnd.of_to, ok_bind]
  rfl

theorem rtF3X {op : Nat} (k : Nat) (d : XReg) (a b : Src) (rm : Rnd) (mk : XReg → Src → Src → Rnd → Instr) (ho : op < 64) (hk : k < 128) :
    decF3X (encR op d.val a.reg.code a.e b.reg.code b.e (rm.toCode * 2 ^ 7 + k)) mk = .ok (mk d a b rm) := by
  have := Rnd.code_lt rm
  simp only [decF3X, srcF_of (a := a) (encR_a (fn := (rm.toCode * 2 ^ 7 + k)) ho (x32 d) (src32 a) (src32 b) (by omega))
    (encR_ea (fn := (rm.toCode * 2 ^ 7 + k)) ho (x32 d) (src32 a) (src32 b) (by omega)), srcF_of (a := b)
    (encR_b (fn := (rm.toCode * 2 ^ 7 + k)) ho (x32 d) (src32 a) (src32 b) (by omega)) (encR_eb (fn := (rm.toCode * 2 ^ 7 + k))
    ho (x32 d) (src32 a) (src32 b) (by omega)), dstX_of (d := d) (encR_d (fn := (rm.toCode * 2 ^ 7 + k)) ho (x32 d) (src32 a)
    (src32 b) (by omega)), encR_rm ho (x32 d) (src32 a) (src32 b) (Rnd.code_lt rm) hk, Rnd.of_to, ok_bind]
  rfl

theorem rtF2 {op : Nat} (k : Nat) (d : Dst) (a : Src) (rm : Rnd) (mk : Dst → Src → Rnd → Instr) (ho : op < 64) (hk : k < 128) :
    decF2 (encR op d.code a.reg.code a.e 0 false (rm.toCode * 2 ^ 7 + k)) mk = .ok (mk d a rm) := by
  have := Rnd.code_lt rm
  simp only [decF2, srcF_of (a := a) (encR_a (b := 0) (fn := (rm.toCode * 2 ^ 7 + k)) ho (dst_lt d) (src32 a) (by decide)
    (by omega)) (encR_ea (b := 0) (fn := (rm.toCode * 2 ^ 7 + k)) ho (dst_lt d) (src32 a) (by decide) (by omega)),
    zeroF_of (encR_b (b := 0) (fn := (rm.toCode * 2 ^ 7 + k)) ho (dst_lt d) (src32 a) (by decide) (by omega)),
    zeroF_of (encR_eb (eb := false) (b := 0) (fn := (rm.toCode * 2 ^ 7 + k)) ho (dst_lt d) (src32 a) (by decide) (by omega)),
    dstF_of (d := d) (encR_d (b := 0) (fn := (rm.toCode * 2 ^ 7 + k)) ho (dst_lt d) (src32 a) (by decide) (by omega)),
    encR_rm (b := 0) ho (dst_lt d) (src32 a) (by decide) (Rnd.code_lt rm) hk, Rnd.of_to, ok_bind]
  rfl

theorem rtVB {op fn : Nat} (d a b : VReg) (xs : XReg) (mk : VReg → VReg → VReg → XReg → Instr) (ho : op < 64) (hf : fn < 32) (hb : bcastOk b xs = true) :
    decVB (encV op d.val a.val b.val 0 xs.val fn) mk = .ok (mk d a b xs) := by
  simp only [decVB, zeroF_of (encV_c (c := 0) ho d.isLt a.isLt b.isLt (by decide) (x32 xs) hf), xsF_of (x := xs)
    (encV_xs (c := 0) ho d.isLt a.isLt b.isLt (by decide) (x32 xs) hf), bcast_of (xs := xs) (encV_b (c := 0)
    ho d.isLt a.isLt b.isLt (by decide) (x32 xs) hf) hb, vreg_of (v := d) (encV_d (c := 0) ho d.isLt a.isLt b.isLt (by decide)
    (x32 xs) hf), vreg_of (v := a) (encV_a (c := 0) ho d.isLt a.isLt b.isLt (by decide) (x32 xs) hf), vreg_of (v := b)
    (encV_b (c := 0) ho d.isLt a.isLt b.isLt (by decide) (x32 xs) hf), ok_bind]
  rfl

theorem rtVSHR {op fn : Nat} (d a b : VReg) (xs : XReg) (ho : op < 64) (hf : fn < 32) (hb : bcastOk b xs = true) :
    decVSHR (encV op d.val a.val b.val 0 xs.val fn) = .ok (.vshr d a b xs) := by
  simp only [decVSHR, encV_c (c := 0) ho d.isLt a.isLt b.isLt (by decide) (x32 xs) hf, xsF_of (x := xs) (encV_xs (c := 0)
    ho d.isLt a.isLt b.isLt (by decide) (x32 xs) hf), bcast_of (xs := xs) (encV_b (c := 0) ho d.isLt a.isLt b.isLt (by decide)
    (x32 xs) hf) hb, vreg_of (v := d) (encV_d (c := 0) ho d.isLt a.isLt b.isLt (by decide) (x32 xs) hf), vreg_of (v := a)
    (encV_a (c := 0) ho d.isLt a.isLt b.isLt (by decide) (x32 xs) hf), vreg_of (v := b) (encV_b (c := 0)
    ho d.isLt a.isLt b.isLt (by decide) (x32 xs) hf), ok_bind]

theorem rtVSHRA {op fn : Nat} (d a b : VReg) (xs : XReg) (ho : op < 64) (hf : fn < 32) (hb : bcastOk b xs = true) :
    decVSHR (encV op d.val a.val b.val 1 xs.val fn) = .ok (.vshrA d a b xs) := by
  simp only [decVSHR, encV_c (c := 1) ho d.isLt a.isLt b.isLt (by decide) (x32 xs) hf, xsF_of (x := xs) (encV_xs (c := 1)
    ho d.isLt a.isLt b.isLt (by decide) (x32 xs) hf), bcast_of (xs := xs) (encV_b (c := 1) ho d.isLt a.isLt b.isLt (by decide)
    (x32 xs) hf) hb, vreg_of (v := d) (encV_d (c := 1) ho d.isLt a.isLt b.isLt (by decide) (x32 xs) hf), vreg_of (v := a)
    (encV_a (c := 1) ho d.isLt a.isLt b.isLt (by decide) (x32 xs) hf), vreg_of (v := b) (encV_b (c := 1)
    ho d.isLt a.isLt b.isLt (by decide) (x32 xs) hf), ok_bind]

theorem rtVBC {op fn : Nat} (d a b c : VReg) (xs : XReg) (mk : VReg → VReg → VReg → VReg → XReg → Instr) (ho : op < 64) (hf : fn < 32) (hb : bcastOk b xs = true) :
    decVBC (encV op d.val a.val b.val c.val xs.val fn) mk = .ok (mk d a b c xs) := by
  simp only [decVBC, vreg_of (v := c) (encV_c ho d.isLt a.isLt b.isLt c.isLt (x32 xs) hf), xsF_of (x := xs)
    (encV_xs ho d.isLt a.isLt b.isLt c.isLt (x32 xs) hf), bcast_of (xs := xs) (encV_b ho d.isLt a.isLt b.isLt c.isLt (x32 xs)
    hf) hb, vreg_of (v := d) (encV_d ho d.isLt a.isLt b.isLt c.isLt (x32 xs) hf), vreg_of (v := a)
    (encV_a ho d.isLt a.isLt b.isLt c.isLt (x32 xs) hf), vreg_of (v := b) (encV_b ho d.isLt a.isLt b.isLt c.isLt (x32 xs) hf),
    ok_bind]
  rfl

theorem rtVCMP {op fn : Nat} (c : VCond) (d a b : VReg) (xs : XReg) (ho : op < 64) (hf : fn < 32) (hb : bcastOk b xs = true) :
    decVCMP (encV op d.val a.val b.val c.toCode xs.val fn) = .ok (.vcmp c d a b xs) := by
  simp only [decVCMP, encV_c ho d.isLt a.isLt b.isLt (VCond.code_lt c) (x32 xs) hf, VCond.of_to, code_some, xsF_of (x := xs)
    (encV_xs ho d.isLt a.isLt b.isLt (VCond.code_lt c) (x32 xs) hf), bcast_of (xs := xs)
    (encV_b ho d.isLt a.isLt b.isLt (VCond.code_lt c) (x32 xs) hf) hb, vreg_of (v := d)
    (encV_d ho d.isLt a.isLt b.isLt (VCond.code_lt c) (x32 xs) hf), vreg_of (v := a)
    (encV_a ho d.isLt a.isLt b.isLt (VCond.code_lt c) (x32 xs) hf), vreg_of (v := b)
    (encV_b ho d.isLt a.isLt b.isLt (VCond.code_lt c) (x32 xs) hf), ok_bind]
  rfl

theorem rtV2 {op fn : Nat} (d a : VReg) (mk : VReg → VReg → Instr) (ho : op < 64) (hf : fn < 32) :
    decV2 (encV op d.val a.val 0 0 0 fn) mk = .ok (mk d a) := by
  simp only [decV2, zeroF_of (encV_b (b := 0) (c := 0) (xs := 0) ho d.isLt a.isLt (by decide) (by decide) (by decide) hf),
    zeroF_of (encV_c (b := 0) (c := 0) (xs := 0) ho d.isLt a.isLt (by decide) (by decide) (by decide) hf),
    zeroF_of (encV_xs (b := 0) (c := 0) (xs := 0) ho d.isLt a.isLt (by decide) (by decide) (by decide) hf), vreg_of (v := d)
    (encV_d (b := 0) (c := 0) (xs := 0) ho d.isLt a.isLt (by decide) (by decide) (by decide) hf), vreg_of (v := a)
    (encV_a (b := 0) (c := 0) (xs := 0) ho d.isLt a.isLt (by decide) (by decide) (by decide) hf), ok_bind]
  rfl

theorem rtVSEL {op fn : Nat} (d a b c : VReg) (ho : op < 64) (hf : fn < 32) :
    decVSEL (encV op d.val a.val b.val c.val 0 fn) = .ok (.vsel d a b c) := by
  simp only [decVSEL, zeroF_of (encV_xs (xs := 0) ho d.isLt a.isLt b.isLt c.isLt (by decide) hf), vreg_of (v := d)
    (encV_d (xs := 0) ho d.isLt a.isLt b.isLt c.isLt (by decide) hf), vreg_of (v := a) (encV_a (xs := 0)
    ho d.isLt a.isLt b.isLt c.isLt (by decide) hf), vreg_of (v := b) (encV_b (xs := 0)
    ho d.isLt a.isLt b.isLt c.isLt (by decide) hf), vreg_of (v := c) (encV_c (xs := 0)
    ho d.isLt a.isLt b.isLt c.isLt (by decide) hf), ok_bind]
  rfl

theorem rtVCVT {op fn : Nat} (c : VCvt) (d a : VReg) (ho : op < 64) (hf : fn < 32) :
    decVK (encV op d.val a.val 0 c.toCode 0 fn) VCvt.ofCode .vcvt = .ok (.vcvt c d a) := by
  simp only [decVK, encV_c (b := 0) (xs := 0) ho d.isLt a.isLt (by decide) (VCvt.code_lt c) (by decide) hf, VCvt.of_to,
    code_some, zeroF_of (encV_b (b := 0) (xs := 0) ho d.isLt a.isLt (by decide) (VCvt.code_lt c) (by decide) hf),
    zeroF_of (encV_xs (b := 0) (xs := 0) ho d.isLt a.isLt (by decide) (VCvt.code_lt c) (by decide) hf), vreg_of (v := d)
    (encV_d (b := 0) (xs := 0) ho d.isLt a.isLt (by decide) (VCvt.code_lt c) (by decide) hf), vreg_of (v := a) (encV_a (b := 0)
    (xs := 0) ho d.isLt a.isLt (by decide) (VCvt.code_lt c) (by decide) hf), ok_bind]
  rfl

theorem rtVQNT {op fn : Nat} (c : SEFmt) (d a : VReg) (mk : SEFmt → VReg → VReg → Instr) (ho : op < 64) (hf : fn < 32) :
    decVK (encV op d.val a.val 0 c.toCode 0 fn) SEFmt.ofCode mk = .ok (mk c d a) := by
  simp only [decVK, encV_c (b := 0) (xs := 0) ho d.isLt a.isLt (by decide) (SEFmt.code_lt c) (by decide) hf, SEFmt.of_to,
    code_some, zeroF_of (encV_b (b := 0) (xs := 0) ho d.isLt a.isLt (by decide) (SEFmt.code_lt c) (by decide) hf),
    zeroF_of (encV_xs (b := 0) (xs := 0) ho d.isLt a.isLt (by decide) (SEFmt.code_lt c) (by decide) hf), vreg_of (v := d)
    (encV_d (b := 0) (xs := 0) ho d.isLt a.isLt (by decide) (SEFmt.code_lt c) (by decide) hf), vreg_of (v := a) (encV_a (b := 0)
    (xs := 0) ho d.isLt a.isLt (by decide) (SEFmt.code_lt c) (by decide) hf), ok_bind]
  rfl

theorem rtVRED {op fn : Nat} (c : VRedOp) (a : VReg) (ho : op < 64) (hf : fn < 32) :
    decVRED (encV op 0 a.val 0 c.toCode 0 fn) = .ok (.vred c a) := by
  simp only [decVRED, encV_c (d := 0) (b := 0) (xs := 0) ho (by decide) a.isLt (by decide) (VRedOp.code_lt c) (by decide) hf,
    VRedOp.of_to, code_some, zeroF_of (encV_d (d := 0) (b := 0) (xs := 0) ho (by decide) a.isLt (by decide) (VRedOp.code_lt c)
    (by decide) hf), zeroF_of (encV_b (d := 0) (b := 0) (xs := 0) ho (by decide) a.isLt (by decide) (VRedOp.code_lt c)
    (by decide) hf), zeroF_of (encV_xs (d := 0) (b := 0) (xs := 0) ho (by decide) a.isLt (by decide) (VRedOp.code_lt c)
    (by decide) hf), vreg_of (v := a) (encV_a (d := 0) (b := 0) (xs := 0) ho (by decide) a.isLt (by decide) (VRedOp.code_lt c)
    (by decide) hf), ok_bind]
  rfl

theorem rtVMOVc {op fn : Nat} (d a : VReg) (ho : op < 64) (hf : fn < 32) :
    decVMOV (encV op d.val a.val 0 0 0 fn) = .ok (.vmovCopy d a) := by
  simp only [decVMOV, xsF_of (x := 0) (encV_xs (b := 0) (c := 0) (xs := 0) ho d.isLt a.isLt (by decide) (by decide) (by decide)
    hf), zeroF_of (encV_b (b := 0) (c := 0) (xs := 0) ho d.isLt a.isLt (by decide) (by decide) (by decide) hf), encV_c (b := 0)
    (c := 0) (xs := 0) ho d.isLt a.isLt (by decide) (by decide) (by decide) hf, vreg_of (v := d) (encV_d (b := 0) (c := 0)
    (xs := 0) ho d.isLt a.isLt (by decide) (by decide) (by decide) hf), vreg_of (v := a) (encV_a (b := 0) (c := 0) (xs := 0)
    ho d.isLt a.isLt (by decide) (by decide) (by decide) hf), ok_bind]
  rfl

theorem rtVMOVb {op fn : Nat} (d : VReg) (xs : XReg) (ho : op < 64) (hf : fn < 32) (hx : xs.val ≠ 0) :
    decVMOV (encV op d.val 0 0 0 xs.val fn) = .ok (.vmovBroadcast d xs) := by
  simp only [decVMOV, xsF_of (x := xs) (encV_xs (a := 0) (b := 0) (c := 0) ho d.isLt (by decide) (by decide) (by decide)
    (x32 xs) hf), zeroF_of (encV_b (a := 0) (b := 0) (c := 0) ho d.isLt (by decide) (by decide) (by decide) (x32 xs) hf),
    encV_c (a := 0) (b := 0) (c := 0) ho d.isLt (by decide) (by decide) (by decide) (x32 xs) hf, if_neg hx, encV_a (a := 0)
    (b := 0) (c := 0) ho d.isLt (by decide) (by decide) (by decide) (x32 xs) hf, vreg_of (v := d) (encV_d (a := 0) (b := 0)
    (c := 0) ho d.isLt (by decide) (by decide) (by decide) (x32 xs) hf), ok_bind]
  rfl

theorem rtVMOVi {op fn : Nat} (d : VReg) (ho : op < 64) (hf : fn < 32) :
    decVMOV (encV op d.val 0 0 1 0 fn) = .ok (.vmovIdx d) := by
  simp only [decVMOV, xsF_of (x := 0) (encV_xs (a := 0) (b := 0) (c := 1) (xs := 0) ho d.isLt (by decide) (by decide)
    (by decide) (by decide) hf), zeroF_of (encV_b (a := 0) (b := 0) (c := 1) (xs := 0) ho d.isLt (by decide) (by decide)
    (by decide) (by decide) hf), encV_c (a := 0) (b := 0) (c := 1) (xs := 0) ho d.isLt (by decide) (by decide) (by decide)
    (by decide) hf, encV_a (a := 0) (b := 0) (c := 1) (xs := 0) ho d.isLt (by decide) (by decide) (by decide) (by decide) hf,
    vreg_of (v := d) (encV_d (a := 0) (b := 0) (c := 1) (xs := 0) ho d.isLt (by decide) (by decide) (by decide) (by decide) hf),
    ok_bind]
  rfl

theorem rtVMOVg {op fn : Nat} (a : VReg) (xs : XReg) (ho : op < 64) (hf : fn < 32) :
    decVMOV (encV op 0 a.val 0 2 xs.val fn) = .ok (.vmovGet a xs) := by
  simp only [decVMOV, xsF_of (x := xs) (encV_xs (d := 0) (b := 0) (c := 2) ho (by decide) a.isLt (by decide) (by decide)
    (x32 xs) hf), zeroF_of (encV_b (d := 0) (b := 0) (c := 2) ho (by decide) a.isLt (by decide) (by decide) (x32 xs) hf),
    encV_c (d := 0) (b := 0) (c := 2) ho (by decide) a.isLt (by decide) (by decide) (x32 xs) hf, encV_d (d := 0) (b := 0)
    (c := 2) ho (by decide) a.isLt (by decide) (by decide) (x32 xs) hf, vreg_of (v := a) (encV_a (d := 0) (b := 0) (c := 2)
    ho (by decide) a.isLt (by decide) (by decide) (x32 xs) hf), ok_bind]
  rfl

theorem rtVLD {op fn : Nat} (c : VForm) (d : VReg) (xs : XReg) (ho : op < 64) (hf : fn < 32) :
    decVLD (encV op d.val 0 0 c.toCode xs.val fn) = .ok (.vld c d xs) := by
  simp only [decVLD, encV_c (a := 0) (b := 0) ho d.isLt (by decide) (by decide) (VForm.code_lt c) (x32 xs) hf, VForm.of_to,
    code_some, zeroF_of (encV_z148 ho d.isLt (VForm.code_lt c) (x32 xs) hf), xsF_of (x := xs) (encV_xs (a := 0) (b := 0)
    ho d.isLt (by decide) (by decide) (VForm.code_lt c) (x32 xs) hf), vreg_of (v := d) (encV_d (a := 0) (b := 0)
    ho d.isLt (by decide) (by decide) (VForm.code_lt c) (x32 xs) hf), ok_bind]
  rfl

theorem rtVST {op fn : Nat} (c : VForm) (a : VReg) (xs : XReg) (ho : op < 64) (hf : fn < 32) :
    decVST (encV op 0 a.val 0 c.toCode xs.val fn) = .ok (.vst c a xs) := by
  simp only [decVST, encV_c (d := 0) (b := 0) ho (by decide) a.isLt (by decide) (VForm.code_lt c) (x32 xs) hf, VForm.of_to,
    code_some, zeroF_of (encV_b (d := 0) (b := 0) ho (by decide) a.isLt (by decide) (VForm.code_lt c) (x32 xs) hf),
    zeroF_of (encV_d (d := 0) (b := 0) ho (by decide) a.isLt (by decide) (VForm.code_lt c) (x32 xs) hf), xsF_of (x := xs)
    (encV_xs (d := 0) (b := 0) ho (by decide) a.isLt (by decide) (VForm.code_lt c) (x32 xs) hf), vreg_of (v := a)
    (encV_a (d := 0) (b := 0) ho (by decide) a.isLt (by decide) (VForm.code_lt c) (x32 xs) hf), ok_bind]
  rfl

theorem rtVGTH {op fn : Nat} (c : VForm3) (d a : VReg) (xs : XReg) (ho : op < 64) (hf : fn < 32) :
    decVGTH (encV op d.val a.val 0 c.toCode xs.val fn) = .ok (.vgth c d a xs) := by
  simp only [decVGTH, encV_c (b := 0) ho d.isLt a.isLt (by decide) (VForm3.code_lt c) (x32 xs) hf, VForm3.of_to, code_some,
    zeroF_of (encV_b (b := 0) ho d.isLt a.isLt (by decide) (VForm3.code_lt c) (x32 xs) hf), xsF_of (x := xs) (encV_xs (b := 0)
    ho d.isLt a.isLt (by decide) (VForm3.code_lt c) (x32 xs) hf), vreg_of (v := d) (encV_d (b := 0) ho d.isLt a.isLt (by decide)
    (VForm3.code_lt c) (x32 xs) hf), vreg_of (v := a) (encV_a (b := 0) ho d.isLt a.isLt (by decide) (VForm3.code_lt c) (x32 xs)
    hf), ok_bind]
  rfl

theorem rtVSCT {op fn : Nat} (c : VForm3) (a b : VReg) (xs : XReg) (ho : op < 64) (hf : fn < 32) :
    decVSCT (encV op 0 a.val b.val c.toCode xs.val fn) = .ok (.vsct c a b xs) := by
  simp only [decVSCT, encV_c (d := 0) ho (by decide) a.isLt b.isLt (VForm3.code_lt c) (x32 xs) hf, VForm3.of_to, code_some,
    zeroF_of (encV_d (d := 0) ho (by decide) a.isLt b.isLt (VForm3.code_lt c) (x32 xs) hf), xsF_of (x := xs) (encV_xs (d := 0)
    ho (by decide) a.isLt b.isLt (VForm3.code_lt c) (x32 xs) hf), vreg_of (v := b) (encV_b (d := 0) ho (by decide)
    a.isLt b.isLt (VForm3.code_lt c) (x32 xs) hf), vreg_of (v := a) (encV_a (d := 0) ho (by decide)
    a.isLt b.isLt (VForm3.code_lt c) (x32 xs) hf), ok_bind]
  rfl

theorem rtVREDPUT {op fn : Nat} (a : VReg) (xs : XReg) (ho : op < 64) (hf : fn < 32) :
    decVREDPUT (encV op 0 a.val 0 0 xs.val fn) = .ok (.vredput a xs) := by
  simp only [decVREDPUT, zeroF_of (encV_d (d := 0) (b := 0) (c := 0) ho (by decide) a.isLt (by decide) (by decide) (x32 xs) hf),
    zeroF_of (encV_z108 (d := 0) ho (by decide) a.isLt (x32 xs) hf), xsF_of (x := xs) (encV_xs (d := 0) (b := 0) (c := 0)
    ho (by decide) a.isLt (by decide) (by decide) (x32 xs) hf), vreg_of (v := a) (encV_a (d := 0) (b := 0) (c := 0)
    ho (by decide) a.isLt (by decide) (by decide) (x32 xs) hf), ok_bind]
  rfl

theorem rtVREDGET {op fn : Nat} (d : VReg) (xs : XReg) (ho : op < 64) (hf : fn < 32) :
    decVREDGET (encV op d.val 0 0 0 xs.val fn) = .ok (.vredget d xs) := by
  simp only [decVREDGET, zeroF_of (encV_z1012 ho d.isLt (x32 xs) hf), xsF_of (x := xs) (encV_xs (a := 0) (b := 0) (c := 0)
    ho d.isLt (by decide) (by decide) (by decide) (x32 xs) hf), vreg_of (v := d) (encV_d (a := 0) (b := 0) (c := 0)
    ho d.isLt (by decide) (by decide) (by decide) (x32 xs) hf), ok_bind]
  rfl

/-! Opcodes with a selector. -/

theorem zero_bind {w lo len : Nat} {r : Except DecodeErr Instr} (h : fld w lo len = 0) : (do zeroF w lo len; r) = r := by
  rw [zeroF_of h]; rfl

theorem of_op1 {w sel : Nat} {r : Except DecodeErr Instr} (hw : w < 2 ^ 32) (ho : fld w 26 6 = 1) (hs : fld w 0 9 = sel)
    (h : decOp1 sel w = r) : decodeWord (BitVec.ofNat 32 w) = r :=
  of_opcode hw ho (by subst hs; exact h)

theorem of_op8 {w sel : Nat} {r : Except DecodeErr Instr} (hw : w < 2 ^ 32) (ho : fld w 26 6 = 8) (hs : fld w 13 2 = sel)
    (h : decOp8 sel w = r) : decodeWord (BitVec.ofNat 32 w) = r :=
  of_opcode hw ho (by subst hs; exact h)

theorem of_op26 {w sel : Nat} {r : Except DecodeErr Instr} (hw : w < 2 ^ 32) (ho : fld w 26 6 = 26) (hs : fld w 0 5 = sel)
    (h : decOp26 sel w = r) : decodeWord (BitVec.ofNat 32 w) = r :=
  of_opcode hw ho (by subst hs; exact h)

theorem of_op44 {w sel : Nat} {r : Except DecodeErr Instr} (hw : w < 2 ^ 32) (ho : fld w 26 6 = 44) (hs : fld w 0 9 = sel)
    (h : decOp44 sel w = r) : decodeWord (BitVec.ofNat 32 w) = r :=
  of_opcode hw ho (by subst hs; exact h)

theorem of_op46 {w sel : Nat} {r : Except DecodeErr Instr} (hw : w < 2 ^ 32) (ho : fld w 26 6 = 46) (hs : fld w 0 9 = sel)
    (h : decOp46 sel w = r) : decodeWord (BitVec.ofNat 32 w) = r :=
  of_opcode hw ho (by subst hs; exact h)

theorem of_op47 {w sel : Nat} {r : Except DecodeErr Instr} (hw : w < 2 ^ 32) (ho : fld w 26 6 = 47) (hs : fld w 12 3 = sel)
    (h : decOp47 sel w = r) : decodeWord (BitVec.ofNat 32 w) = r :=
  of_opcode hw ho (by subst hs; exact h)

theorem of_op48 {w sel : Nat} {r : Except DecodeErr Instr} (hw : w < 2 ^ 32) (ho : fld w 26 6 = 48) (hs : fld w 0 7 = sel)
    (h : decOp48 sel w = r) : decodeWord (BitVec.ofNat 32 w) = r :=
  of_opcode hw ho (by subst hs; exact h)

theorem of_op52 {w sel : Nat} {r : Except DecodeErr Instr} (hw : w < 2 ^ 32) (ho : fld w 26 6 = 52) (hs : fld w 0 5 = sel)
    (h : decOp52 sel w = r) : decodeWord (BitVec.ofNat 32 w) = r :=
  of_opcode hw ho (by subst hs; exact h)

theorem of_op53 {w sel : Nat} {r : Except DecodeErr Instr} (hw : w < 2 ^ 32) (ho : fld w 26 6 = 53) (hs : fld w 0 5 = sel)
    (h : decOp53 sel w = r) : decodeWord (BitVec.ofNat 32 w) = r :=
  of_opcode hw ho (by subst hs; exact h)

theorem of_op54 {w sel : Nat} {r : Except DecodeErr Instr} (hw : w < 2 ^ 32) (ho : fld w 26 6 = 54) (hs : fld w 0 9 = sel)
    (h : decOp54 sel w = r) : decodeWord (BitVec.ofNat 32 w) = r :=
  of_opcode hw ho (by subst hs; exact h)

theorem of_op56 {w sel : Nat} {r : Except DecodeErr Instr} (hw : w < 2 ^ 32) (ho : fld w 26 6 = 56) (hs : fld w 0 9 = sel)
    (h : decOp56 sel w = r) : decodeWord (BitVec.ofNat 32 w) = r :=
  of_opcode hw ho (by subst hs; exact h)

theorem of_op57 {w sel : Nat} {r : Except DecodeErr Instr} (hw : w < 2 ^ 32) (ho : fld w 26 6 = 57) (hs : fld w 0 9 = sel)
    (h : decOp57 sel w = r) : decodeWord (BitVec.ofNat 32 w) = r :=
  of_opcode hw ho (by subst hs; exact h)

theorem of_op58 {w sel : Nat} {r : Except DecodeErr Instr} (hw : w < 2 ^ 32) (ho : fld w 26 6 = 58) (hs : fld w 0 9 = sel)
    (h : decOp58 sel w = r) : decodeWord (BitVec.ofNat 32 w) = r :=
  of_opcode hw ho (by subst hs; exact h)

theorem of_op59 {w sel : Nat} {r : Except DecodeErr Instr} (hw : w < 2 ^ 32) (ho : fld w 26 6 = 59) (hs : fld w 0 9 = sel)
    (h : decOp59 sel w = r) : decodeWord (BitVec.ofNat 32 w) = r :=
  of_opcode hw ho (by subst hs; exact h)


/-! One lemma for each constructor. -/

theorem add (d : Dst) (a : Src) (b : Src) : Statement (.add d a b) := fun _ _ => by
  show decodeWord (BitVec.ofNat 32 (encR 1 d.code a.reg.code a.e b.reg.code b.e 0)) = _
  exact of_op1 (encR_lt (op := 1) (fn := 0) (by decide) (dst_lt d) (src32 a) (src32 b) (by decide)) (encR_op (op := 1) (fn := 0)
    (by decide) (dst_lt d) (src32 a) (src32 b) (by decide)) (encR_fn (op := 1) (fn := 0) (by decide) (dst_lt d) (src32 a)
    (src32 b) (by decide)) (rtR3 d a b _ (by decide) (by decide))

theorem sub (d : Dst) (a : Src) (b : Src) : Statement (.sub d a b) := fun _ _ => by
  show decodeWord (BitVec.ofNat 32 (encR 1 d.code a.reg.code a.e b.reg.code b.e 1)) = _
  exact of_op1 (encR_lt (op := 1) (fn := 1) (by decide) (dst_lt d) (src32 a) (src32 b) (by decide)) (encR_op (op := 1) (fn := 1)
    (by decide) (dst_lt d) (src32 a) (src32 b) (by decide)) (encR_fn (op := 1) (fn := 1) (by decide) (dst_lt d) (src32 a)
    (src32 b) (by decide)) (rtR3 d a b _ (by decide) (by decide))

theorem and (d : Dst) (a : Src) (b : Src) : Statement (.and d a b) := fun _ _ => by
  show decodeWord (BitVec.ofNat 32 (encR 1 d.code a.reg.code a.e b.reg.code b.e 2)) = _
  exact of_op1 (encR_lt (op := 1) (fn := 2) (by decide) (dst_lt d) (src32 a) (src32 b) (by decide)) (encR_op (op := 1) (fn := 2)
    (by decide) (dst_lt d) (src32 a) (src32 b) (by decide)) (encR_fn (op := 1) (fn := 2) (by decide) (dst_lt d) (src32 a)
    (src32 b) (by decide)) (rtR3 d a b _ (by decide) (by decide))

theorem or (d : Dst) (a : Src) (b : Src) : Statement (.or d a b) := fun _ _ => by
  show decodeWord (BitVec.ofNat 32 (encR 1 d.code a.reg.code a.e b.reg.code b.e 3)) = _
  exact of_op1 (encR_lt (op := 1) (fn := 3) (by decide) (dst_lt d) (src32 a) (src32 b) (by decide)) (encR_op (op := 1) (fn := 3)
    (by decide) (dst_lt d) (src32 a) (src32 b) (by decide)) (encR_fn (op := 1) (fn := 3) (by decide) (dst_lt d) (src32 a)
    (src32 b) (by decide)) (rtR3 d a b _ (by decide) (by decide))

theorem xor (d : Dst) (a : Src) (b : Src) : Statement (.xor d a b) := fun _ _ => by
  show decodeWord (BitVec.ofNat 32 (encR 1 d.code a.reg.code a.e b.reg.code b.e 4)) = _
  exact of_op1 (encR_lt (op := 1) (fn := 4) (by decide) (dst_lt d) (src32 a) (src32 b) (by decide)) (encR_op (op := 1) (fn := 4)
    (by decide) (dst_lt d) (src32 a) (src32 b) (by decide)) (encR_fn (op := 1) (fn := 4) (by decide) (dst_lt d) (src32 a)
    (src32 b) (by decide)) (rtR3 d a b _ (by decide) (by decide))

theorem andn (d : Dst) (a : Src) (b : Src) : Statement (.andn d a b) := fun _ _ => by
  show decodeWord (BitVec.ofNat 32 (encR 1 d.code a.reg.code a.e b.reg.code b.e 5)) = _
  exact of_op1 (encR_lt (op := 1) (fn := 5) (by decide) (dst_lt d) (src32 a) (src32 b) (by decide)) (encR_op (op := 1) (fn := 5)
    (by decide) (dst_lt d) (src32 a) (src32 b) (by decide)) (encR_fn (op := 1) (fn := 5) (by decide) (dst_lt d) (src32 a)
    (src32 b) (by decide)) (rtR3 d a b _ (by decide) (by decide))

theorem sll (d : Dst) (a : Src) (b : Src) : Statement (.sll d a b) := fun _ _ => by
  show decodeWord (BitVec.ofNat 32 (encR 1 d.code a.reg.code a.e b.reg.code b.e 6)) = _
  exact of_op1 (encR_lt (op := 1) (fn := 6) (by decide) (dst_lt d) (src32 a) (src32 b) (by decide)) (encR_op (op := 1) (fn := 6)
    (by decide) (dst_lt d) (src32 a) (src32 b) (by decide)) (encR_fn (op := 1) (fn := 6) (by decide) (dst_lt d) (src32 a)
    (src32 b) (by decide)) (rtR3 d a b _ (by decide) (by decide))

theorem srl (d : Dst) (a : Src) (b : Src) : Statement (.srl d a b) := fun _ _ => by
  show decodeWord (BitVec.ofNat 32 (encR 1 d.code a.reg.code a.e b.reg.code b.e 7)) = _
  exact of_op1 (encR_lt (op := 1) (fn := 7) (by decide) (dst_lt d) (src32 a) (src32 b) (by decide)) (encR_op (op := 1) (fn := 7)
    (by decide) (dst_lt d) (src32 a) (src32 b) (by decide)) (encR_fn (op := 1) (fn := 7) (by decide) (dst_lt d) (src32 a)
    (src32 b) (by decide)) (rtR3 d a b _ (by decide) (by decide))

theorem sra (d : Dst) (a : Src) (b : Src) : Statement (.sra d a b) := fun _ _ => by
  show decodeWord (BitVec.ofNat 32 (encR 1 d.code a.reg.code a.e b.reg.code b.e 8)) = _
  exact of_op1 (encR_lt (op := 1) (fn := 8) (by decide) (dst_lt d) (src32 a) (src32 b) (by decide)) (encR_op (op := 1) (fn := 8)
    (by decide) (dst_lt d) (src32 a) (src32 b) (by decide)) (encR_fn (op := 1) (fn := 8) (by decide) (dst_lt d) (src32 a)
    (src32 b) (by decide)) (rtR3 d a b _ (by decide) (by decide))

theorem slt (d : Dst) (a : Src) (b : Src) : Statement (.slt d a b) := fun _ _ => by
  show decodeWord (BitVec.ofNat 32 (encR 1 d.code a.reg.code a.e b.reg.code b.e 9)) = _
  exact of_op1 (encR_lt (op := 1) (fn := 9) (by decide) (dst_lt d) (src32 a) (src32 b) (by decide)) (encR_op (op := 1) (fn := 9)
    (by decide) (dst_lt d) (src32 a) (src32 b) (by decide)) (encR_fn (op := 1) (fn := 9) (by decide) (dst_lt d) (src32 a)
    (src32 b) (by decide)) (rtR3 d a b _ (by decide) (by decide))

theorem sltn (d : Dst) (a : Src) (b : Src) : Statement (.sltn d a b) := fun _ _ => by
  show decodeWord (BitVec.ofNat 32 (encR 1 d.code a.reg.code a.e b.reg.code b.e 10)) = _
  exact of_op1 (encR_lt (op := 1) (fn := 10) (by decide) (dst_lt d) (src32 a) (src32 b) (by decide)) (encR_op (op := 1)
    (fn := 10) (by decide) (dst_lt d) (src32 a) (src32 b) (by decide)) (encR_fn (op := 1) (fn := 10) (by decide) (dst_lt d)
    (src32 a) (src32 b) (by decide)) (rtR3 d a b _ (by decide) (by decide))

theorem min (d : Dst) (a : Src) (b : Src) : Statement (.min d a b) := fun _ _ => by
  show decodeWord (BitVec.ofNat 32 (encR 1 d.code a.reg.code a.e b.reg.code b.e 11)) = _
  exact of_op1 (encR_lt (op := 1) (fn := 11) (by decide) (dst_lt d) (src32 a) (src32 b) (by decide)) (encR_op (op := 1)
    (fn := 11) (by decide) (dst_lt d) (src32 a) (src32 b) (by decide)) (encR_fn (op := 1) (fn := 11) (by decide) (dst_lt d)
    (src32 a) (src32 b) (by decide)) (rtR3 d a b _ (by decide) (by decide))

theorem max (d : Dst) (a : Src) (b : Src) : Statement (.max d a b) := fun _ _ => by
  show decodeWord (BitVec.ofNat 32 (encR 1 d.code a.reg.code a.e b.reg.code b.e 12)) = _
  exact of_op1 (encR_lt (op := 1) (fn := 12) (by decide) (dst_lt d) (src32 a) (src32 b) (by decide)) (encR_op (op := 1)
    (fn := 12) (by decide) (dst_lt d) (src32 a) (src32 b) (by decide)) (encR_fn (op := 1) (fn := 12) (by decide) (dst_lt d)
    (src32 a) (src32 b) (by decide)) (rtR3 d a b _ (by decide) (by decide))

theorem minn (d : Dst) (a : Src) (b : Src) : Statement (.minn d a b) := fun _ _ => by
  show decodeWord (BitVec.ofNat 32 (encR 1 d.code a.reg.code a.e b.reg.code b.e 13)) = _
  exact of_op1 (encR_lt (op := 1) (fn := 13) (by decide) (dst_lt d) (src32 a) (src32 b) (by decide)) (encR_op (op := 1)
    (fn := 13) (by decide) (dst_lt d) (src32 a) (src32 b) (by decide)) (encR_fn (op := 1) (fn := 13) (by decide) (dst_lt d)
    (src32 a) (src32 b) (by decide)) (rtR3 d a b _ (by decide) (by decide))

theorem maxn (d : Dst) (a : Src) (b : Src) : Statement (.maxn d a b) := fun _ _ => by
  show decodeWord (BitVec.ofNat 32 (encR 1 d.code a.reg.code a.e b.reg.code b.e 14)) = _
  exact of_op1 (encR_lt (op := 1) (fn := 14) (by decide) (dst_lt d) (src32 a) (src32 b) (by decide)) (encR_op (op := 1)
    (fn := 14) (by decide) (dst_lt d) (src32 a) (src32 b) (by decide)) (encR_fn (op := 1) (fn := 14) (by decide) (dst_lt d)
    (src32 a) (src32 b) (by decide)) (rtR3 d a b _ (by decide) (by decide))

theorem mul (d : Dst) (a : Src) (b : Src) : Statement (.mul d a b) := fun _ _ => by
  show decodeWord (BitVec.ofNat 32 (encR 1 d.code a.reg.code a.e b.reg.code b.e 15)) = _
  exact of_op1 (encR_lt (op := 1) (fn := 15) (by decide) (dst_lt d) (src32 a) (src32 b) (by decide)) (encR_op (op := 1)
    (fn := 15) (by decide) (dst_lt d) (src32 a) (src32 b) (by decide)) (encR_fn (op := 1) (fn := 15) (by decide) (dst_lt d)
    (src32 a) (src32 b) (by decide)) (rtR3 d a b _ (by decide) (by decide))

theorem mulh (d : Dst) (a : Src) (b : Src) : Statement (.mulh d a b) := fun _ _ => by
  show decodeWord (BitVec.ofNat 32 (encR 1 d.code a.reg.code a.e b.reg.code b.e 16)) = _
  exact of_op1 (encR_lt (op := 1) (fn := 16) (by decide) (dst_lt d) (src32 a) (src32 b) (by decide)) (encR_op (op := 1)
    (fn := 16) (by decide) (dst_lt d) (src32 a) (src32 b) (by decide)) (encR_fn (op := 1) (fn := 16) (by decide) (dst_lt d)
    (src32 a) (src32 b) (by decide)) (rtR3 d a b _ (by decide) (by decide))

theorem mulhn (d : Dst) (a : Src) (b : Src) : Statement (.mulhn d a b) := fun _ _ => by
  show decodeWord (BitVec.ofNat 32 (encR 1 d.code a.reg.code a.e b.reg.code b.e 17)) = _
  exact of_op1 (encR_lt (op := 1) (fn := 17) (by decide) (dst_lt d) (src32 a) (src32 b) (by decide)) (encR_op (op := 1)
    (fn := 17) (by decide) (dst_lt d) (src32 a) (src32 b) (by decide)) (encR_fn (op := 1) (fn := 17) (by decide) (dst_lt d)
    (src32 a) (src32 b) (by decide)) (rtR3 d a b _ (by decide) (by decide))

theorem div (d : Dst) (a : Src) (b : Src) : Statement (.div d a b) := fun _ _ => by
  show decodeWord (BitVec.ofNat 32 (encR 1 d.code a.reg.code a.e b.reg.code b.e 18)) = _
  exact of_op1 (encR_lt (op := 1) (fn := 18) (by decide) (dst_lt d) (src32 a) (src32 b) (by decide)) (encR_op (op := 1)
    (fn := 18) (by decide) (dst_lt d) (src32 a) (src32 b) (by decide)) (encR_fn (op := 1) (fn := 18) (by decide) (dst_lt d)
    (src32 a) (src32 b) (by decide)) (rtR3 d a b _ (by decide) (by decide))

theorem divn (d : Dst) (a : Src) (b : Src) : Statement (.divn d a b) := fun _ _ => by
  show decodeWord (BitVec.ofNat 32 (encR 1 d.code a.reg.code a.e b.reg.code b.e 19)) = _
  exact of_op1 (encR_lt (op := 1) (fn := 19) (by decide) (dst_lt d) (src32 a) (src32 b) (by decide)) (encR_op (op := 1)
    (fn := 19) (by decide) (dst_lt d) (src32 a) (src32 b) (by decide)) (encR_fn (op := 1) (fn := 19) (by decide) (dst_lt d)
    (src32 a) (src32 b) (by decide)) (rtR3 d a b _ (by decide) (by decide))

theorem rem (d : Dst) (a : Src) (b : Src) : Statement (.rem d a b) := fun _ _ => by
  show decodeWord (BitVec.ofNat 32 (encR 1 d.code a.reg.code a.e b.reg.code b.e 20)) = _
  exact of_op1 (encR_lt (op := 1) (fn := 20) (by decide) (dst_lt d) (src32 a) (src32 b) (by decide)) (encR_op (op := 1)
    (fn := 20) (by decide) (dst_lt d) (src32 a) (src32 b) (by decide)) (encR_fn (op := 1) (fn := 20) (by decide) (dst_lt d)
    (src32 a) (src32 b) (by decide)) (rtR3 d a b _ (by decide) (by decide))

theorem remn (d : Dst) (a : Src) (b : Src) : Statement (.remn d a b) := fun _ _ => by
  show decodeWord (BitVec.ofNat 32 (encR 1 d.code a.reg.code a.e b.reg.code b.e 21)) = _
  exact of_op1 (encR_lt (op := 1) (fn := 21) (by decide) (dst_lt d) (src32 a) (src32 b) (by decide)) (encR_op (op := 1)
    (fn := 21) (by decide) (dst_lt d) (src32 a) (src32 b) (by decide)) (encR_fn (op := 1) (fn := 21) (by decide) (dst_lt d)
    (src32 a) (src32 b) (by decide)) (rtR3 d a b _ (by decide) (by decide))

theorem clz (d : Dst) (a : Src) : Statement (.clz d a) := fun _ _ => by
  show decodeWord (BitVec.ofNat 32 (encR 1 d.code a.reg.code a.e 0 false 22)) = _
  exact of_op1 (encR_lt (op := 1) (b := 0) (fn := 22) (by decide) (dst_lt d) (src32 a) (by decide) (by decide))
    (encR_op (op := 1) (b := 0) (fn := 22) (by decide) (dst_lt d) (src32 a) (by decide) (by decide)) (encR_fn (op := 1) (b := 0)
    (fn := 22) (by decide) (dst_lt d) (src32 a) (by decide) (by decide)) (rtR2 d a _ (by decide) (by decide))

theorem pop (d : Dst) (a : Src) : Statement (.pop d a) := fun _ _ => by
  show decodeWord (BitVec.ofNat 32 (encR 1 d.code a.reg.code a.e 0 false 23)) = _
  exact of_op1 (encR_lt (op := 1) (b := 0) (fn := 23) (by decide) (dst_lt d) (src32 a) (by decide) (by decide))
    (encR_op (op := 1) (b := 0) (fn := 23) (by decide) (dst_lt d) (src32 a) (by decide) (by decide)) (encR_fn (op := 1) (b := 0)
    (fn := 23) (by decide) (dst_lt d) (src32 a) (by decide) (by decide)) (rtR2 d a _ (by decide) (by decide))

theorem bext (d : Dst) (a : Src) (b : Src) : Statement (.bext d a b) := fun _ _ => by
  show decodeWord (BitVec.ofNat 32 (encR 1 d.code a.reg.code a.e b.reg.code b.e 24)) = _
  exact of_op1 (encR_lt (op := 1) (fn := 24) (by decide) (dst_lt d) (src32 a) (src32 b) (by decide)) (encR_op (op := 1)
    (fn := 24) (by decide) (dst_lt d) (src32 a) (src32 b) (by decide)) (encR_fn (op := 1) (fn := 24) (by decide) (dst_lt d)
    (src32 a) (src32 b) (by decide)) (rtR3 d a b _ (by decide) (by decide))

theorem bins (d : XReg) (a : Src) (b : Src) : Statement (.bins d a b) := fun _ _ => by
  show decodeWord (BitVec.ofNat 32 (encR 1 d.val a.reg.code a.e b.reg.code b.e 25)) = _
  exact of_op1 (encR_lt (op := 1) (fn := 25) (by decide) (x32 d) (src32 a) (src32 b) (by decide)) (encR_op (op := 1) (fn := 25)
    (by decide) (x32 d) (src32 a) (src32 b) (by decide)) (encR_fn (op := 1) (fn := 25) (by decide) (x32 d) (src32 a) (src32 b)
    (by decide)) (rtR3X d a b _ (by decide) (by decide))

theorem addi (d : Dst) (a : Src) (imm : BitVec 15) : Statement (.addi d a imm) := fun _ _ => by
  show decodeWord (BitVec.ofNat 32 (encI 2 d.code a.reg.code a.e imm.toNat)) = _
  exact of_opcode (encI_lt (op := 2) (by decide) (dst_lt d) (src32 a) imm.isLt) (encI_op (op := 2) (by decide) (dst_lt d)
    (src32 a) imm.isLt) (rtI d a imm _ (by decide))

theorem andi (d : Dst) (a : Src) (imm : BitVec 15) : Statement (.andi d a imm) := fun _ _ => by
  show decodeWord (BitVec.ofNat 32 (encI 3 d.code a.reg.code a.e imm.toNat)) = _
  exact of_opcode (encI_lt (op := 3) (by decide) (dst_lt d) (src32 a) imm.isLt) (encI_op (op := 3) (by decide) (dst_lt d)
    (src32 a) imm.isLt) (rtI d a imm _ (by decide))

theorem ori (d : Dst) (a : Src) (imm : BitVec 15) : Statement (.ori d a imm) := fun _ _ => by
  show decodeWord (BitVec.ofNat 32 (encI 4 d.code a.reg.code a.e imm.toNat)) = _
  exact of_opcode (encI_lt (op := 4) (by decide) (dst_lt d) (src32 a) imm.isLt) (encI_op (op := 4) (by decide) (dst_lt d)
    (src32 a) imm.isLt) (rtI d a imm _ (by decide))

theorem xori (d : Dst) (a : Src) (imm : BitVec 15) : Statement (.xori d a imm) := fun _ _ => by
  show decodeWord (BitVec.ofNat 32 (encI 5 d.code a.reg.code a.e imm.toNat)) = _
  exact of_opcode (encI_lt (op := 5) (by decide) (dst_lt d) (src32 a) imm.isLt) (encI_op (op := 5) (by decide) (dst_lt d)
    (src32 a) imm.isLt) (rtI d a imm _ (by decide))

theorem slti (d : Dst) (a : Src) (imm : BitVec 15) : Statement (.slti d a imm) := fun _ _ => by
  show decodeWord (BitVec.ofNat 32 (encI 6 d.code a.reg.code a.e imm.toNat)) = _
  exact of_opcode (encI_lt (op := 6) (by decide) (dst_lt d) (src32 a) imm.isLt) (encI_op (op := 6) (by decide) (dst_lt d)
    (src32 a) imm.isLt) (rtI d a imm _ (by decide))

theorem sltni (d : Dst) (a : Src) (imm : BitVec 15) : Statement (.sltni d a imm) := fun _ _ => by
  show decodeWord (BitVec.ofNat 32 (encI 7 d.code a.reg.code a.e imm.toNat)) = _
  exact of_opcode (encI_lt (op := 7) (by decide) (dst_lt d) (src32 a) imm.isLt) (encI_op (op := 7) (by decide) (dst_lt d)
    (src32 a) imm.isLt) (rtI d a imm _ (by decide))

theorem slli (d : Dst) (a : Src) (n : BitVec 5) : Statement (.slli d a n) := fun _ _ => by
  have := n.isLt
  show decodeWord (BitVec.ofNat 32 (encI 8 d.code a.reg.code a.e (0 * 2 ^ 13 + n.toNat))) = _
  exact of_op8 (encI_lt (op := 8) (fn := (0 * 2 ^ 13 + n.toNat)) (by decide) (dst_lt d) (src32 a) (by omega)) (encI_op (op := 8)
    (fn := (0 * 2 ^ 13 + n.toNat)) (by decide) (dst_lt d) (src32 a) (by omega)) (encI_shk (op := 8) (k := 0) (by decide)
    (dst_lt d) (src32 a) (by decide) n.isLt) (rtSH 0 d a n _ (by decide) (by decide))

theorem srli (d : Dst) (a : Src) (n : BitVec 5) : Statement (.srli d a n) := fun _ _ => by
  have := n.isLt
  show decodeWord (BitVec.ofNat 32 (encI 8 d.code a.reg.code a.e (1 * 2 ^ 13 + n.toNat))) = _
  exact of_op8 (encI_lt (op := 8) (fn := (1 * 2 ^ 13 + n.toNat)) (by decide) (dst_lt d) (src32 a) (by omega)) (encI_op (op := 8)
    (fn := (1 * 2 ^ 13 + n.toNat)) (by decide) (dst_lt d) (src32 a) (by omega)) (encI_shk (op := 8) (k := 1) (by decide)
    (dst_lt d) (src32 a) (by decide) n.isLt) (rtSH 1 d a n _ (by decide) (by decide))

theorem srai (d : Dst) (a : Src) (n : BitVec 5) : Statement (.srai d a n) := fun _ _ => by
  have := n.isLt
  show decodeWord (BitVec.ofNat 32 (encI 8 d.code a.reg.code a.e (2 * 2 ^ 13 + n.toNat))) = _
  exact of_op8 (encI_lt (op := 8) (fn := (2 * 2 ^ 13 + n.toNat)) (by decide) (dst_lt d) (src32 a) (by omega)) (encI_op (op := 8)
    (fn := (2 * 2 ^ 13 + n.toNat)) (by decide) (dst_lt d) (src32 a) (by omega)) (encI_shk (op := 8) (k := 2) (by decide)
    (dst_lt d) (src32 a) (by decide) n.isLt) (rtSH 2 d a n _ (by decide) (by decide))

theorem lui (d : Dst) (imm : BitVec 21) : Statement (.lui d imm) := fun _ _ => by
  show decodeWord (BitVec.ofNat 32 (encJ 9 d.code imm.toNat)) = _
  exact of_opcode (encJ_lt (op := 9) (by decide) (dst_lt d) imm.isLt) (encJ_op (op := 9) (by decide) (dst_lt d) imm.isLt)
    (rtJ d imm _ (by decide))

theorem muli (d : Dst) (a : Src) (imm : BitVec 15) : Statement (.muli d a imm) := fun _ _ => by
  show decodeWord (BitVec.ofNat 32 (encI 10 d.code a.reg.code a.e imm.toNat)) = _
  exact of_opcode (encI_lt (op := 10) (by decide) (dst_lt d) (src32 a) imm.isLt) (encI_op (op := 10) (by decide) (dst_lt d)
    (src32 a) imm.isLt) (rtI d a imm _ (by decide))

theorem ldb (d : Dst) (a : Src) (off : BitVec 15) : Statement (.ldb d a off) := fun _ _ => by
  show decodeWord (BitVec.ofNat 32 (encI 16 d.code a.reg.code a.e off.toNat)) = _
  exact of_opcode (encI_lt (op := 16) (by decide) (dst_lt d) (src32 a) off.isLt) (encI_op (op := 16) (by decide) (dst_lt d)
    (src32 a) off.isLt) (rtI d a off _ (by decide))

theorem ldbn (d : Dst) (a : Src) (off : BitVec 15) : Statement (.ldbn d a off) := fun _ _ => by
  show decodeWord (BitVec.ofNat 32 (encI 17 d.code a.reg.code a.e off.toNat)) = _
  exact of_opcode (encI_lt (op := 17) (by decide) (dst_lt d) (src32 a) off.isLt) (encI_op (op := 17) (by decide) (dst_lt d)
    (src32 a) off.isLt) (rtI d a off _ (by decide))

theorem ldh (d : Dst) (a : Src) (off : BitVec 15) : Statement (.ldh d a off) := fun _ _ => by
  show decodeWord (BitVec.ofNat 32 (encI 18 d.code a.reg.code a.e off.toNat)) = _
  exact of_opcode (encI_lt (op := 18) (by decide) (dst_lt d) (src32 a) off.isLt) (encI_op (op := 18) (by decide) (dst_lt d)
    (src32 a) off.isLt) (rtI d a off _ (by decide))

theorem ldhn (d : Dst) (a : Src) (off : BitVec 15) : Statement (.ldhn d a off) := fun _ _ => by
  show decodeWord (BitVec.ofNat 32 (encI 19 d.code a.reg.code a.e off.toNat)) = _
  exact of_opcode (encI_lt (op := 19) (by decide) (dst_lt d) (src32 a) off.isLt) (encI_op (op := 19) (by decide) (dst_lt d)
    (src32 a) off.isLt) (rtI d a off _ (by decide))

theorem ldw (d : Dst) (a : Src) (off : BitVec 15) : Statement (.ldw d a off) := fun _ _ => by
  show decodeWord (BitVec.ofNat 32 (encI 20 d.code a.reg.code a.e off.toNat)) = _
  exact of_opcode (encI_lt (op := 20) (by decide) (dst_lt d) (src32 a) off.isLt) (encI_op (op := 20) (by decide) (dst_lt d)
    (src32 a) off.isLt) (rtI d a off _ (by decide))

theorem pref (write : Bool) (a : Src) (off : BitVec 15) : Statement (.pref write a off) := fun _ _ => by
  show decodeWord (BitVec.ofNat 32 (encI 21 (b2n write) a.reg.code a.e off.toNat)) = _
  exact of_opcode (encI_lt (op := 21) (by decide) (b2n32 write) (src32 a) off.isLt) (encI_op (op := 21) (by decide)
    (b2n32 write) (src32 a) off.isLt) (rtPREF write a off)

theorem stb (a : Src) (b : Src) (off : BitVec 14) : Statement (.stb a b off) := fun _ _ => by
  show decodeWord (BitVec.ofNat 32 (encM 22 a.reg.code a.e b.reg.code b.e off.toNat)) = _
  exact of_opcode (encM_lt (op := 22) (by decide) (src32 a) (src32 b) off.isLt) (encM_op (op := 22) (by decide) (src32 a)
    (src32 b) off.isLt) (rtM a b off _ (by decide))

theorem sth (a : Src) (b : Src) (off : BitVec 14) : Statement (.sth a b off) := fun _ _ => by
  show decodeWord (BitVec.ofNat 32 (encM 23 a.reg.code a.e b.reg.code b.e off.toNat)) = _
  exact of_opcode (encM_lt (op := 23) (by decide) (src32 a) (src32 b) off.isLt) (encM_op (op := 23) (by decide) (src32 a)
    (src32 b) off.isLt) (rtM a b off _ (by decide))

theorem stw (a : Src) (b : Src) (off : BitVec 14) : Statement (.stw a b off) := fun _ _ => by
  show decodeWord (BitVec.ofNat 32 (encM 24 a.reg.code a.e b.reg.code b.e off.toNat)) = _
  exact of_opcode (encM_lt (op := 24) (by decide) (src32 a) (src32 b) off.isLt) (encM_op (op := 24) (by decide) (src32 a)
    (src32 b) off.isLt) (rtM a b off _ (by decide))

theorem rstw (a : Src) (b : Src) (off : BitVec 14) : Statement (.rstw a b off) := fun _ _ => by
  show decodeWord (BitVec.ofNat 32 (encM 25 a.reg.code a.e b.reg.code b.e off.toNat)) = _
  exact of_opcode (encM_lt (op := 25) (by decide) (src32 a) (src32 b) off.isLt) (encM_op (op := 25) (by decide) (src32 a)
    (src32 b) off.isLt) (rtM a b off _ (by decide))

theorem swp (d : Dst) (a : Src) (b : Src) (o : Order) (s : Scope) : Statement (.swp d a b o s) := fun _ _ => by
  have := Order.code_lt o
  have := Scope.code_lt s
  show decodeWord (BitVec.ofNat 32 (encR 26 d.code a.reg.code a.e b.reg.code b.e (o.toCode * 2 ^ 7 + s.toCode * 2 ^ 5 + 0))) = _
  exact of_op26 (encR_lt (op := 26) (fn := (o.toCode * 2 ^ 7 + s.toCode * 2 ^ 5 + 0)) (by decide) (dst_lt d) (src32 a) (src32 b)
    (by omega)) (encR_op (op := 26) (fn := (o.toCode * 2 ^ 7 + s.toCode * 2 ^ 5 + 0)) (by decide) (dst_lt d) (src32 a) (src32 b)
    (by omega)) (encR_k (op := 26) (k := 0) (by decide) (dst_lt d) (src32 a) (src32 b) (Order.code_lt o) (Scope.code_lt s)
    (by decide)) (rtAT 0 d a b o s _ (by decide) (by decide))

theorem aadd (d : Dst) (a : Src) (b : Src) (o : Order) (s : Scope) : Statement (.aadd d a b o s) := fun _ _ => by
  have := Order.code_lt o
  have := Scope.code_lt s
  show decodeWord (BitVec.ofNat 32 (encR 26 d.code a.reg.code a.e b.reg.code b.e (o.toCode * 2 ^ 7 + s.toCode * 2 ^ 5 + 1))) = _
  exact of_op26 (encR_lt (op := 26) (fn := (o.toCode * 2 ^ 7 + s.toCode * 2 ^ 5 + 1)) (by decide) (dst_lt d) (src32 a) (src32 b)
    (by omega)) (encR_op (op := 26) (fn := (o.toCode * 2 ^ 7 + s.toCode * 2 ^ 5 + 1)) (by decide) (dst_lt d) (src32 a) (src32 b)
    (by omega)) (encR_k (op := 26) (k := 1) (by decide) (dst_lt d) (src32 a) (src32 b) (Order.code_lt o) (Scope.code_lt s)
    (by decide)) (rtAT 1 d a b o s _ (by decide) (by decide))

theorem aand (d : Dst) (a : Src) (b : Src) (o : Order) (s : Scope) : Statement (.aand d a b o s) := fun _ _ => by
  have := Order.code_lt o
  have := Scope.code_lt s
  show decodeWord (BitVec.ofNat 32 (encR 26 d.code a.reg.code a.e b.reg.code b.e (o.toCode * 2 ^ 7 + s.toCode * 2 ^ 5 + 2))) = _
  exact of_op26 (encR_lt (op := 26) (fn := (o.toCode * 2 ^ 7 + s.toCode * 2 ^ 5 + 2)) (by decide) (dst_lt d) (src32 a) (src32 b)
    (by omega)) (encR_op (op := 26) (fn := (o.toCode * 2 ^ 7 + s.toCode * 2 ^ 5 + 2)) (by decide) (dst_lt d) (src32 a) (src32 b)
    (by omega)) (encR_k (op := 26) (k := 2) (by decide) (dst_lt d) (src32 a) (src32 b) (Order.code_lt o) (Scope.code_lt s)
    (by decide)) (rtAT 2 d a b o s _ (by decide) (by decide))

theorem aor (d : Dst) (a : Src) (b : Src) (o : Order) (s : Scope) : Statement (.aor d a b o s) := fun _ _ => by
  have := Order.code_lt o
  have := Scope.code_lt s
  show decodeWord (BitVec.ofNat 32 (encR 26 d.code a.reg.code a.e b.reg.code b.e (o.toCode * 2 ^ 7 + s.toCode * 2 ^ 5 + 3))) = _
  exact of_op26 (encR_lt (op := 26) (fn := (o.toCode * 2 ^ 7 + s.toCode * 2 ^ 5 + 3)) (by decide) (dst_lt d) (src32 a) (src32 b)
    (by omega)) (encR_op (op := 26) (fn := (o.toCode * 2 ^ 7 + s.toCode * 2 ^ 5 + 3)) (by decide) (dst_lt d) (src32 a) (src32 b)
    (by omega)) (encR_k (op := 26) (k := 3) (by decide) (dst_lt d) (src32 a) (src32 b) (Order.code_lt o) (Scope.code_lt s)
    (by decide)) (rtAT 3 d a b o s _ (by decide) (by decide))

theorem axor (d : Dst) (a : Src) (b : Src) (o : Order) (s : Scope) : Statement (.axor d a b o s) := fun _ _ => by
  have := Order.code_lt o
  have := Scope.code_lt s
  show decodeWord (BitVec.ofNat 32 (encR 26 d.code a.reg.code a.e b.reg.code b.e (o.toCode * 2 ^ 7 + s.toCode * 2 ^ 5 + 4))) = _
  exact of_op26 (encR_lt (op := 26) (fn := (o.toCode * 2 ^ 7 + s.toCode * 2 ^ 5 + 4)) (by decide) (dst_lt d) (src32 a) (src32 b)
    (by omega)) (encR_op (op := 26) (fn := (o.toCode * 2 ^ 7 + s.toCode * 2 ^ 5 + 4)) (by decide) (dst_lt d) (src32 a) (src32 b)
    (by omega)) (encR_k (op := 26) (k := 4) (by decide) (dst_lt d) (src32 a) (src32 b) (Order.code_lt o) (Scope.code_lt s)
    (by decide)) (rtAT 4 d a b o s _ (by decide) (by decide))

theorem amin (d : Dst) (a : Src) (b : Src) (o : Order) (s : Scope) : Statement (.amin d a b o s) := fun _ _ => by
  have := Order.code_lt o
  have := Scope.code_lt s
  show decodeWord (BitVec.ofNat 32 (encR 26 d.code a.reg.code a.e b.reg.code b.e (o.toCode * 2 ^ 7 + s.toCode * 2 ^ 5 + 5))) = _
  exact of_op26 (encR_lt (op := 26) (fn := (o.toCode * 2 ^ 7 + s.toCode * 2 ^ 5 + 5)) (by decide) (dst_lt d) (src32 a) (src32 b)
    (by omega)) (encR_op (op := 26) (fn := (o.toCode * 2 ^ 7 + s.toCode * 2 ^ 5 + 5)) (by decide) (dst_lt d) (src32 a) (src32 b)
    (by omega)) (encR_k (op := 26) (k := 5) (by decide) (dst_lt d) (src32 a) (src32 b) (Order.code_lt o) (Scope.code_lt s)
    (by decide)) (rtAT 5 d a b o s _ (by decide) (by decide))

theorem amax (d : Dst) (a : Src) (b : Src) (o : Order) (s : Scope) : Statement (.amax d a b o s) := fun _ _ => by
  have := Order.code_lt o
  have := Scope.code_lt s
  show decodeWord (BitVec.ofNat 32 (encR 26 d.code a.reg.code a.e b.reg.code b.e (o.toCode * 2 ^ 7 + s.toCode * 2 ^ 5 + 6))) = _
  exact of_op26 (encR_lt (op := 26) (fn := (o.toCode * 2 ^ 7 + s.toCode * 2 ^ 5 + 6)) (by decide) (dst_lt d) (src32 a) (src32 b)
    (by omega)) (encR_op (op := 26) (fn := (o.toCode * 2 ^ 7 + s.toCode * 2 ^ 5 + 6)) (by decide) (dst_lt d) (src32 a) (src32 b)
    (by omega)) (encR_k (op := 26) (k := 6) (by decide) (dst_lt d) (src32 a) (src32 b) (Order.code_lt o) (Scope.code_lt s)
    (by decide)) (rtAT 6 d a b o s _ (by decide) (by decide))

theorem aminn (d : Dst) (a : Src) (b : Src) (o : Order) (s : Scope) : Statement (.aminn d a b o s) := fun _ _ => by
  have := Order.code_lt o
  have := Scope.code_lt s
  show decodeWord (BitVec.ofNat 32 (encR 26 d.code a.reg.code a.e b.reg.code b.e (o.toCode * 2 ^ 7 + s.toCode * 2 ^ 5 + 7))) = _
  exact of_op26 (encR_lt (op := 26) (fn := (o.toCode * 2 ^ 7 + s.toCode * 2 ^ 5 + 7)) (by decide) (dst_lt d) (src32 a) (src32 b)
    (by omega)) (encR_op (op := 26) (fn := (o.toCode * 2 ^ 7 + s.toCode * 2 ^ 5 + 7)) (by decide) (dst_lt d) (src32 a) (src32 b)
    (by omega)) (encR_k (op := 26) (k := 7) (by decide) (dst_lt d) (src32 a) (src32 b) (Order.code_lt o) (Scope.code_lt s)
    (by decide)) (rtAT 7 d a b o s _ (by decide) (by decide))

theorem amaxn (d : Dst) (a : Src) (b : Src) (o : Order) (s : Scope) : Statement (.amaxn d a b o s) := fun _ _ => by
  have := Order.code_lt o
  have := Scope.code_lt s
  show decodeWord (BitVec.ofNat 32 (encR 26 d.code a.reg.code a.e b.reg.code b.e (o.toCode * 2 ^ 7 + s.toCode * 2 ^ 5 + 8))) = _
  exact of_op26 (encR_lt (op := 26) (fn := (o.toCode * 2 ^ 7 + s.toCode * 2 ^ 5 + 8)) (by decide) (dst_lt d) (src32 a) (src32 b)
    (by omega)) (encR_op (op := 26) (fn := (o.toCode * 2 ^ 7 + s.toCode * 2 ^ 5 + 8)) (by decide) (dst_lt d) (src32 a) (src32 b)
    (by omega)) (encR_k (op := 26) (k := 8) (by decide) (dst_lt d) (src32 a) (src32 b) (Order.code_lt o) (Scope.code_lt s)
    (by decide)) (rtAT 8 d a b o s _ (by decide) (by decide))

theorem cas (d : XReg) (a : Src) (b : Src) (so : Order) (fo : AcqOrder) (s : Scope) : Statement (.cas d a b so fo s) := fun _ _ => by
  have := Order.code_lt so
  have := AcqOrder.code_lt fo
  have := Scope.code_lt s
  show decodeWord (BitVec.ofNat 32 (encR 27 d.val a.reg.code a.e b.reg.code b.e (so.toCode * 2 ^ 7 + s.toCode * 2 ^ 5 + fo.toCode * 2 ^ 3))) = _
  exact of_opcode (encR_lt (op := 27) (fn := (so.toCode * 2 ^ 7 + s.toCode * 2 ^ 5 + fo.toCode * 2 ^ 3)) (by decide) (x32 d)
    (src32 a) (src32 b) (by omega)) (encR_op (op := 27) (fn := (so.toCode * 2 ^ 7 + s.toCode * 2 ^ 5 + fo.toCode * 2 ^ 3))
    (by decide) (x32 d) (src32 a) (src32 b) (by omega)) (rtCAS d a b so fo s)

theorem beq (a : Src) (b : Src) (off : BitVec 14) : Statement (.beq a b off) := fun _ _ => by
  show decodeWord (BitVec.ofNat 32 (encM 32 a.reg.code a.e b.reg.code b.e off.toNat)) = _
  exact of_opcode (encM_lt (op := 32) (by decide) (src32 a) (src32 b) off.isLt) (encM_op (op := 32) (by decide) (src32 a)
    (src32 b) off.isLt) (rtM a b off _ (by decide))

theorem bne (a : Src) (b : Src) (off : BitVec 14) : Statement (.bne a b off) := fun _ _ => by
  show decodeWord (BitVec.ofNat 32 (encM 33 a.reg.code a.e b.reg.code b.e off.toNat)) = _
  exact of_opcode (encM_lt (op := 33) (by decide) (src32 a) (src32 b) off.isLt) (encM_op (op := 33) (by decide) (src32 a)
    (src32 b) off.isLt) (rtM a b off _ (by decide))

theorem blt (a : Src) (b : Src) (off : BitVec 14) : Statement (.blt a b off) := fun _ _ => by
  show decodeWord (BitVec.ofNat 32 (encM 34 a.reg.code a.e b.reg.code b.e off.toNat)) = _
  exact of_opcode (encM_lt (op := 34) (by decide) (src32 a) (src32 b) off.isLt) (encM_op (op := 34) (by decide) (src32 a)
    (src32 b) off.isLt) (rtM a b off _ (by decide))

theorem bge (a : Src) (b : Src) (off : BitVec 14) : Statement (.bge a b off) := fun _ _ => by
  show decodeWord (BitVec.ofNat 32 (encM 35 a.reg.code a.e b.reg.code b.e off.toNat)) = _
  exact of_opcode (encM_lt (op := 35) (by decide) (src32 a) (src32 b) off.isLt) (encM_op (op := 35) (by decide) (src32 a)
    (src32 b) off.isLt) (rtM a b off _ (by decide))

theorem bltn (a : Src) (b : Src) (off : BitVec 14) : Statement (.bltn a b off) := fun _ _ => by
  show decodeWord (BitVec.ofNat 32 (encM 36 a.reg.code a.e b.reg.code b.e off.toNat)) = _
  exact of_opcode (encM_lt (op := 36) (by decide) (src32 a) (src32 b) off.isLt) (encM_op (op := 36) (by decide) (src32 a)
    (src32 b) off.isLt) (rtM a b off _ (by decide))

theorem bgen (a : Src) (b : Src) (off : BitVec 14) : Statement (.bgen a b off) := fun _ _ => by
  show decodeWord (BitVec.ofNat 32 (encM 37 a.reg.code a.e b.reg.code b.e off.toNat)) = _
  exact of_opcode (encM_lt (op := 37) (by decide) (src32 a) (src32 b) off.isLt) (encM_op (op := 37) (by decide) (src32 a)
    (src32 b) off.isLt) (rtM a b off _ (by decide))

theorem jal (d : Dst) (imm : BitVec 21) : Statement (.jal d imm) := fun _ _ => by
  show decodeWord (BitVec.ofNat 32 (encJ 38 d.code imm.toNat)) = _
  exact of_opcode (encJ_lt (op := 38) (by decide) (dst_lt d) imm.isLt) (encJ_op (op := 38) (by decide) (dst_lt d) imm.isLt)
    (rtJ d imm _ (by decide))

theorem jalr (d : Dst) (a : Src) (off : BitVec 15) : Statement (.jalr d a off) := fun _ _ => by
  show decodeWord (BitVec.ofNat 32 (encI 39 d.code a.reg.code a.e off.toNat)) = _
  exact of_opcode (encI_lt (op := 39) (by decide) (dst_lt d) (src32 a) off.isLt) (encI_op (op := 39) (by decide) (dst_lt d)
    (src32 a) off.isLt) (rtI d a off _ (by decide))

theorem loop (count : Src) (level : Bool) (len : BitVec 18) : Statement (.loop count level len) := fun _ hw => by
  simp only [Instr.wellFormed, bne_iff_ne, ne_eq] at hw
  show decodeWord (BitVec.ofNat 32 (encL count.reg.code count.e level len.toNat)) = _
  exact of_opcode (encL_lt (src32 count) len.isLt) (encL_op (src32 count) len.isLt) (rtLOOP count level len hw)

theorem bes (eng : Engine) (flag : Flag) (off : BitVec 14) : Statement (.bes eng flag off) := fun _ _ => by
  show decodeWord (BitVec.ofNat 32 (encE eng.toCode flag.toCode 0 off.toNat)) = _
  exact of_opcode (encE_lt (sn := 0) (Engine.code_lt eng) (Flag.code_lt flag) (by decide) off.isLt) (encE_op (sn := 0)
    (Engine.code_lt eng) (Flag.code_lt flag) (by decide) off.isLt) (rtBES eng flag off)

theorem bec (eng : Engine) (flag : Flag) (off : BitVec 14) : Statement (.bec eng flag off) := fun _ _ => by
  show decodeWord (BitVec.ofNat 32 (encE eng.toCode flag.toCode 1 off.toNat)) = _
  exact of_opcode (encE_lt (sn := 1) (Engine.code_lt eng) (Flag.code_lt flag) (by decide) off.isLt) (encE_op (sn := 1)
    (Engine.code_lt eng) (Flag.code_lt flag) (by decide) off.isLt) (rtBEC eng flag off)

theorem align : Statement .align := fun _ _ => rfl
theorem phase (o : PhaseOrder) (s : Scope) : Statement (.phase o s) := fun _ _ => by
  have := PhaseOrder.code_lt o
  have := Scope.code_lt s
  show decodeWord (BitVec.ofNat 32 (encC 44 0 0 false false (o.toCode * 2 ^ 3 + s.toCode * 2) 0)) = _
  exact of_op44 (encC_lt (op := 44) (a := 0) (b := 0) (sel := (o.toCode * 2 ^ 3 + s.toCode * 2)) (fn := 0) (by decide)
    (by decide) (by decide) (by omega) (by decide)) (encC_op (op := 44) (a := 0) (b := 0)
    (sel := (o.toCode * 2 ^ 3 + s.toCode * 2)) (fn := 0) (by decide) (by decide) (by decide) (by omega) (by decide))
    (encC_fn (op := 44) (a := 0) (b := 0) (sel := (o.toCode * 2 ^ 3 + s.toCode * 2)) (fn := 0) (by decide) (by decide)
    (by decide) (by omega) (by decide)) (rtPHASE o s (by decide) (by decide))

theorem waitc (c : Counter) (a : Src) : Statement (.waitc c a) := fun _ _ => by
  have := Counter.code_lt c
  show decodeWord (BitVec.ofNat 32 (encC 44 a.reg.code 0 a.e false (c.toCode * 2) 1)) = _
  exact of_op44 (encC_lt (op := 44) (b := 0) (sel := (c.toCode * 2)) (fn := 1) (by decide) (src32 a) (by decide) (by omega)
    (by decide)) (encC_op (op := 44) (b := 0) (sel := (c.toCode * 2)) (fn := 1) (by decide) (src32 a) (by decide) (by omega)
    (by decide)) (encC_fn (op := 44) (b := 0) (sel := (c.toCode * 2)) (fn := 1) (by decide) (src32 a) (by decide) (by omega)
    (by decide)) (rtWAITC c a (by decide) (by decide))

theorem arrive (o : RelOrder) (s : Scope) (a : Src) : Statement (.arrive o s a) := fun _ _ => by
  have := RelOrder.code_lt o
  have := Scope.code_lt s
  show decodeWord (BitVec.ofNat 32 (encC 44 a.reg.code 0 a.e false (o.toCode * 2 ^ 3 + s.toCode * 2) 2)) = _
  exact of_op44 (encC_lt (op := 44) (b := 0) (sel := (o.toCode * 2 ^ 3 + s.toCode * 2)) (fn := 2) (by decide) (src32 a)
    (by decide) (by omega) (by decide)) (encC_op (op := 44) (b := 0) (sel := (o.toCode * 2 ^ 3 + s.toCode * 2)) (fn := 2)
    (by decide) (src32 a) (by decide) (by omega) (by decide)) (encC_fn (op := 44) (b := 0)
    (sel := (o.toCode * 2 ^ 3 + s.toCode * 2)) (fn := 2) (by decide) (src32 a) (by decide) (by omega) (by decide))
    (rtARRIVE o s a (by decide) (by decide))

theorem await (o : AcqOrder) (s : Scope) (a : Src) (b : Src) : Statement (.await o s a b) := fun _ _ => by
  have := AcqOrder.code_lt o
  have := Scope.code_lt s
  show decodeWord (BitVec.ofNat 32 (encC 44 a.reg.code b.reg.code a.e b.e (o.toCode * 2 ^ 3 + s.toCode * 2) 3)) = _
  exact of_op44 (encC_lt (op := 44) (sel := (o.toCode * 2 ^ 3 + s.toCode * 2)) (fn := 3) (by decide) (src32 a) (src32 b)
    (by omega) (by decide)) (encC_op (op := 44) (sel := (o.toCode * 2 ^ 3 + s.toCode * 2)) (fn := 3) (by decide) (src32 a)
    (src32 b) (by omega) (by decide)) (encC_fn (op := 44) (sel := (o.toCode * 2 ^ 3 + s.toCode * 2)) (fn := 3) (by decide)
    (src32 a) (src32 b) (by omega) (by decide)) (rtAWAIT o s a b (by decide) (by decide))

theorem sstep (a : Src) : Statement (.sstep a) := fun _ _ => by
  show decodeWord (BitVec.ofNat 32 (encC 44 a.reg.code 0 a.e false 0 4)) = _
  exact of_op44 (encC_lt (op := 44) (b := 0) (sel := 0) (fn := 4) (by decide) (src32 a) (by decide) (by decide) (by decide))
    (encC_op (op := 44) (b := 0) (sel := 0) (fn := 4) (by decide) (src32 a) (by decide) (by decide) (by decide))
    (encC_fn (op := 44) (b := 0) (sel := 0) (fn := 4) (by decide) (src32 a) (by decide) (by decide) (by decide))
    (rtCA a _ (by decide) (by decide))

theorem efence  : Statement .efence := fun _ _ => by
  show decodeWord (BitVec.ofNat 32 (encC 44 0 0 false false 0 5)) = _
  exact of_op44 (encC_lt (op := 44) (a := 0) (b := 0) (sel := 0) (fn := 5) (by decide) (by decide) (by decide) (by decide)
    (by decide)) (encC_op (op := 44) (a := 0) (b := 0) (sel := 0) (fn := 5) (by decide) (by decide) (by decide) (by decide)
    (by decide)) (encC_fn (op := 44) (a := 0) (b := 0) (sel := 0) (fn := 5) (by decide) (by decide) (by decide) (by decide)
    (by decide)) (rtC0 _ (by decide) (by decide))

theorem icsync (a : Src) (b : Src) : Statement (.icsync a b) := fun _ _ => by
  show decodeWord (BitVec.ofNat 32 (encC 44 a.reg.code b.reg.code a.e b.e 0 6)) = _
  exact of_op44 (encC_lt (op := 44) (sel := 0) (fn := 6) (by decide) (src32 a) (src32 b) (by decide) (by decide))
    (encC_op (op := 44) (sel := 0) (fn := 6) (by decide) (src32 a) (src32 b) (by decide) (by decide)) (encC_fn (op := 44)
    (sel := 0) (fn := 6) (by decide) (src32 a) (src32 b) (by decide) (by decide)) (rtCAB a b _ (by decide) (by decide))

theorem send (a : Src) (b : XReg) (eb : Bool) (n : BitVec 5) : Statement (.send a b eb n) := fun _ hw => by
  simp only [Instr.wellFormed, Bool.and_eq_true, decide_eq_true_eq] at hw
  show decodeWord (BitVec.ofNat 32 (encC 44 a.reg.code b.val a.e eb n.toNat 7)) = _
  exact of_op44 (encC_lt (op := 44) (fn := 7) (by decide) (src32 a) (x32 b) n.isLt (by decide)) (encC_op (op := 44) (fn := 7)
    (by decide) (src32 a) (x32 b) n.isLt (by decide)) (encC_fn (op := 44) (fn := 7) (by decide) (src32 a) (x32 b)
    n.isLt (by decide)) (rtSEND a b eb n (by decide) (by decide) ⟨hw.1.1, hw.1.2, hw.2⟩)

theorem sendb (a : Src) (b : XReg) (eb : Bool) : Statement (.sendb a b eb) := fun _ hw => by
  simp only [Instr.wellFormed, XReg.between, Bool.and_eq_true, decide_eq_true_eq] at hw
  show decodeWord (BitVec.ofNat 32 (encC 44 a.reg.code b.val a.e eb 0 8)) = _
  exact of_op44 (encC_lt (op := 44) (sel := 0) (fn := 8) (by decide) (src32 a) (x32 b) (by decide) (by decide))
    (encC_op (op := 44) (sel := 0) (fn := 8) (by decide) (src32 a) (x32 b) (by decide) (by decide)) (encC_fn (op := 44)
    (sel := 0) (fn := 8) (by decide) (src32 a) (x32 b) (by decide) (by decide)) (rtCAX a b eb _ (by decide) (by decide) hw)

theorem recv (d : XReg) (a : Src) : Statement (.recv d a) := fun _ _ => by
  show decodeWord (BitVec.ofNat 32 (encC 44 a.reg.code 0 a.e false d.val 9)) = _
  exact of_op44 (encC_lt (op := 44) (b := 0) (fn := 9) (by decide) (src32 a) (by decide) (x32 d) (by decide))
    (encC_op (op := 44) (b := 0) (fn := 9) (by decide) (src32 a) (by decide) (x32 d) (by decide)) (encC_fn (op := 44) (b := 0)
    (fn := 9) (by decide) (src32 a) (by decide) (x32 d) (by decide)) (rtCDXA d a _ (by decide) (by decide))

theorem recvb (d : XReg) (a : Src) (b : Src) : Statement (.recvb d a b) := fun _ _ => by
  show decodeWord (BitVec.ofNat 32 (encC 44 a.reg.code b.reg.code a.e b.e d.val 10)) = _
  exact of_op44 (encC_lt (op := 44) (fn := 10) (by decide) (src32 a) (src32 b) (x32 d) (by decide)) (encC_op (op := 44)
    (fn := 10) (by decide) (src32 a) (src32 b) (x32 d) (by decide)) (encC_fn (op := 44) (fn := 10) (by decide) (src32 a)
    (src32 b) (x32 d) (by decide)) (rtCDXAB d a b _ (by decide) (by decide))

theorem migr (a : Src) : Statement (.migr a) := fun _ _ => by
  show decodeWord (BitVec.ofNat 32 (encC 44 a.reg.code 0 a.e false 0 11)) = _
  exact of_op44 (encC_lt (op := 44) (b := 0) (sel := 0) (fn := 11) (by decide) (src32 a) (by decide) (by decide) (by decide))
    (encC_op (op := 44) (b := 0) (sel := 0) (fn := 11) (by decide) (src32 a) (by decide) (by decide) (by decide))
    (encC_fn (op := 44) (b := 0) (sel := 0) (fn := 11) (by decide) (src32 a) (by decide) (by decide) (by decide))
    (rtCA a _ (by decide) (by decide))

theorem launch (d : Dst) (a : Src) : Statement (.launch d a) := fun _ _ => by
  show decodeWord (BitVec.ofNat 32 (encC 44 a.reg.code 0 a.e false d.code 12)) = _
  exact of_op44 (encC_lt (op := 44) (b := 0) (fn := 12) (by decide) (src32 a) (by decide) (dst_lt d) (by decide))
    (encC_op (op := 44) (b := 0) (fn := 12) (by decide) (src32 a) (by decide) (dst_lt d) (by decide)) (encC_fn (op := 44)
    (b := 0) (fn := 12) (by decide) (src32 a) (by decide) (dst_lt d) (by decide)) (rtCDA d a _ (by decide) (by decide))

theorem take (d : Dst) : Statement (.take d) := fun _ _ => by
  show decodeWord (BitVec.ofNat 32 (encC 44 0 0 false false d.code 13)) = _
  exact of_op44 (encC_lt (op := 44) (a := 0) (b := 0) (fn := 13) (by decide) (by decide) (by decide) (dst_lt d) (by decide))
    (encC_op (op := 44) (a := 0) (b := 0) (fn := 13) (by decide) (by decide) (by decide) (dst_lt d) (by decide))
    (encC_fn (op := 44) (a := 0) (b := 0) (fn := 13) (by decide) (by decide) (by decide) (dst_lt d) (by decide))
    (rtCD d _ (by decide) (by decide))

theorem pass (a : Src) (b : XReg) (eb : Bool) : Statement (.pass a b eb) := fun _ hw => by
  simp only [Instr.wellFormed, XReg.between, Bool.and_eq_true, decide_eq_true_eq] at hw
  show decodeWord (BitVec.ofNat 32 (encC 44 a.reg.code b.val a.e eb 0 14)) = _
  exact of_op44 (encC_lt (op := 44) (sel := 0) (fn := 14) (by decide) (src32 a) (x32 b) (by decide) (by decide))
    (encC_op (op := 44) (sel := 0) (fn := 14) (by decide) (src32 a) (x32 b) (by decide) (by decide)) (encC_fn (op := 44)
    (sel := 0) (fn := 14) (by decide) (src32 a) (x32 b) (by decide) (by decide)) (rtCAX a b eb _ (by decide) (by decide) hw)

theorem tdone  : Statement .tdone := fun _ _ => by
  show decodeWord (BitVec.ofNat 32 (encC 44 0 0 false false 0 15)) = _
  exact of_op44 (encC_lt (op := 44) (a := 0) (b := 0) (sel := 0) (fn := 15) (by decide) (by decide) (by decide) (by decide)
    (by decide)) (encC_op (op := 44) (a := 0) (b := 0) (sel := 0) (fn := 15) (by decide) (by decide) (by decide) (by decide)
    (by decide)) (encC_fn (op := 44) (a := 0) (b := 0) (sel := 0) (fn := 15) (by decide) (by decide) (by decide) (by decide)
    (by decide)) (rtC0 _ (by decide) (by decide))

theorem mark (a : Src) : Statement (.mark a) := fun _ _ => by
  show decodeWord (BitVec.ofNat 32 (encC 44 a.reg.code 0 a.e false 0 16)) = _
  exact of_op44 (encC_lt (op := 44) (b := 0) (sel := 0) (fn := 16) (by decide) (src32 a) (by decide) (by decide) (by decide))
    (encC_op (op := 44) (b := 0) (sel := 0) (fn := 16) (by decide) (src32 a) (by decide) (by decide) (by decide))
    (encC_fn (op := 44) (b := 0) (sel := 0) (fn := 16) (by decide) (src32 a) (by decide) (by decide) (by decide))
    (rtCA a _ (by decide) (by decide))

theorem trap (a : Src) : Statement (.trap a) := fun _ _ => by
  show decodeWord (BitVec.ofNat 32 (encC 46 a.reg.code 0 a.e false 0 0)) = _
  exact of_op46 (encC_lt (op := 46) (b := 0) (sel := 0) (fn := 0) (by decide) (src32 a) (by decide) (by decide) (by decide))
    (encC_op (op := 46) (b := 0) (sel := 0) (fn := 0) (by decide) (src32 a) (by decide) (by decide) (by decide))
    (encC_fn (op := 46) (b := 0) (sel := 0) (fn := 0) (by decide) (src32 a) (by decide) (by decide) (by decide))
    (rtCA a _ (by decide) (by decide))

theorem eret  : Statement .eret := fun _ _ => by
  show decodeWord (BitVec.ofNat 32 (encC 46 0 0 false false 0 1)) = _
  exact of_op46 (encC_lt (op := 46) (a := 0) (b := 0) (sel := 0) (fn := 1) (by decide) (by decide) (by decide) (by decide)
    (by decide)) (encC_op (op := 46) (a := 0) (b := 0) (sel := 0) (fn := 1) (by decide) (by decide) (by decide) (by decide)
    (by decide)) (encC_fn (op := 46) (a := 0) (b := 0) (sel := 0) (fn := 1) (by decide) (by decide) (by decide) (by decide)
    (by decide)) (rtC0 _ (by decide) (by decide))

theorem upret  : Statement .upret := fun _ _ => by
  show decodeWord (BitVec.ofNat 32 (encC 46 0 0 false false 0 2)) = _
  exact of_op46 (encC_lt (op := 46) (a := 0) (b := 0) (sel := 0) (fn := 2) (by decide) (by decide) (by decide) (by decide)
    (by decide)) (encC_op (op := 46) (a := 0) (b := 0) (sel := 0) (fn := 2) (by decide) (by decide) (by decide) (by decide)
    (by decide)) (encC_fn (op := 46) (a := 0) (b := 0) (sel := 0) (fn := 2) (by decide) (by decide) (by decide) (by decide)
    (by decide)) (rtC0 _ (by decide) (by decide))

theorem resume (a : Src) : Statement (.resume a) := fun _ _ => by
  show decodeWord (BitVec.ofNat 32 (encC 46 a.reg.code 0 a.e false 0 3)) = _
  exact of_op46 (encC_lt (op := 46) (b := 0) (sel := 0) (fn := 3) (by decide) (src32 a) (by decide) (by decide) (by decide))
    (encC_op (op := 46) (b := 0) (sel := 0) (fn := 3) (by decide) (src32 a) (by decide) (by decide) (by decide))
    (encC_fn (op := 46) (b := 0) (sel := 0) (fn := 3) (by decide) (src32 a) (by decide) (by decide) (by decide))
    (rtCA a _ (by decide) (by decide))

theorem yield (a : Src) : Statement (.yield a) := fun _ _ => by
  show decodeWord (BitVec.ofNat 32 (encC 46 a.reg.code 0 a.e false 0 4)) = _
  exact of_op46 (encC_lt (op := 46) (b := 0) (sel := 0) (fn := 4) (by decide) (src32 a) (by decide) (by decide) (by decide))
    (encC_op (op := 46) (b := 0) (sel := 0) (fn := 4) (by decide) (src32 a) (by decide) (by decide) (by decide))
    (encC_fn (op := 46) (b := 0) (sel := 0) (fn := 4) (by decide) (src32 a) (by decide) (by decide) (by decide))
    (rtCA a _ (by decide) (by decide))

theorem halt  : Statement .halt := fun _ _ => by
  show decodeWord (BitVec.ofNat 32 (encC 46 0 0 false false 0 5)) = _
  exact of_op46 (encC_lt (op := 46) (a := 0) (b := 0) (sel := 0) (fn := 5) (by decide) (by decide) (by decide) (by decide)
    (by decide)) (encC_op (op := 46) (a := 0) (b := 0) (sel := 0) (fn := 5) (by decide) (by decide) (by decide) (by decide)
    (by decide)) (encC_fn (op := 46) (a := 0) (b := 0) (sel := 0) (fn := 5) (by decide) (by decide) (by decide) (by decide)
    (by decide)) (rtC0 _ (by decide) (by decide))

theorem brk  : Statement .brk := fun _ _ => by
  show decodeWord (BitVec.ofNat 32 (encC 46 0 0 false false 0 6)) = _
  exact of_op46 (encC_lt (op := 46) (a := 0) (b := 0) (sel := 0) (fn := 6) (by decide) (by decide) (by decide) (by decide)
    (by decide)) (encC_op (op := 46) (a := 0) (b := 0) (sel := 0) (fn := 6) (by decide) (by decide) (by decide) (by decide)
    (by decide)) (encC_fn (op := 46) (a := 0) (b := 0) (sel := 0) (fn := 6) (by decide) (by decide) (by decide) (by decide)
    (by decide)) (rtC0 _ (by decide) (by decide))

theorem tmark (a : Src) (b : Src) : Statement (.tmark a b) := fun _ _ => by
  show decodeWord (BitVec.ofNat 32 (encC 46 a.reg.code b.reg.code a.e b.e 0 7)) = _
  exact of_op46 (encC_lt (op := 46) (sel := 0) (fn := 7) (by decide) (src32 a) (src32 b) (by decide) (by decide))
    (encC_op (op := 46) (sel := 0) (fn := 7) (by decide) (src32 a) (src32 b) (by decide) (by decide)) (encC_fn (op := 46)
    (sel := 0) (fn := 7) (by decide) (src32 a) (src32 b) (by decide) (by decide)) (rtCAB a b _ (by decide) (by decide))

theorem csrr (d : Dst) (csr : BitVec 12) : Statement (.csrr d csr) := fun _ _ => by
  have := csr.isLt
  have e : encode (.csrr d csr) = BitVec.ofNat 32 (encI 47 d.code 0 false (0 * 2 ^ 12 + csr.toNat)) := by
    rw [Nat.zero_mul, Nat.zero_add]; rfl
  rw [e]
  exact of_op47 (encI_lt (op := 47) (a := 0) (fn := (0 * 2 ^ 12 + csr.toNat)) (by decide) (dst_lt d) (by decide) (by omega))
    (encI_op (op := 47) (a := 0) (fn := (0 * 2 ^ 12 + csr.toNat)) (by decide) (dst_lt d) (by decide) (by omega))
    (encI_ck (op := 47) (a := 0) (k := 0) (by decide) (dst_lt d) (by decide) (by decide) csr.isLt) (rtCSRR d csr (by decide))

theorem csrw (d : Dst) (a : Src) (csr : BitVec 12) : Statement (.csrw d a csr) := fun _ _ => by
  have := csr.isLt
  show decodeWord (BitVec.ofNat 32 (encI 47 d.code a.reg.code a.e (1 * 2 ^ 12 + csr.toNat))) = _
  exact of_op47 (encI_lt (op := 47) (fn := (1 * 2 ^ 12 + csr.toNat)) (by decide) (dst_lt d) (src32 a) (by omega))
    (encI_op (op := 47) (fn := (1 * 2 ^ 12 + csr.toNat)) (by decide) (dst_lt d) (src32 a) (by omega)) (encI_ck (op := 47)
    (k := 1) (by decide) (dst_lt d) (src32 a) (by decide) csr.isLt) (rtCSR 1 d a csr _ (by decide) (by decide))

theorem csrs (d : Dst) (a : Src) (csr : BitVec 12) : Statement (.csrs d a csr) := fun _ _ => by
  have := csr.isLt
  show decodeWord (BitVec.ofNat 32 (encI 47 d.code a.reg.code a.e (2 * 2 ^ 12 + csr.toNat))) = _
  exact of_op47 (encI_lt (op := 47) (fn := (2 * 2 ^ 12 + csr.toNat)) (by decide) (dst_lt d) (src32 a) (by omega))
    (encI_op (op := 47) (fn := (2 * 2 ^ 12 + csr.toNat)) (by decide) (dst_lt d) (src32 a) (by omega)) (encI_ck (op := 47)
    (k := 2) (by decide) (dst_lt d) (src32 a) (by decide) csr.isLt) (rtCSR 2 d a csr _ (by decide) (by decide))

theorem csrc (d : Dst) (a : Src) (csr : BitVec 12) : Statement (.csrc d a csr) := fun _ _ => by
  have := csr.isLt
  show decodeWord (BitVec.ofNat 32 (encI 47 d.code a.reg.code a.e (3 * 2 ^ 12 + csr.toNat))) = _
  exact of_op47 (encI_lt (op := 47) (fn := (3 * 2 ^ 12 + csr.toNat)) (by decide) (dst_lt d) (src32 a) (by omega))
    (encI_op (op := 47) (fn := (3 * 2 ^ 12 + csr.toNat)) (by decide) (dst_lt d) (src32 a) (by omega)) (encI_ck (op := 47)
    (k := 3) (by decide) (dst_lt d) (src32 a) (by decide) csr.isLt) (rtCSR 3 d a csr _ (by decide) (by decide))

theorem fadd (d : Dst) (a : Src) (b : Src) (rm : Rnd) : Statement (.fadd d a b rm) := fun _ _ => by
  have := Rnd.code_lt rm
  show decodeWord (BitVec.ofNat 32 (encR 48 d.code a.reg.code a.e b.reg.code b.e (rm.toCode * 2 ^ 7 + 0))) = _
  exact of_op48 (encR_lt (op := 48) (fn := (rm.toCode * 2 ^ 7 + 0)) (by decide) (dst_lt d) (src32 a) (src32 b) (by omega))
    (encR_op (op := 48) (fn := (rm.toCode * 2 ^ 7 + 0)) (by decide) (dst_lt d) (src32 a) (src32 b) (by omega))
    (encR_rk (op := 48) (k := 0) (by decide) (dst_lt d) (src32 a) (src32 b) (Rnd.code_lt rm) (by decide))
    (rtF3 0 d a b rm _ (by decide) (by decide))

theorem fsub (d : Dst) (a : Src) (b : Src) (rm : Rnd) : Statement (.fsub d a b rm) := fun _ _ => by
  have := Rnd.code_lt rm
  show decodeWord (BitVec.ofNat 32 (encR 48 d.code a.reg.code a.e b.reg.code b.e (rm.toCode * 2 ^ 7 + 1))) = _
  exact of_op48 (encR_lt (op := 48) (fn := (rm.toCode * 2 ^ 7 + 1)) (by decide) (dst_lt d) (src32 a) (src32 b) (by omega))
    (encR_op (op := 48) (fn := (rm.toCode * 2 ^ 7 + 1)) (by decide) (dst_lt d) (src32 a) (src32 b) (by omega))
    (encR_rk (op := 48) (k := 1) (by decide) (dst_lt d) (src32 a) (src32 b) (Rnd.code_lt rm) (by decide))
    (rtF3 1 d a b rm _ (by decide) (by decide))

theorem fmul (d : Dst) (a : Src) (b : Src) (rm : Rnd) : Statement (.fmul d a b rm) := fun _ _ => by
  have := Rnd.code_lt rm
  show decodeWord (BitVec.ofNat 32 (encR 48 d.code a.reg.code a.e b.reg.code b.e (rm.toCode * 2 ^ 7 + 2))) = _
  exact of_op48 (encR_lt (op := 48) (fn := (rm.toCode * 2 ^ 7 + 2)) (by decide) (dst_lt d) (src32 a) (src32 b) (by omega))
    (encR_op (op := 48) (fn := (rm.toCode * 2 ^ 7 + 2)) (by decide) (dst_lt d) (src32 a) (src32 b) (by omega))
    (encR_rk (op := 48) (k := 2) (by decide) (dst_lt d) (src32 a) (src32 b) (Rnd.code_lt rm) (by decide))
    (rtF3 2 d a b rm _ (by decide) (by decide))

theorem ffma (d : XReg) (a : Src) (b : Src) (rm : Rnd) : Statement (.ffma d a b rm) := fun _ _ => by
  have := Rnd.code_lt rm
  show decodeWord (BitVec.ofNat 32 (encR 48 d.val a.reg.code a.e b.reg.code b.e (rm.toCode * 2 ^ 7 + 3))) = _
  exact of_op48 (encR_lt (op := 48) (fn := (rm.toCode * 2 ^ 7 + 3)) (by decide) (x32 d) (src32 a) (src32 b) (by omega))
    (encR_op (op := 48) (fn := (rm.toCode * 2 ^ 7 + 3)) (by decide) (x32 d) (src32 a) (src32 b) (by omega)) (encR_rk (op := 48)
    (k := 3) (by decide) (x32 d) (src32 a) (src32 b) (Rnd.code_lt rm) (by decide)) (rtF3X 3 d a b rm _ (by decide) (by decide))

theorem fmin (d : Dst) (a : Src) (b : Src) : Statement (.fmin d a b) := fun _ _ => by
  show decodeWord (BitVec.ofNat 32 (encR 48 d.code a.reg.code a.e b.reg.code b.e 4)) = _
  exact of_op48 (encR_lt (op := 48) (fn := 4) (by decide) (dst_lt d) (src32 a) (src32 b) (by decide)) (encR_op (op := 48)
    (fn := 4) (by decide) (dst_lt d) (src32 a) (src32 b) (by decide)) (encR_fk (fn := 4) (dst_lt d) (src32 a) (src32 b)
    (by decide)) ((zero_bind (encR_fz (fn := 4) (dst_lt d) (src32 a) (src32 b) (by decide))).trans (rtR3 d a b _ (by decide)
    (by decide)))

theorem fmax (d : Dst) (a : Src) (b : Src) : Statement (.fmax d a b) := fun _ _ => by
  show decodeWord (BitVec.ofNat 32 (encR 48 d.code a.reg.code a.e b.reg.code b.e 5)) = _
  exact of_op48 (encR_lt (op := 48) (fn := 5) (by decide) (dst_lt d) (src32 a) (src32 b) (by decide)) (encR_op (op := 48)
    (fn := 5) (by decide) (dst_lt d) (src32 a) (src32 b) (by decide)) (encR_fk (fn := 5) (dst_lt d) (src32 a) (src32 b)
    (by decide)) ((zero_bind (encR_fz (fn := 5) (dst_lt d) (src32 a) (src32 b) (by decide))).trans (rtR3 d a b _ (by decide)
    (by decide)))

theorem feq (d : Dst) (a : Src) (b : Src) : Statement (.feq d a b) := fun _ _ => by
  show decodeWord (BitVec.ofNat 32 (encR 48 d.code a.reg.code a.e b.reg.code b.e 6)) = _
  exact of_op48 (encR_lt (op := 48) (fn := 6) (by decide) (dst_lt d) (src32 a) (src32 b) (by decide)) (encR_op (op := 48)
    (fn := 6) (by decide) (dst_lt d) (src32 a) (src32 b) (by decide)) (encR_fk (fn := 6) (dst_lt d) (src32 a) (src32 b)
    (by decide)) ((zero_bind (encR_fz (fn := 6) (dst_lt d) (src32 a) (src32 b) (by decide))).trans (rtR3 d a b _ (by decide)
    (by decide)))

theorem flt (d : Dst) (a : Src) (b : Src) : Statement (.flt d a b) := fun _ _ => by
  show decodeWord (BitVec.ofNat 32 (encR 48 d.code a.reg.code a.e b.reg.code b.e 7)) = _
  exact of_op48 (encR_lt (op := 48) (fn := 7) (by decide) (dst_lt d) (src32 a) (src32 b) (by decide)) (encR_op (op := 48)
    (fn := 7) (by decide) (dst_lt d) (src32 a) (src32 b) (by decide)) (encR_fk (fn := 7) (dst_lt d) (src32 a) (src32 b)
    (by decide)) ((zero_bind (encR_fz (fn := 7) (dst_lt d) (src32 a) (src32 b) (by decide))).trans (rtR3 d a b _ (by decide)
    (by decide)))

theorem fle (d : Dst) (a : Src) (b : Src) : Statement (.fle d a b) := fun _ _ => by
  show decodeWord (BitVec.ofNat 32 (encR 48 d.code a.reg.code a.e b.reg.code b.e 8)) = _
  exact of_op48 (encR_lt (op := 48) (fn := 8) (by decide) (dst_lt d) (src32 a) (src32 b) (by decide)) (encR_op (op := 48)
    (fn := 8) (by decide) (dst_lt d) (src32 a) (src32 b) (by decide)) (encR_fk (fn := 8) (dst_lt d) (src32 a) (src32 b)
    (by decide)) ((zero_bind (encR_fz (fn := 8) (dst_lt d) (src32 a) (src32 b) (by decide))).trans (rtR3 d a b _ (by decide)
    (by decide)))

theorem fcvtw (d : Dst) (a : Src) (rm : Rnd) : Statement (.fcvtw d a rm) := fun _ _ => by
  have := Rnd.code_lt rm
  show decodeWord (BitVec.ofNat 32 (encR 48 d.code a.reg.code a.e 0 false (rm.toCode * 2 ^ 7 + 9))) = _
  exact of_op48 (encR_lt (op := 48) (b := 0) (fn := (rm.toCode * 2 ^ 7 + 9)) (by decide) (dst_lt d) (src32 a) (by decide)
    (by omega)) (encR_op (op := 48) (b := 0) (fn := (rm.toCode * 2 ^ 7 + 9)) (by decide) (dst_lt d) (src32 a) (by decide)
    (by omega)) (encR_rk (op := 48) (b := 0) (k := 9) (by decide) (dst_lt d) (src32 a) (by decide) (Rnd.code_lt rm) (by decide))
    (rtF2 9 d a rm _ (by decide) (by decide))

theorem fcvtf (d : Dst) (a : Src) : Statement (.fcvtf d a) := fun _ _ => by
  show decodeWord (BitVec.ofNat 32 (encR 48 d.code a.reg.code a.e 0 false 10)) = _
  exact of_op48 (encR_lt (op := 48) (b := 0) (fn := 10) (by decide) (dst_lt d) (src32 a) (by decide) (by decide))
    (encR_op (op := 48) (b := 0) (fn := 10) (by decide) (dst_lt d) (src32 a) (by decide) (by decide)) (encR_fk (b := 0)
    (fn := 10) (dst_lt d) (src32 a) (by decide) (by decide)) ((zero_bind (encR_fz (b := 0) (fn := 10) (dst_lt d) (src32 a)
    (by decide) (by decide))).trans (rtR2 d a _ (by decide) (by decide)))

theorem fcvtfn (d : Dst) (a : Src) (rm : Rnd) : Statement (.fcvtfn d a rm) := fun _ _ => by
  have := Rnd.code_lt rm
  show decodeWord (BitVec.ofNat 32 (encR 48 d.code a.reg.code a.e 0 false (rm.toCode * 2 ^ 7 + 11))) = _
  exact of_op48 (encR_lt (op := 48) (b := 0) (fn := (rm.toCode * 2 ^ 7 + 11)) (by decide) (dst_lt d) (src32 a) (by decide)
    (by omega)) (encR_op (op := 48) (b := 0) (fn := (rm.toCode * 2 ^ 7 + 11)) (by decide) (dst_lt d) (src32 a) (by decide)
    (by omega)) (encR_rk (op := 48) (b := 0) (k := 11) (by decide) (dst_lt d) (src32 a) (by decide) (Rnd.code_lt rm)
    (by decide)) (rtF2 11 d a rm _ (by decide) (by decide))

theorem vadd (d : VReg) (a : VReg) (b : VReg) (xs : XReg) : Statement (.vadd d a b xs) := fun _ hw => by
  show decodeWord (BitVec.ofNat 32 (encV 52 d.val a.val b.val 0 xs.val 0)) = _
  exact of_op52 (encV_lt (op := 52) (c := 0) (fn := 0) (by decide) d.isLt a.isLt b.isLt (by decide) (x32 xs) (by decide))
    (encV_op (op := 52) (c := 0) (fn := 0) (by decide) d.isLt a.isLt b.isLt (by decide) (x32 xs) (by decide))
    (encV_fn (op := 52) (c := 0) (fn := 0) (by decide) d.isLt a.isLt b.isLt (by decide) (x32 xs) (by decide))
    (rtVB d a b xs _ (by decide) (by decide) hw)

theorem vsub (d : VReg) (a : VReg) (b : VReg) (xs : XReg) : Statement (.vsub d a b xs) := fun _ hw => by
  show decodeWord (BitVec.ofNat 32 (encV 52 d.val a.val b.val 0 xs.val 1)) = _
  exact of_op52 (encV_lt (op := 52) (c := 0) (fn := 1) (by decide) d.isLt a.isLt b.isLt (by decide) (x32 xs) (by decide))
    (encV_op (op := 52) (c := 0) (fn := 1) (by decide) d.isLt a.isLt b.isLt (by decide) (x32 xs) (by decide))
    (encV_fn (op := 52) (c := 0) (fn := 1) (by decide) d.isLt a.isLt b.isLt (by decide) (x32 xs) (by decide))
    (rtVB d a b xs _ (by decide) (by decide) hw)

theorem vmul (d : VReg) (a : VReg) (b : VReg) (xs : XReg) : Statement (.vmul d a b xs) := fun _ hw => by
  show decodeWord (BitVec.ofNat 32 (encV 52 d.val a.val b.val 0 xs.val 2)) = _
  exact of_op52 (encV_lt (op := 52) (c := 0) (fn := 2) (by decide) d.isLt a.isLt b.isLt (by decide) (x32 xs) (by decide))
    (encV_op (op := 52) (c := 0) (fn := 2) (by decide) d.isLt a.isLt b.isLt (by decide) (x32 xs) (by decide))
    (encV_fn (op := 52) (c := 0) (fn := 2) (by decide) d.isLt a.isLt b.isLt (by decide) (x32 xs) (by decide))
    (rtVB d a b xs _ (by decide) (by decide) hw)

theorem vfma (d : VReg) (a : VReg) (b : VReg) (c : VReg) (xs : XReg) : Statement (.vfma d a b c xs) := fun _ hw => by
  show decodeWord (BitVec.ofNat 32 (encV 52 d.val a.val b.val c.val xs.val 3)) = _
  exact of_op52 (encV_lt (op := 52) (fn := 3) (by decide) d.isLt a.isLt b.isLt c.isLt (x32 xs) (by decide)) (encV_op (op := 52)
    (fn := 3) (by decide) d.isLt a.isLt b.isLt c.isLt (x32 xs) (by decide)) (encV_fn (op := 52) (fn := 3) (by decide)
    d.isLt a.isLt b.isLt c.isLt (x32 xs) (by decide)) (rtVBC d a b c xs _ (by decide) (by decide) hw)

theorem vmin (d : VReg) (a : VReg) (b : VReg) (xs : XReg) : Statement (.vmin d a b xs) := fun _ hw => by
  show decodeWord (BitVec.ofNat 32 (encV 52 d.val a.val b.val 0 xs.val 4)) = _
  exact of_op52 (encV_lt (op := 52) (c := 0) (fn := 4) (by decide) d.isLt a.isLt b.isLt (by decide) (x32 xs) (by decide))
    (encV_op (op := 52) (c := 0) (fn := 4) (by decide) d.isLt a.isLt b.isLt (by decide) (x32 xs) (by decide))
    (encV_fn (op := 52) (c := 0) (fn := 4) (by decide) d.isLt a.isLt b.isLt (by decide) (x32 xs) (by decide))
    (rtVB d a b xs _ (by decide) (by decide) hw)

theorem vmax (d : VReg) (a : VReg) (b : VReg) (xs : XReg) : Statement (.vmax d a b xs) := fun _ hw => by
  show decodeWord (BitVec.ofNat 32 (encV 52 d.val a.val b.val 0 xs.val 5)) = _
  exact of_op52 (encV_lt (op := 52) (c := 0) (fn := 5) (by decide) d.isLt a.isLt b.isLt (by decide) (x32 xs) (by decide))
    (encV_op (op := 52) (c := 0) (fn := 5) (by decide) d.isLt a.isLt b.isLt (by decide) (x32 xs) (by decide))
    (encV_fn (op := 52) (c := 0) (fn := 5) (by decide) d.isLt a.isLt b.isLt (by decide) (x32 xs) (by decide))
    (rtVB d a b xs _ (by decide) (by decide) hw)

theorem vabs (d : VReg) (a : VReg) : Statement (.vabs d a) := fun _ _ => by
  show decodeWord (BitVec.ofNat 32 (encV 52 d.val a.val 0 0 0 6)) = _
  exact of_op52 (encV_lt (op := 52) (b := 0) (c := 0) (xs := 0) (fn := 6) (by decide) d.isLt a.isLt (by decide) (by decide)
    (by decide) (by decide)) (encV_op (op := 52) (b := 0) (c := 0) (xs := 0) (fn := 6) (by decide) d.isLt a.isLt (by decide)
    (by decide) (by decide) (by decide)) (encV_fn (op := 52) (b := 0) (c := 0) (xs := 0) (fn := 6) (by decide)
    d.isLt a.isLt (by decide) (by decide) (by decide) (by decide)) (rtV2 d a _ (by decide) (by decide))

theorem vneg (d : VReg) (a : VReg) : Statement (.vneg d a) := fun _ _ => by
  show decodeWord (BitVec.ofNat 32 (encV 52 d.val a.val 0 0 0 7)) = _
  exact of_op52 (encV_lt (op := 52) (b := 0) (c := 0) (xs := 0) (fn := 7) (by decide) d.isLt a.isLt (by decide) (by decide)
    (by decide) (by decide)) (encV_op (op := 52) (b := 0) (c := 0) (xs := 0) (fn := 7) (by decide) d.isLt a.isLt (by decide)
    (by decide) (by decide) (by decide)) (encV_fn (op := 52) (b := 0) (c := 0) (xs := 0) (fn := 7) (by decide)
    d.isLt a.isLt (by decide) (by decide) (by decide) (by decide)) (rtV2 d a _ (by decide) (by decide))

theorem vcmp (c : VCond) (d : VReg) (a : VReg) (b : VReg) (xs : XReg) : Statement (.vcmp c d a b xs) := fun _ hw => by
  show decodeWord (BitVec.ofNat 32 (encV 52 d.val a.val b.val c.toCode xs.val 8)) = _
  exact of_op52 (encV_lt (op := 52) (fn := 8) (by decide) d.isLt a.isLt b.isLt (VCond.code_lt c) (x32 xs) (by decide))
    (encV_op (op := 52) (fn := 8) (by decide) d.isLt a.isLt b.isLt (VCond.code_lt c) (x32 xs) (by decide)) (encV_fn (op := 52)
    (fn := 8) (by decide) d.isLt a.isLt b.isLt (VCond.code_lt c) (x32 xs) (by decide)) (rtVCMP c d a b xs (by decide)
    (by decide) hw)

theorem vsel (d : VReg) (a : VReg) (b : VReg) (c : VReg) : Statement (.vsel d a b c) := fun _ _ => by
  show decodeWord (BitVec.ofNat 32 (encV 52 d.val a.val b.val c.val 0 9)) = _
  exact of_op52 (encV_lt (op := 52) (xs := 0) (fn := 9) (by decide) d.isLt a.isLt b.isLt c.isLt (by decide) (by decide))
    (encV_op (op := 52) (xs := 0) (fn := 9) (by decide) d.isLt a.isLt b.isLt c.isLt (by decide) (by decide)) (encV_fn (op := 52)
    (xs := 0) (fn := 9) (by decide) d.isLt a.isLt b.isLt c.isLt (by decide) (by decide)) (rtVSEL d a b c (by decide)
    (by decide))

theorem vand (d : VReg) (a : VReg) (b : VReg) (xs : XReg) : Statement (.vand d a b xs) := fun _ hw => by
  show decodeWord (BitVec.ofNat 32 (encV 52 d.val a.val b.val 0 xs.val 10)) = _
  exact of_op52 (encV_lt (op := 52) (c := 0) (fn := 10) (by decide) d.isLt a.isLt b.isLt (by decide) (x32 xs) (by decide))
    (encV_op (op := 52) (c := 0) (fn := 10) (by decide) d.isLt a.isLt b.isLt (by decide) (x32 xs) (by decide))
    (encV_fn (op := 52) (c := 0) (fn := 10) (by decide) d.isLt a.isLt b.isLt (by decide) (x32 xs) (by decide))
    (rtVB d a b xs _ (by decide) (by decide) hw)

theorem vor (d : VReg) (a : VReg) (b : VReg) (xs : XReg) : Statement (.vor d a b xs) := fun _ hw => by
  show decodeWord (BitVec.ofNat 32 (encV 52 d.val a.val b.val 0 xs.val 11)) = _
  exact of_op52 (encV_lt (op := 52) (c := 0) (fn := 11) (by decide) d.isLt a.isLt b.isLt (by decide) (x32 xs) (by decide))
    (encV_op (op := 52) (c := 0) (fn := 11) (by decide) d.isLt a.isLt b.isLt (by decide) (x32 xs) (by decide))
    (encV_fn (op := 52) (c := 0) (fn := 11) (by decide) d.isLt a.isLt b.isLt (by decide) (x32 xs) (by decide))
    (rtVB d a b xs _ (by decide) (by decide) hw)

theorem vxor (d : VReg) (a : VReg) (b : VReg) (xs : XReg) : Statement (.vxor d a b xs) := fun _ hw => by
  show decodeWord (BitVec.ofNat 32 (encV 52 d.val a.val b.val 0 xs.val 12)) = _
  exact of_op52 (encV_lt (op := 52) (c := 0) (fn := 12) (by decide) d.isLt a.isLt b.isLt (by decide) (x32 xs) (by decide))
    (encV_op (op := 52) (c := 0) (fn := 12) (by decide) d.isLt a.isLt b.isLt (by decide) (x32 xs) (by decide))
    (encV_fn (op := 52) (c := 0) (fn := 12) (by decide) d.isLt a.isLt b.isLt (by decide) (x32 xs) (by decide))
    (rtVB d a b xs _ (by decide) (by decide) hw)

theorem vshl (d : VReg) (a : VReg) (b : VReg) (xs : XReg) : Statement (.vshl d a b xs) := fun _ hw => by
  show decodeWord (BitVec.ofNat 32 (encV 52 d.val a.val b.val 0 xs.val 13)) = _
  exact of_op52 (encV_lt (op := 52) (c := 0) (fn := 13) (by decide) d.isLt a.isLt b.isLt (by decide) (x32 xs) (by decide))
    (encV_op (op := 52) (c := 0) (fn := 13) (by decide) d.isLt a.isLt b.isLt (by decide) (x32 xs) (by decide))
    (encV_fn (op := 52) (c := 0) (fn := 13) (by decide) d.isLt a.isLt b.isLt (by decide) (x32 xs) (by decide))
    (rtVB d a b xs _ (by decide) (by decide) hw)

theorem vshr (d : VReg) (a : VReg) (b : VReg) (xs : XReg) : Statement (.vshr d a b xs) := fun _ hw => by
  show decodeWord (BitVec.ofNat 32 (encV 52 d.val a.val b.val 0 xs.val 14)) = _
  exact of_op52 (encV_lt (op := 52) (c := 0) (fn := 14) (by decide) d.isLt a.isLt b.isLt (by decide) (x32 xs) (by decide))
    (encV_op (op := 52) (c := 0) (fn := 14) (by decide) d.isLt a.isLt b.isLt (by decide) (x32 xs) (by decide))
    (encV_fn (op := 52) (c := 0) (fn := 14) (by decide) d.isLt a.isLt b.isLt (by decide) (x32 xs) (by decide))
    (rtVSHR d a b xs (by decide) (by decide) hw)

theorem vshrA (d : VReg) (a : VReg) (b : VReg) (xs : XReg) : Statement (.vshrA d a b xs) := fun _ hw => by
  show decodeWord (BitVec.ofNat 32 (encV 52 d.val a.val b.val 1 xs.val 14)) = _
  exact of_op52 (encV_lt (op := 52) (c := 1) (fn := 14) (by decide) d.isLt a.isLt b.isLt (by decide) (x32 xs) (by decide))
    (encV_op (op := 52) (c := 1) (fn := 14) (by decide) d.isLt a.isLt b.isLt (by decide) (x32 xs) (by decide))
    (encV_fn (op := 52) (c := 1) (fn := 14) (by decide) d.isLt a.isLt b.isLt (by decide) (x32 xs) (by decide))
    (rtVSHRA d a b xs (by decide) (by decide) hw)

theorem viadd (d : VReg) (a : VReg) (b : VReg) (xs : XReg) : Statement (.viadd d a b xs) := fun _ hw => by
  show decodeWord (BitVec.ofNat 32 (encV 52 d.val a.val b.val 0 xs.val 15)) = _
  exact of_op52 (encV_lt (op := 52) (c := 0) (fn := 15) (by decide) d.isLt a.isLt b.isLt (by decide) (x32 xs) (by decide))
    (encV_op (op := 52) (c := 0) (fn := 15) (by decide) d.isLt a.isLt b.isLt (by decide) (x32 xs) (by decide))
    (encV_fn (op := 52) (c := 0) (fn := 15) (by decide) d.isLt a.isLt b.isLt (by decide) (x32 xs) (by decide))
    (rtVB d a b xs _ (by decide) (by decide) hw)

theorem vimul (d : VReg) (a : VReg) (b : VReg) (xs : XReg) : Statement (.vimul d a b xs) := fun _ hw => by
  show decodeWord (BitVec.ofNat 32 (encV 52 d.val a.val b.val 0 xs.val 16)) = _
  exact of_op52 (encV_lt (op := 52) (c := 0) (fn := 16) (by decide) d.isLt a.isLt b.isLt (by decide) (x32 xs) (by decide))
    (encV_op (op := 52) (c := 0) (fn := 16) (by decide) d.isLt a.isLt b.isLt (by decide) (x32 xs) (by decide))
    (encV_fn (op := 52) (c := 0) (fn := 16) (by decide) d.isLt a.isLt b.isLt (by decide) (x32 xs) (by decide))
    (rtVB d a b xs _ (by decide) (by decide) hw)

theorem vcvt (k : VCvt) (d : VReg) (a : VReg) : Statement (.vcvt k d a) := fun _ _ => by
  show decodeWord (BitVec.ofNat 32 (encV 52 d.val a.val 0 k.toCode 0 17)) = _
  exact of_op52 (encV_lt (op := 52) (b := 0) (xs := 0) (fn := 17) (by decide) d.isLt a.isLt (by decide) (VCvt.code_lt k)
    (by decide) (by decide)) (encV_op (op := 52) (b := 0) (xs := 0) (fn := 17) (by decide) d.isLt a.isLt (by decide)
    (VCvt.code_lt k) (by decide) (by decide)) (encV_fn (op := 52) (b := 0) (xs := 0) (fn := 17) (by decide)
    d.isLt a.isLt (by decide) (VCvt.code_lt k) (by decide) (by decide)) (rtVCVT k d a (by decide) (by decide))

theorem vrcp (d : VReg) (a : VReg) : Statement (.vrcp d a) := fun _ _ => by
  show decodeWord (BitVec.ofNat 32 (encV 52 d.val a.val 0 0 0 18)) = _
  exact of_op52 (encV_lt (op := 52) (b := 0) (c := 0) (xs := 0) (fn := 18) (by decide) d.isLt a.isLt (by decide) (by decide)
    (by decide) (by decide)) (encV_op (op := 52) (b := 0) (c := 0) (xs := 0) (fn := 18) (by decide) d.isLt a.isLt (by decide)
    (by decide) (by decide) (by decide)) (encV_fn (op := 52) (b := 0) (c := 0) (xs := 0) (fn := 18) (by decide)
    d.isLt a.isLt (by decide) (by decide) (by decide) (by decide)) (rtV2 d a _ (by decide) (by decide))

theorem vrsq (d : VReg) (a : VReg) : Statement (.vrsq d a) := fun _ _ => by
  show decodeWord (BitVec.ofNat 32 (encV 52 d.val a.val 0 0 0 19)) = _
  exact of_op52 (encV_lt (op := 52) (b := 0) (c := 0) (xs := 0) (fn := 19) (by decide) d.isLt a.isLt (by decide) (by decide)
    (by decide) (by decide)) (encV_op (op := 52) (b := 0) (c := 0) (xs := 0) (fn := 19) (by decide) d.isLt a.isLt (by decide)
    (by decide) (by decide) (by decide)) (encV_fn (op := 52) (b := 0) (c := 0) (xs := 0) (fn := 19) (by decide)
    d.isLt a.isLt (by decide) (by decide) (by decide) (by decide)) (rtV2 d a _ (by decide) (by decide))

theorem vexp2 (d : VReg) (a : VReg) : Statement (.vexp2 d a) := fun _ _ => by
  show decodeWord (BitVec.ofNat 32 (encV 52 d.val a.val 0 0 0 20)) = _
  exact of_op52 (encV_lt (op := 52) (b := 0) (c := 0) (xs := 0) (fn := 20) (by decide) d.isLt a.isLt (by decide) (by decide)
    (by decide) (by decide)) (encV_op (op := 52) (b := 0) (c := 0) (xs := 0) (fn := 20) (by decide) d.isLt a.isLt (by decide)
    (by decide) (by decide) (by decide)) (encV_fn (op := 52) (b := 0) (c := 0) (xs := 0) (fn := 20) (by decide)
    d.isLt a.isLt (by decide) (by decide) (by decide) (by decide)) (rtV2 d a _ (by decide) (by decide))

theorem vlog2 (d : VReg) (a : VReg) : Statement (.vlog2 d a) := fun _ _ => by
  show decodeWord (BitVec.ofNat 32 (encV 52 d.val a.val 0 0 0 21)) = _
  exact of_op52 (encV_lt (op := 52) (b := 0) (c := 0) (xs := 0) (fn := 21) (by decide) d.isLt a.isLt (by decide) (by decide)
    (by decide) (by decide)) (encV_op (op := 52) (b := 0) (c := 0) (xs := 0) (fn := 21) (by decide) d.isLt a.isLt (by decide)
    (by decide) (by decide) (by decide)) (encV_fn (op := 52) (b := 0) (c := 0) (xs := 0) (fn := 21) (by decide)
    d.isLt a.isLt (by decide) (by decide) (by decide) (by decide)) (rtV2 d a _ (by decide) (by decide))

theorem vtanh (d : VReg) (a : VReg) : Statement (.vtanh d a) := fun _ _ => by
  show decodeWord (BitVec.ofNat 32 (encV 52 d.val a.val 0 0 0 22)) = _
  exact of_op52 (encV_lt (op := 52) (b := 0) (c := 0) (xs := 0) (fn := 22) (by decide) d.isLt a.isLt (by decide) (by decide)
    (by decide) (by decide)) (encV_op (op := 52) (b := 0) (c := 0) (xs := 0) (fn := 22) (by decide) d.isLt a.isLt (by decide)
    (by decide) (by decide) (by decide)) (encV_fn (op := 52) (b := 0) (c := 0) (xs := 0) (fn := 22) (by decide)
    d.isLt a.isLt (by decide) (by decide) (by decide) (by decide)) (rtV2 d a _ (by decide) (by decide))

theorem vred (r : VRedOp) (a : VReg) : Statement (.vred r a) := fun _ _ => by
  show decodeWord (BitVec.ofNat 32 (encV 52 0 a.val 0 r.toCode 0 23)) = _
  exact of_op52 (encV_lt (op := 52) (d := 0) (b := 0) (xs := 0) (fn := 23) (by decide) (by decide) a.isLt (by decide)
    (VRedOp.code_lt r) (by decide) (by decide)) (encV_op (op := 52) (d := 0) (b := 0) (xs := 0) (fn := 23) (by decide)
    (by decide) a.isLt (by decide) (VRedOp.code_lt r) (by decide) (by decide)) (encV_fn (op := 52) (d := 0) (b := 0) (xs := 0)
    (fn := 23) (by decide) (by decide) a.isLt (by decide) (VRedOp.code_lt r) (by decide) (by decide)) (rtVRED r a (by decide)
    (by decide))

theorem vmovCopy (d : VReg) (a : VReg) : Statement (.vmovCopy d a) := fun _ _ => by
  show decodeWord (BitVec.ofNat 32 (encV 52 d.val a.val 0 0 0 24)) = _
  exact of_op52 (encV_lt (op := 52) (b := 0) (c := 0) (xs := 0) (fn := 24) (by decide) d.isLt a.isLt (by decide) (by decide)
    (by decide) (by decide)) (encV_op (op := 52) (b := 0) (c := 0) (xs := 0) (fn := 24) (by decide) d.isLt a.isLt (by decide)
    (by decide) (by decide) (by decide)) (encV_fn (op := 52) (b := 0) (c := 0) (xs := 0) (fn := 24) (by decide)
    d.isLt a.isLt (by decide) (by decide) (by decide) (by decide)) (rtVMOVc d a (by decide) (by decide))

theorem vmovBroadcast (d : VReg) (xs : XReg) : Statement (.vmovBroadcast d xs) := fun _ hw => by
  simp only [Instr.wellFormed, bne_iff_ne, ne_eq] at hw
  show decodeWord (BitVec.ofNat 32 (encV 52 d.val 0 0 0 xs.val 24)) = _
  exact of_op52 (encV_lt (op := 52) (a := 0) (b := 0) (c := 0) (fn := 24) (by decide) d.isLt (by decide) (by decide) (by decide)
    (x32 xs) (by decide)) (encV_op (op := 52) (a := 0) (b := 0) (c := 0) (fn := 24) (by decide) d.isLt (by decide) (by decide)
    (by decide) (x32 xs) (by decide)) (encV_fn (op := 52) (a := 0) (b := 0) (c := 0) (fn := 24) (by decide) d.isLt (by decide)
    (by decide) (by decide) (x32 xs) (by decide)) (rtVMOVb d xs (by decide) (by decide) hw)

theorem vmovIdx (d : VReg) : Statement (.vmovIdx d) := fun _ _ => by
  show decodeWord (BitVec.ofNat 32 (encV 52 d.val 0 0 1 0 24)) = _
  exact of_op52 (encV_lt (op := 52) (a := 0) (b := 0) (c := 1) (xs := 0) (fn := 24) (by decide) d.isLt (by decide) (by decide)
    (by decide) (by decide) (by decide)) (encV_op (op := 52) (a := 0) (b := 0) (c := 1) (xs := 0) (fn := 24) (by decide)
    d.isLt (by decide) (by decide) (by decide) (by decide) (by decide)) (encV_fn (op := 52) (a := 0) (b := 0) (c := 1) (xs := 0)
    (fn := 24) (by decide) d.isLt (by decide) (by decide) (by decide) (by decide) (by decide)) (rtVMOVi d (by decide)
    (by decide))

theorem vmovGet (a : VReg) (xs : XReg) : Statement (.vmovGet a xs) := fun _ _ => by
  show decodeWord (BitVec.ofNat 32 (encV 52 0 a.val 0 2 xs.val 24)) = _
  exact of_op52 (encV_lt (op := 52) (d := 0) (b := 0) (c := 2) (fn := 24) (by decide) (by decide) a.isLt (by decide) (by decide)
    (x32 xs) (by decide)) (encV_op (op := 52) (d := 0) (b := 0) (c := 2) (fn := 24) (by decide) (by decide) a.isLt (by decide)
    (by decide) (x32 xs) (by decide)) (encV_fn (op := 52) (d := 0) (b := 0) (c := 2) (fn := 24) (by decide) (by decide)
    a.isLt (by decide) (by decide) (x32 xs) (by decide)) (rtVMOVg a xs (by decide) (by decide))

theorem vqnt (f : SEFmt) (d : VReg) (a : VReg) : Statement (.vqnt f d a) := fun _ _ => by
  show decodeWord (BitVec.ofNat 32 (encV 52 d.val a.val 0 f.toCode 0 25)) = _
  exact of_op52 (encV_lt (op := 52) (b := 0) (xs := 0) (fn := 25) (by decide) d.isLt a.isLt (by decide) (SEFmt.code_lt f)
    (by decide) (by decide)) (encV_op (op := 52) (b := 0) (xs := 0) (fn := 25) (by decide) d.isLt a.isLt (by decide)
    (SEFmt.code_lt f) (by decide) (by decide)) (encV_fn (op := 52) (b := 0) (xs := 0) (fn := 25) (by decide)
    d.isLt a.isLt (by decide) (SEFmt.code_lt f) (by decide) (by decide)) (rtVQNT f d a _ (by decide) (by decide))

theorem vdq (f : SEFmt) (d : VReg) (a : VReg) : Statement (.vdq f d a) := fun _ _ => by
  show decodeWord (BitVec.ofNat 32 (encV 52 d.val a.val 0 f.toCode 0 26)) = _
  exact of_op52 (encV_lt (op := 52) (b := 0) (xs := 0) (fn := 26) (by decide) d.isLt a.isLt (by decide) (SEFmt.code_lt f)
    (by decide) (by decide)) (encV_op (op := 52) (b := 0) (xs := 0) (fn := 26) (by decide) d.isLt a.isLt (by decide)
    (SEFmt.code_lt f) (by decide) (by decide)) (encV_fn (op := 52) (b := 0) (xs := 0) (fn := 26) (by decide)
    d.isLt a.isLt (by decide) (SEFmt.code_lt f) (by decide) (by decide)) (rtVQNT f d a _ (by decide) (by decide))

theorem vld (f : VForm) (d : VReg) (xs : XReg) : Statement (.vld f d xs) := fun _ _ => by
  show decodeWord (BitVec.ofNat 32 (encV 53 d.val 0 0 f.toCode xs.val 0)) = _
  exact of_op53 (encV_lt (op := 53) (a := 0) (b := 0) (fn := 0) (by decide) d.isLt (by decide) (by decide) (VForm.code_lt f)
    (x32 xs) (by decide)) (encV_op (op := 53) (a := 0) (b := 0) (fn := 0) (by decide) d.isLt (by decide) (by decide)
    (VForm.code_lt f) (x32 xs) (by decide)) (encV_fn (op := 53) (a := 0) (b := 0) (fn := 0) (by decide) d.isLt (by decide)
    (by decide) (VForm.code_lt f) (x32 xs) (by decide)) (rtVLD f d xs (by decide) (by decide))

theorem vst (f : VForm) (a : VReg) (xs : XReg) : Statement (.vst f a xs) := fun _ _ => by
  show decodeWord (BitVec.ofNat 32 (encV 53 0 a.val 0 f.toCode xs.val 1)) = _
  exact of_op53 (encV_lt (op := 53) (d := 0) (b := 0) (fn := 1) (by decide) (by decide) a.isLt (by decide) (VForm.code_lt f)
    (x32 xs) (by decide)) (encV_op (op := 53) (d := 0) (b := 0) (fn := 1) (by decide) (by decide) a.isLt (by decide)
    (VForm.code_lt f) (x32 xs) (by decide)) (encV_fn (op := 53) (d := 0) (b := 0) (fn := 1) (by decide) (by decide)
    a.isLt (by decide) (VForm.code_lt f) (x32 xs) (by decide)) (rtVST f a xs (by decide) (by decide))

theorem vgth (f : VForm3) (d : VReg) (a : VReg) (xs : XReg) : Statement (.vgth f d a xs) := fun _ _ => by
  show decodeWord (BitVec.ofNat 32 (encV 53 d.val a.val 0 f.toCode xs.val 2)) = _
  exact of_op53 (encV_lt (op := 53) (b := 0) (fn := 2) (by decide) d.isLt a.isLt (by decide) (VForm3.code_lt f) (x32 xs)
    (by decide)) (encV_op (op := 53) (b := 0) (fn := 2) (by decide) d.isLt a.isLt (by decide) (VForm3.code_lt f) (x32 xs)
    (by decide)) (encV_fn (op := 53) (b := 0) (fn := 2) (by decide) d.isLt a.isLt (by decide) (VForm3.code_lt f) (x32 xs)
    (by decide)) (rtVGTH f d a xs (by decide) (by decide))

theorem vsct (f : VForm3) (a : VReg) (b : VReg) (xs : XReg) : Statement (.vsct f a b xs) := fun _ _ => by
  show decodeWord (BitVec.ofNat 32 (encV 53 0 a.val b.val f.toCode xs.val 3)) = _
  exact of_op53 (encV_lt (op := 53) (d := 0) (fn := 3) (by decide) (by decide) a.isLt b.isLt (VForm3.code_lt f) (x32 xs)
    (by decide)) (encV_op (op := 53) (d := 0) (fn := 3) (by decide) (by decide) a.isLt b.isLt (VForm3.code_lt f) (x32 xs)
    (by decide)) (encV_fn (op := 53) (d := 0) (fn := 3) (by decide) (by decide) a.isLt b.isLt (VForm3.code_lt f) (x32 xs)
    (by decide)) (rtVSCT f a b xs (by decide) (by decide))

theorem vredput (a : VReg) (xs : XReg) : Statement (.vredput a xs) := fun _ _ => by
  show decodeWord (BitVec.ofNat 32 (encV 53 0 a.val 0 0 xs.val 4)) = _
  exact of_op53 (encV_lt (op := 53) (d := 0) (b := 0) (c := 0) (fn := 4) (by decide) (by decide) a.isLt (by decide) (by decide)
    (x32 xs) (by decide)) (encV_op (op := 53) (d := 0) (b := 0) (c := 0) (fn := 4) (by decide) (by decide) a.isLt (by decide)
    (by decide) (x32 xs) (by decide)) (encV_fn (op := 53) (d := 0) (b := 0) (c := 0) (fn := 4) (by decide) (by decide)
    a.isLt (by decide) (by decide) (x32 xs) (by decide)) (rtVREDPUT a xs (by decide) (by decide))

theorem vredget (d : VReg) (xs : XReg) : Statement (.vredget d xs) := fun _ _ => by
  show decodeWord (BitVec.ofNat 32 (encV 53 d.val 0 0 0 xs.val 5)) = _
  exact of_op53 (encV_lt (op := 53) (a := 0) (b := 0) (c := 0) (fn := 5) (by decide) d.isLt (by decide) (by decide) (by decide)
    (x32 xs) (by decide)) (encV_op (op := 53) (a := 0) (b := 0) (c := 0) (fn := 5) (by decide) d.isLt (by decide) (by decide)
    (by decide) (x32 xs) (by decide)) (encV_fn (op := 53) (a := 0) (b := 0) (c := 0) (fn := 5) (by decide) d.isLt (by decide)
    (by decide) (by decide) (x32 xs) (by decide)) (rtVREDGET d xs (by decide) (by decide))

theorem vclaim (d : Dst) (a : Src) : Statement (.vclaim d a) := fun _ _ => by
  show decodeWord (BitVec.ofNat 32 (encC 54 a.reg.code 0 a.e false d.code 0)) = _
  exact of_op54 (encC_lt (op := 54) (b := 0) (fn := 0) (by decide) (src32 a) (by decide) (dst_lt d) (by decide))
    (encC_op (op := 54) (b := 0) (fn := 0) (by decide) (src32 a) (by decide) (dst_lt d) (by decide)) (encC_fn (op := 54)
    (b := 0) (fn := 0) (by decide) (src32 a) (by decide) (dst_lt d) (by decide)) (rtCDA d a _ (by decide) (by decide))

theorem vrel  : Statement .vrel := fun _ _ => by
  show decodeWord (BitVec.ofNat 32 (encC 54 0 0 false false 0 1)) = _
  exact of_op54 (encC_lt (op := 54) (a := 0) (b := 0) (sel := 0) (fn := 1) (by decide) (by decide) (by decide) (by decide)
    (by decide)) (encC_op (op := 54) (a := 0) (b := 0) (sel := 0) (fn := 1) (by decide) (by decide) (by decide) (by decide)
    (by decide)) (encC_fn (op := 54) (a := 0) (b := 0) (sel := 0) (fn := 1) (by decide) (by decide) (by decide) (by decide)
    (by decide)) (rtC0 _ (by decide) (by decide))

theorem vyield (d : Dst) (a : Src) : Statement (.vyield d a) := fun _ _ => by
  show decodeWord (BitVec.ofNat 32 (encC 54 a.reg.code 0 a.e false d.code 2)) = _
  exact of_op54 (encC_lt (op := 54) (b := 0) (fn := 2) (by decide) (src32 a) (by decide) (dst_lt d) (by decide))
    (encC_op (op := 54) (b := 0) (fn := 2) (by decide) (src32 a) (by decide) (dst_lt d) (by decide)) (encC_fn (op := 54)
    (b := 0) (fn := 2) (by decide) (src32 a) (by decide) (dst_lt d) (by decide)) (rtCDA d a _ (by decide) (by decide))

theorem vloop (a : Src) (n : BitVec 5) : Statement (.vloop a n) := fun _ hw => by
  simp only [Instr.wellFormed, Bool.and_eq_true, decide_eq_true_eq] at hw
  show decodeWord (BitVec.ofNat 32 (encC 54 a.reg.code 0 a.e false n.toNat 3)) = _
  exact of_op54 (encC_lt (op := 54) (b := 0) (fn := 3) (by decide) (src32 a) (by decide) n.isLt (by decide)) (encC_op (op := 54)
    (b := 0) (fn := 3) (by decide) (src32 a) (by decide) n.isLt (by decide)) (encC_fn (op := 54) (b := 0) (fn := 3) (by decide)
    (src32 a) (by decide) n.isLt (by decide)) (rtVLOOP a n (by decide) (by decide) hw)

theorem mgeo (a : Src) (b : Src) : Statement (.mgeo a b) := fun _ _ => by
  show decodeWord (BitVec.ofNat 32 (encC 56 a.reg.code b.reg.code a.e b.e 0 0)) = _
  exact of_op56 (encC_lt (op := 56) (sel := 0) (fn := 0) (by decide) (src32 a) (src32 b) (by decide) (by decide))
    (encC_op (op := 56) (sel := 0) (fn := 0) (by decide) (src32 a) (src32 b) (by decide) (by decide)) (encC_fn (op := 56)
    (sel := 0) (fn := 0) (by decide) (src32 a) (src32 b) (by decide) (by decide)) (rtCAB a b _ (by decide) (by decide))

theorem midx (a : Src) : Statement (.midx a) := fun _ _ => by
  show decodeWord (BitVec.ofNat 32 (encC 56 a.reg.code 0 a.e false 0 1)) = _
  exact of_op56 (encC_lt (op := 56) (b := 0) (sel := 0) (fn := 1) (by decide) (src32 a) (by decide) (by decide) (by decide))
    (encC_op (op := 56) (b := 0) (sel := 0) (fn := 1) (by decide) (src32 a) (by decide) (by decide) (by decide))
    (encC_fn (op := 56) (b := 0) (sel := 0) (fn := 1) (by decide) (src32 a) (by decide) (by decide) (by decide))
    (rtCA a _ (by decide) (by decide))

theorem mmul (a : Src) (b : Src) : Statement (.mmul a b) := fun _ _ => by
  show decodeWord (BitVec.ofNat 32 (encC 56 a.reg.code b.reg.code a.e b.e 0 2)) = _
  exact of_op56 (encC_lt (op := 56) (sel := 0) (fn := 2) (by decide) (src32 a) (src32 b) (by decide) (by decide))
    (encC_op (op := 56) (sel := 0) (fn := 2) (by decide) (src32 a) (src32 b) (by decide) (by decide)) (encC_fn (op := 56)
    (sel := 0) (fn := 2) (by decide) (src32 a) (src32 b) (by decide) (by decide)) (rtCAB a b _ (by decide) (by decide))

theorem mzero (a : Src) : Statement (.mzero a) := fun _ _ => by
  show decodeWord (BitVec.ofNat 32 (encC 56 a.reg.code 0 a.e false 0 3)) = _
  exact of_op56 (encC_lt (op := 56) (b := 0) (sel := 0) (fn := 3) (by decide) (src32 a) (by decide) (by decide) (by decide))
    (encC_op (op := 56) (b := 0) (sel := 0) (fn := 3) (by decide) (src32 a) (by decide) (by decide) (by decide))
    (encC_fn (op := 56) (b := 0) (sel := 0) (fn := 3) (by decide) (src32 a) (by decide) (by decide) (by decide))
    (rtCA a _ (by decide) (by decide))

theorem mscac  : Statement .mscac := fun _ _ => by
  show decodeWord (BitVec.ofNat 32 (encC 56 0 0 false false 0 4)) = _
  exact of_op56 (encC_lt (op := 56) (a := 0) (b := 0) (sel := 0) (fn := 4) (by decide) (by decide) (by decide) (by decide)
    (by decide)) (encC_op (op := 56) (a := 0) (b := 0) (sel := 0) (fn := 4) (by decide) (by decide) (by decide) (by decide)
    (by decide)) (encC_fn (op := 56) (a := 0) (b := 0) (sel := 0) (fn := 4) (by decide) (by decide) (by decide) (by decide)
    (by decide)) (rtC0 _ (by decide) (by decide))

theorem mdrn (a : Src) (b : Src) : Statement (.mdrn a b) := fun _ _ => by
  show decodeWord (BitVec.ofNat 32 (encC 56 a.reg.code b.reg.code a.e b.e 0 5)) = _
  exact of_op56 (encC_lt (op := 56) (sel := 0) (fn := 5) (by decide) (src32 a) (src32 b) (by decide) (by decide))
    (encC_op (op := 56) (sel := 0) (fn := 5) (by decide) (src32 a) (src32 b) (by decide) (by decide)) (encC_fn (op := 56)
    (sel := 0) (fn := 5) (by decide) (src32 a) (src32 b) (by decide) (by decide)) (rtCAB a b _ (by decide) (by decide))

theorem mchk (d : Dst) (a : Src) : Statement (.mchk d a) := fun _ _ => by
  show decodeWord (BitVec.ofNat 32 (encC 56 a.reg.code 0 a.e false d.code 6)) = _
  exact of_op56 (encC_lt (op := 56) (b := 0) (fn := 6) (by decide) (src32 a) (by decide) (dst_lt d) (by decide))
    (encC_op (op := 56) (b := 0) (fn := 6) (by decide) (src32 a) (by decide) (dst_lt d) (by decide)) (encC_fn (op := 56)
    (b := 0) (fn := 6) (by decide) (src32 a) (by decide) (dst_lt d) (by decide)) (rtCDA d a _ (by decide) (by decide))

theorem gtw (a : Src) (b : Src) : Statement (.gtw a b) := fun _ _ => by
  show decodeWord (BitVec.ofNat 32 (encC 57 a.reg.code b.reg.code a.e b.e 0 0)) = _
  exact of_op57 (encC_lt (op := 57) (sel := 0) (fn := 0) (by decide) (src32 a) (src32 b) (by decide) (by decide))
    (encC_op (op := 57) (sel := 0) (fn := 0) (by decide) (src32 a) (src32 b) (by decide) (by decide)) (encC_fn (op := 57)
    (sel := 0) (fn := 0) (by decide) (src32 a) (src32 b) (by decide) (by decide)) (rtCAB a b _ (by decide) (by decide))

theorem gtd (a : Src) (b : Src) : Statement (.gtd a b) := fun _ _ => by
  show decodeWord (BitVec.ofNat 32 (encC 57 a.reg.code b.reg.code a.e b.e 0 1)) = _
  exact of_op57 (encC_lt (op := 57) (sel := 0) (fn := 1) (by decide) (src32 a) (src32 b) (by decide) (by decide))
    (encC_op (op := 57) (sel := 0) (fn := 1) (by decide) (src32 a) (src32 b) (by decide) (by decide)) (encC_fn (op := 57)
    (sel := 0) (fn := 1) (by decide) (src32 a) (src32 b) (by decide) (by decide)) (rtCAB a b _ (by decide) (by decide))

theorem gcmt (d : Dst) (a : Src) : Statement (.gcmt d a) := fun _ _ => by
  show decodeWord (BitVec.ofNat 32 (encC 57 a.reg.code 0 a.e false d.code 2)) = _
  exact of_op57 (encC_lt (op := 57) (b := 0) (fn := 2) (by decide) (src32 a) (by decide) (dst_lt d) (by decide))
    (encC_op (op := 57) (b := 0) (fn := 2) (by decide) (src32 a) (by decide) (dst_lt d) (by decide)) (encC_fn (op := 57)
    (b := 0) (fn := 2) (by decide) (src32 a) (by decide) (dst_lt d) (by decide)) (rtCDA d a _ (by decide) (by decide))

theorem ginj (a : Src) (b : Src) : Statement (.ginj a b) := fun _ _ => by
  show decodeWord (BitVec.ofNat 32 (encC 57 a.reg.code b.reg.code a.e b.e 0 3)) = _
  exact of_op57 (encC_lt (op := 57) (sel := 0) (fn := 3) (by decide) (src32 a) (src32 b) (by decide) (by decide))
    (encC_op (op := 57) (sel := 0) (fn := 3) (by decide) (src32 a) (src32 b) (by decide) (by decide)) (encC_fn (op := 57)
    (sel := 0) (fn := 3) (by decide) (src32 a) (src32 b) (by decide) (by decide)) (rtCAB a b _ (by decide) (by decide))

theorem gtake (a : Src) (b : Src) : Statement (.gtake a b) := fun _ _ => by
  show decodeWord (BitVec.ofNat 32 (encC 57 a.reg.code b.reg.code a.e b.e 0 4)) = _
  exact of_op57 (encC_lt (op := 57) (sel := 0) (fn := 4) (by decide) (src32 a) (src32 b) (by decide) (by decide))
    (encC_op (op := 57) (sel := 0) (fn := 4) (by decide) (src32 a) (src32 b) (by decide) (by decide)) (encC_fn (op := 57)
    (sel := 0) (fn := 4) (by decide) (src32 a) (src32 b) (by decide) (by decide)) (rtCAB a b _ (by decide) (by decide))

theorem gctr (d : Dst) (a : Src) (b : Src) : Statement (.gctr d a b) := fun _ _ => by
  show decodeWord (BitVec.ofNat 32 (encC 57 a.reg.code b.reg.code a.e b.e d.code 5)) = _
  exact of_op57 (encC_lt (op := 57) (fn := 5) (by decide) (src32 a) (src32 b) (dst_lt d) (by decide)) (encC_op (op := 57)
    (fn := 5) (by decide) (src32 a) (src32 b) (dst_lt d) (by decide)) (encC_fn (op := 57) (fn := 5) (by decide) (src32 a)
    (src32 b) (dst_lt d) (by decide)) (rtCDAB d a b _ (by decide) (by decide))

theorem gbind (a : Src) (b : Src) : Statement (.gbind a b) := fun _ _ => by
  show decodeWord (BitVec.ofNat 32 (encC 57 a.reg.code b.reg.code a.e b.e 0 6)) = _
  exact of_op57 (encC_lt (op := 57) (sel := 0) (fn := 6) (by decide) (src32 a) (src32 b) (by decide) (by decide))
    (encC_op (op := 57) (sel := 0) (fn := 6) (by decide) (src32 a) (src32 b) (by decide) (by decide)) (encC_fn (op := 57)
    (sel := 0) (fn := 6) (by decide) (src32 a) (src32 b) (by decide) (by decide)) (rtCAB a b _ (by decide) (by decide))

theorem psbind (d : Dst) (a : Src) : Statement (.psbind d a) := fun _ _ => by
  show decodeWord (BitVec.ofNat 32 (encC 58 a.reg.code 0 a.e false d.code 0)) = _
  exact of_op58 (encC_lt (op := 58) (b := 0) (fn := 0) (by decide) (src32 a) (by decide) (dst_lt d) (by decide))
    (encC_op (op := 58) (b := 0) (fn := 0) (by decide) (src32 a) (by decide) (dst_lt d) (by decide)) (encC_fn (op := 58)
    (b := 0) (fn := 0) (by decide) (src32 a) (by decide) (dst_lt d) (by decide)) (rtCDA d a _ (by decide) (by decide))

theorem psread (a : Src) (b : Src) : Statement (.psread a b) := fun _ _ => by
  show decodeWord (BitVec.ofNat 32 (encC 58 a.reg.code b.reg.code a.e b.e 0 1)) = _
  exact of_op58 (encC_lt (op := 58) (sel := 0) (fn := 1) (by decide) (src32 a) (src32 b) (by decide) (by decide))
    (encC_op (op := 58) (sel := 0) (fn := 1) (by decide) (src32 a) (src32 b) (by decide) (by decide)) (encC_fn (op := 58)
    (sel := 0) (fn := 1) (by decide) (src32 a) (src32 b) (by decide) (by decide)) (rtCAB a b _ (by decide) (by decide))

theorem psadd (a : Src) (b : Src) : Statement (.psadd a b) := fun _ _ => by
  show decodeWord (BitVec.ofNat 32 (encC 58 a.reg.code b.reg.code a.e b.e 0 2)) = _
  exact of_op58 (encC_lt (op := 58) (sel := 0) (fn := 2) (by decide) (src32 a) (src32 b) (by decide) (by decide))
    (encC_op (op := 58) (sel := 0) (fn := 2) (by decide) (src32 a) (src32 b) (by decide) (by decide)) (encC_fn (op := 58)
    (sel := 0) (fn := 2) (by decide) (src32 a) (src32 b) (by decide) (by decide)) (rtCAB a b _ (by decide) (by decide))

theorem psmass (d : XReg) (a : Src) : Statement (.psmass d a) := fun _ hw => by
  simp only [Instr.wellFormed, XReg.between, Bool.and_eq_true, decide_eq_true_eq] at hw
  show decodeWord (BitVec.ofNat 32 (encC 58 a.reg.code 0 a.e false d.val 3)) = _
  exact of_op58 (encC_lt (op := 58) (b := 0) (fn := 3) (by decide) (src32 a) (by decide) (x32 d) (by decide))
    (encC_op (op := 58) (b := 0) (fn := 3) (by decide) (src32 a) (by decide) (x32 d) (by decide)) (encC_fn (op := 58) (b := 0)
    (fn := 3) (by decide) (src32 a) (by decide) (x32 d) (by decide)) (rtCDPA d a _ (by decide) (by decide) hw)

theorem psdis (d : Dst) (a : Src) : Statement (.psdis d a) := fun _ _ => by
  show decodeWord (BitVec.ofNat 32 (encC 58 a.reg.code 0 a.e false d.code 4)) = _
  exact of_op58 (encC_lt (op := 58) (b := 0) (fn := 4) (by decide) (src32 a) (by decide) (dst_lt d) (by decide))
    (encC_op (op := 58) (b := 0) (fn := 4) (by decide) (src32 a) (by decide) (dst_lt d) (by decide)) (encC_fn (op := 58)
    (b := 0) (fn := 4) (by decide) (src32 a) (by decide) (dst_lt d) (by decide)) (rtCDA d a _ (by decide) (by decide))

theorem psjoin (a : Src) (b : Src) : Statement (.psjoin a b) := fun _ _ => by
  show decodeWord (BitVec.ofNat 32 (encC 58 a.reg.code b.reg.code a.e b.e 0 5)) = _
  exact of_op58 (encC_lt (op := 58) (sel := 0) (fn := 5) (by decide) (src32 a) (src32 b) (by decide) (by decide))
    (encC_op (op := 58) (sel := 0) (fn := 5) (by decide) (src32 a) (src32 b) (by decide) (by decide)) (encC_fn (op := 58)
    (sel := 0) (fn := 5) (by decide) (src32 a) (src32 b) (by decide) (by decide)) (rtCAB a b _ (by decide) (by decide))

theorem psleave (a : Src) (b : Src) : Statement (.psleave a b) := fun _ _ => by
  show decodeWord (BitVec.ofNat 32 (encC 58 a.reg.code b.reg.code a.e b.e 0 6)) = _
  exact of_op58 (encC_lt (op := 58) (sel := 0) (fn := 6) (by decide) (src32 a) (src32 b) (by decide) (by decide))
    (encC_op (op := 58) (sel := 0) (fn := 6) (by decide) (src32 a) (src32 b) (by decide) (by decide)) (encC_fn (op := 58)
    (sel := 0) (fn := 6) (by decide) (src32 a) (src32 b) (by decide) (by decide)) (rtCAB a b _ (by decide) (by decide))

theorem psqui (a : Src) (b : Src) : Statement (.psqui a b) := fun _ _ => by
  show decodeWord (BitVec.ofNat 32 (encC 58 a.reg.code b.reg.code a.e b.e 0 7)) = _
  exact of_op58 (encC_lt (op := 58) (sel := 0) (fn := 7) (by decide) (src32 a) (src32 b) (by decide) (by decide))
    (encC_op (op := 58) (sel := 0) (fn := 7) (by decide) (src32 a) (src32 b) (by decide) (by decide)) (encC_fn (op := 58)
    (sel := 0) (fn := 7) (by decide) (src32 a) (src32 b) (by decide) (by decide)) (rtCAB a b _ (by decide) (by decide))

theorem psstep (a : Src) : Statement (.psstep a) := fun _ _ => by
  show decodeWord (BitVec.ofNat 32 (encC 58 a.reg.code 0 a.e false 0 8)) = _
  exact of_op58 (encC_lt (op := 58) (b := 0) (sel := 0) (fn := 8) (by decide) (src32 a) (by decide) (by decide) (by decide))
    (encC_op (op := 58) (b := 0) (sel := 0) (fn := 8) (by decide) (src32 a) (by decide) (by decide) (by decide))
    (encC_fn (op := 58) (b := 0) (sel := 0) (fn := 8) (by decide) (src32 a) (by decide) (by decide) (by decide))
    (rtCA a _ (by decide) (by decide))

theorem psheld (d : XReg) (a : Src) : Statement (.psheld d a) := fun _ hw => by
  simp only [Instr.wellFormed, XReg.between, Bool.and_eq_true, decide_eq_true_eq] at hw
  show decodeWord (BitVec.ofNat 32 (encC 58 a.reg.code 0 a.e false d.val 9)) = _
  exact of_op58 (encC_lt (op := 58) (b := 0) (fn := 9) (by decide) (src32 a) (by decide) (x32 d) (by decide))
    (encC_op (op := 58) (b := 0) (fn := 9) (by decide) (src32 a) (by decide) (x32 d) (by decide)) (encC_fn (op := 58) (b := 0)
    (fn := 9) (by decide) (src32 a) (by decide) (x32 d) (by decide)) (rtCDPA d a _ (by decide) (by decide) hw)

theorem cpy (d : Dst) (a : Src) : Statement (.cpy d a) := fun _ _ => by
  show decodeWord (BitVec.ofNat 32 (encC 59 a.reg.code 0 a.e false d.code 0)) = _
  exact of_op59 (encC_lt (op := 59) (b := 0) (fn := 0) (by decide) (src32 a) (by decide) (dst_lt d) (by decide))
    (encC_op (op := 59) (b := 0) (fn := 0) (by decide) (src32 a) (by decide) (dst_lt d) (by decide)) (encC_fn (op := 59)
    (b := 0) (fn := 0) (by decide) (src32 a) (by decide) (dst_lt d) (by decide)) (rtCDA d a _ (by decide) (by decide))

theorem stfl (a : Src) (b : Src) : Statement (.stfl a b) := fun _ _ => by
  show decodeWord (BitVec.ofNat 32 (encC 59 a.reg.code b.reg.code a.e b.e 0 1)) = _
  exact of_op59 (encC_lt (op := 59) (sel := 0) (fn := 1) (by decide) (src32 a) (src32 b) (by decide) (by decide))
    (encC_op (op := 59) (sel := 0) (fn := 1) (by decide) (src32 a) (src32 b) (by decide) (by decide)) (encC_fn (op := 59)
    (sel := 0) (fn := 1) (by decide) (src32 a) (src32 b) (by decide) (by decide)) (rtCAB a b _ (by decide) (by decide))

theorem stiv (a : Src) (b : Src) : Statement (.stiv a b) := fun _ _ => by
  show decodeWord (BitVec.ofNat 32 (encC 59 a.reg.code b.reg.code a.e b.e 0 2)) = _
  exact of_op59 (encC_lt (op := 59) (sel := 0) (fn := 2) (by decide) (src32 a) (src32 b) (by decide) (by decide))
    (encC_op (op := 59) (sel := 0) (fn := 2) (by decide) (src32 a) (src32 b) (by decide) (by decide)) (encC_fn (op := 59)
    (sel := 0) (fn := 2) (by decide) (src32 a) (src32 b) (by decide) (by decide)) (rtCAB a b _ (by decide) (by decide))

theorem stfil (a : Src) (b : Src) : Statement (.stfil a b) := fun _ _ => by
  show decodeWord (BitVec.ofNat 32 (encC 59 a.reg.code b.reg.code a.e b.e 0 3)) = _
  exact of_op59 (encC_lt (op := 59) (sel := 0) (fn := 3) (by decide) (src32 a) (src32 b) (by decide) (by decide))
    (encC_op (op := 59) (sel := 0) (fn := 3) (by decide) (src32 a) (src32 b) (by decide) (by decide)) (encC_fn (op := 59)
    (sel := 0) (fn := 3) (by decide) (src32 a) (src32 b) (by decide) (by decide)) (rtCAB a b _ (by decide) (by decide))

theorem tlbinv (a : Src) (b : Src) : Statement (.tlbinv a b) := fun _ _ => by
  show decodeWord (BitVec.ofNat 32 (encC 59 a.reg.code b.reg.code a.e b.e 0 4)) = _
  exact of_op59 (encC_lt (op := 59) (sel := 0) (fn := 4) (by decide) (src32 a) (src32 b) (by decide) (by decide))
    (encC_op (op := 59) (sel := 0) (fn := 4) (by decide) (src32 a) (src32 b) (by decide) (by decide)) (encC_fn (op := 59)
    (sel := 0) (fn := 4) (by decide) (src32 a) (src32 b) (by decide) (by decide)) (rtCAB a b _ (by decide) (by decide))

theorem demote (a : Src) (b : Src) : Statement (.demote a b) := fun _ _ => by
  show decodeWord (BitVec.ofNat 32 (encC 59 a.reg.code b.reg.code a.e b.e 0 5)) = _
  exact of_op59 (encC_lt (op := 59) (sel := 0) (fn := 5) (by decide) (src32 a) (src32 b) (by decide) (by decide))
    (encC_op (op := 59) (sel := 0) (fn := 5) (by decide) (src32 a) (src32 b) (by decide) (by decide)) (encC_fn (op := 59)
    (sel := 0) (fn := 5) (by decide) (src32 a) (src32 b) (by decide) (by decide)) (rtCAB a b _ (by decide) (by decide))

theorem promote (a : Src) : Statement (.promote a) := fun _ _ => by
  show decodeWord (BitVec.ofNat 32 (encC 59 a.reg.code 0 a.e false 0 6)) = _
  exact of_op59 (encC_lt (op := 59) (b := 0) (sel := 0) (fn := 6) (by decide) (src32 a) (by decide) (by decide) (by decide))
    (encC_op (op := 59) (b := 0) (sel := 0) (fn := 6) (by decide) (src32 a) (by decide) (by decide) (by decide))
    (encC_fn (op := 59) (b := 0) (sel := 0) (fn := 6) (by decide) (src32 a) (by decide) (by decide) (by decide))
    (rtCA a _ (by decide) (by decide))

theorem divideComplete (k : Nat) (n : Nat) : Statement (.divideComplete k n) := nofun
theorem loadComplete (k : Nat) (n : Nat) (dest : Nat) : Statement (.loadComplete k n dest) := nofun
theorem loadTranslationFault (k : Nat) (n : Nat) : Statement (.loadTranslationFault k n) := nofun
theorem alignRelease (k : Nat) : Statement (.alignRelease k) := nofun
theorem land (k : Nat) : Statement (.land k) := nofun
theorem awaitTest (k : Nat) : Statement (.awaitTest k) := nofun
theorem stepGenerationComplete (l : Nat) : Statement (.stepGenerationComplete l) := nofun
theorem messageArrival (k : Nat) : Statement (.messageArrival k) := nofun
theorem receive (k : Nat) (n : Nat) : Statement (.receive k n) := nofun
theorem berthMove (k : Nat) (ch : Nat) : Statement (.berthMove k ch) := nofun
theorem itemPush (k : Nat) : Statement (.itemPush k) := nofun
theorem yieldTimeout (k : Nat) : Statement (.yieldTimeout k) := nofun
theorem illegalWord (w : Word) : Statement (.illegalWord w) := nofun
theorem impreciseErrorDelivery (k : Nat) : Statement (.impreciseErrorDelivery k) := nofun
theorem rearmedAccessComplete (k : Nat) (n : Nat) : Statement (.rearmedAccessComplete k n) := nofun
theorem queueHeldDelivery (k : Nat) (q : Nat) : Statement (.queueHeldDelivery k q) := nofun
theorem engineAccept (k : Nat) : Statement (.engineAccept k) := nofun
theorem engineRead (k : Nat) (e : Engine) : Statement (.engineRead k e) := nofun
theorem engineComplete (k : Nat) (e : Engine) : Statement (.engineComplete k e) := nofun
theorem kernelBoundary (l : Nat) : Statement (.kernelBoundary l) := nofun
theorem launchPartReceive (l : Nat) (die : Nat) : Statement (.launchPartReceive l die) := nofun
theorem dispatchAssign (k : Nat) (l : Nat) : Statement (.dispatchAssign k l) := nofun
theorem launchStarvationTimeout (l : Nat) (die : Nat) : Statement (.launchStarvationTimeout l die) := nofun
theorem withdrawnDieLeave (l : Nat) (die : Nat) : Statement (.withdrawnDieLeave l die) := nofun
theorem addressBreakpointMatch (k : Nat) : Statement (.addressBreakpointMatch k) := nofun
theorem dbgicinvComplete (k : Nat) : Statement (.dbgicinvComplete k) := nofun
theorem prectlSave (k : Nat) : Statement (.prectlSave k) := nofun
theorem saveComplete (k : Nat) : Statement (.saveComplete k) := nofun
theorem prectlRestore (k : Nat) : Statement (.prectlRestore k) := nofun
theorem traceDrain (k : Nat) : Statement (.traceDrain k) := nofun
theorem routerReduce (die : Nat) (level : Nat) (idx : Nat) (tag : Nat) : Statement (.routerReduce die level idx tag) := nofun
theorem vectorEntryComplete (k : Nat) : Statement (.vectorEntryComplete k) := nofun
theorem grantRenegotiation (k : Nat) : Statement (.grantRenegotiation k) := nofun
theorem matrixTileStart (c : Nat) (k : Nat) : Statement (.matrixTileStart c k) := nofun
theorem galleryAdmit (die : Nat) (c : Nat) : Statement (.galleryAdmit die c) := nofun
theorem galleryStage (die : Nat) (n : Nat) : Statement (.galleryStage die n) := nofun
theorem galleryLeave (die : Nat) (n : Nat) : Statement (.galleryLeave die n) := nofun
theorem exitBufferRelease (die : Nat) (c : Nat) : Statement (.exitBufferRelease die c) := nofun
theorem galleryShadowWrite (k : Nat) : Statement (.galleryShadowWrite k) := nofun
theorem galleryCommit (die : Nat) (c : Nat) : Statement (.galleryCommit die c) := nofun
theorem galleryShadowCopyDone (die : Nat) (c : Nat) : Statement (.galleryShadowCopyDone die c) := nofun
theorem galleryBindEffect (die : Nat) (c : Nat) : Statement (.galleryBindEffect die c) := nofun
theorem ferryRound (die : Nat) (g : Nat) : Statement (.ferryRound die g) := nofun
theorem ferryHalfArrival (die : Nat) (n : Nat) : Statement (.ferryHalfArrival die n) := nofun
theorem ferryAckArrival (die : Nat) (n : Nat) : Statement (.ferryAckArrival die n) := nofun
theorem ferryRefusalArrival (die : Nat) (n : Nat) : Statement (.ferryRefusalArrival die n) := nofun
theorem ferryHalfTimeout (die : Nat) (b : Nat) : Statement (.ferryHalfTimeout die b) := nofun
theorem ferryHandover (die : Nat) (b : Nat) : Statement (.ferryHandover die b) := nofun
theorem ferryCheckpointCopyDone (k : Nat) : Statement (.ferryCheckpointCopyDone k) := nofun
theorem copyRowRead (k : Nat) : Statement (.copyRowRead k) := nofun
theorem tierMove (n : Nat) (copy : CopyStage) : Statement (.tierMove n copy) := nofun
theorem tierMoveRelease (n : Nat) : Statement (.tierMoveRelease n) := nofun
theorem wqTailStore (q : Nat) : Statement (.wqTailStore q) := nofun
theorem leaderElection : Statement .leaderElection := nofun
theorem heartbeatTimeout (die : Nat) : Statement (.heartbeatTimeout die) := nofun
theorem dieSetRequest (l : Nat) (mask : Nat) : Statement (.dieSetRequest l mask) := nofun
theorem wqctlWrite (k : Nat) (v : Word) : Statement (.wqctlWrite k v) := nofun
theorem femaskWrite (k : Nat) (v : Word) : Statement (.femaskWrite k v) := nofun
theorem sramcfgWrite (k : Nat) (v : Word) : Statement (.sramcfgWrite k v) := nofun
theorem lstatWrite (k : Nat) (v : Word) : Statement (.lstatWrite k v) := nofun
theorem stbaseWrite (k : Nat) (v : Word) : Statement (.stbaseWrite k v) := nofun
theorem dbgHaltreq (k : Nat) : Statement (.dbgHaltreq k) := nofun
theorem dbgResumereq (k : Nat) : Statement (.dbgResumereq k) := nofun
theorem dbgdataWrite (k : Nat) (v : Word) : Statement (.dbgdataWrite k v) := nofun
theorem dbgmdataRead (k : Nat) : Statement (.dbgmdataRead k) := nofun
theorem dbgmdataWrite (k : Nat) (v : Word) : Statement (.dbgmdataWrite k v) := nofun
theorem dbgicinvWrite (k : Nat) (v : Word) : Statement (.dbgicinvWrite k v) := nofun
theorem npush (k : Nat) (v : Word) : Statement (.npush k v) := nofun
theorem imppop (k : Nat) : Statement (.imppop k) := nofun
theorem basinDefine (k : Nat) (v : Word) : Statement (.basinDefine k v) := nofun
theorem basinReset (k : Nat) : Statement (.basinReset k) := nofun
theorem dieLost (die : Nat) : Statement (.dieLost die) := nofun
theorem matrixCsrWrite (k : Nat) (csr : BitVec 12) (v : Word) : Statement (.matrixCsrWrite k csr v) := nofun
theorem telemetryCounterSample (die : Nat) : Statement (.telemetryCounterSample die) := nofun
theorem powerSample (die : Nat) (watts : Nat) (temp : Nat) : Statement (.powerSample die watts temp) := nofun
theorem gownWrite (die : Nat) (c : Nat) (v : Word) : Statement (.gownWrite die c v) := nofun
theorem fgevqRead (k : Nat) : Statement (.fgevqRead k) := nofun
theorem fnbWrite (k : Nat) (v : Word) : Statement (.fnbWrite k v) := nofun
theorem fgtagWrite (k : Nat) (v : Word) : Statement (.fgtagWrite k v) := nofun
theorem fgownWrite (die : Nat) (v : Word) : Statement (.fgownWrite die v) := nofun
theorem ferryidWrite (die : Nat) (v : Word) : Statement (.ferryidWrite die v) := nofun
theorem fckctlGo (k : Nat) (v : Word) : Statement (.fckctlGo k v) := nofun
theorem demotionEngineStart (die : Nat) (part : Nat) (tier : Nat) : Statement (.demotionEngineStart die part tier) := nofun
theorem storageRingStatus (part : Nat) (n : Nat) (ok : Bool) : Statement (.storageRingStatus part n ok) := nofun
theorem storqctlWrite (k : Nat) (v : Word) : Statement (.storqctlWrite k v) := nofun
theorem berthWrite (k : Nat) (csr : BitVec 12) (v : Word) : Statement (.berthWrite k csr v) := nofun
theorem berthReconfigApply (part : Nat) (rank : Nat) : Statement (.berthReconfigApply part rank) := nofun
theorem ranksetWrite (k : Nat) (v : Word) : Statement (.ranksetWrite k v) := nofun
theorem pgctlWrite (die : Nat) (v : Word) : Statement (.pgctlWrite die v) := nofun
theorem tgrantWrite (die : Nat) (n : Nat) (v : Word) : Statement (.tgrantWrite die n v) := nofun
theorem quayPacketArrival (p : Packet) : Statement (.quayPacketArrival p) := nofun
theorem e2eAckArrival (peer : Nat) (seq : Nat) (ans : Nat) : Statement (.e2eAckArrival peer seq ans) := nofun
theorem packetRetransmitTimeout (peer : Nat) (seq : Nat) : Statement (.packetRetransmitTimeout peer seq) := nofun
theorem linkRemoved (n : Nat) : Statement (.linkRemoved n) := nofun
theorem packageLost (peer : Nat) : Statement (.packageLost peer) := nofun
theorem snpInv (line : Nat) (data : List Byte) : Statement (.snpInv line data) := nofun
theorem snpData (line : Nat) : Statement (.snpData line) := nofun
theorem snpCur (line : Nat) : Statement (.snpCur line) := nofun
theorem go (k : Nat) : Statement (.go k) := nofun
theorem goWritePull (k : Nat) : Statement (.goWritePull k) := nofun
theorem writePull (k : Nat) : Statement (.writePull k) := nofun
theorem goErr (k : Nat) : Statement (.goErr k) := nofun
theorem memRd (line : Nat) : Statement (.memRd line) := nofun
theorem memWr (line : Nat) (data : List Byte) : Statement (.memWr line data) := nofun
theorem memWrPtl (line : Nat) (mask : Nat) (data : List Byte) : Statement (.memWrPtl line mask data) := nofun
theorem m2sRefused (req : M2SRequest) (rd : Bool) : Statement (.m2sRefused req rd) := nofun
theorem skovazLinkLost : Statement .skovazLinkLost := nofun
theorem powerOnReset (up : PowerUp) : Statement (.powerOnReset up) := nofun
theorem recoveryImageLoad (slot : Bool) (img : Image) : Statement (.recoveryImageLoad slot img) := nofun
theorem recoveryKeyEnrol (hash : Nat) (present : Bool) : Statement (.recoveryKeyEnrol hash present) := nofun
theorem bistctlGo (die : Nat) (v : Word) : Statement (.bistctlGo die v) := nofun
theorem bistComplete (die : Nat) (res : Word) : Statement (.bistComplete die res) := nofun
theorem remapGo (die : Nat) (v : Word) : Statement (.remapGo die v) := nofun
theorem partctlWrite (die : Nat) (v : Word) : Statement (.partctlWrite die v) := nofun
theorem clupartWrite (die : Nat) (v : Word) : Statement (.clupartWrite die v) := nofun
theorem polctlGo (k : Nat) (v : Word) : Statement (.polctlGo k v) := nofun
theorem bbdataRead (k : Nat) : Statement (.bbdataRead k) := nofun
theorem blackBoxFlush (die : Nat) : Statement (.blackBoxFlush die) := nofun
theorem inputPowerLoss : Statement .inputPowerLoss := nofun
theorem clockStep (die : Nat) (up : Bool) (heat : Bool) : Statement (.clockStep die up heat) := nofun
theorem junctionOverheat (die : Nat) : Statement (.junctionOverheat die) := nofun
theorem linkReturn (n : Nat) : Statement (.linkReturn n) := nofun
theorem uncorrectableErrorDetected (line : Nat) (k : Nat) (dir : Bool) : Statement (.uncorrectableErrorDetected line k dir) := nofun
theorem launchCancel (l : Nat) : Statement (.launchCancel l) := nofun

end Sys2Proof.Laws.RoundTrip
end

