-- ==== Sys2Proof/Tests/Slice0.lean ====
section
/-!
SUPPORT. Sys2Proof/Tests/Slice0.lean: the model's own tests. Words of every family written out from the spec's tables and
worked encodings; ill-formed instructions that WellFormed refuses; and, for each statement with hypotheses, a state and
operands that meet them, where that is short together with the value that the statement then gives.
-/
namespace Sys2Proof.Tests
set_option Elab.async false
open Sys2Proof Sys2Proof.Machine Sys2Proof.Claims

/-! ## Well-formed instructions (R44, R45, R239, R262) -/

theorem test_illformed_loop : (Instr.loop ⟨.x 1, false⟩ false 0).wellFormed = false ∧ (Instr.loop ⟨.x 1, false⟩ false 1).wellFormed = true := by
  decide
theorem test_illformed_send : (Instr.send ⟨.x 1, false⟩ 4 false 0).wellFormed = false ∧ (Instr.send ⟨.x 1, false⟩ 4 false 9).wellFormed = false ∧
    (Instr.send ⟨.x 1, false⟩ 22 false 3).wellFormed = false ∧ (Instr.send ⟨.x 1, false⟩ 21 false 3).wellFormed = true := by decide
theorem test_illformed_pairs : (Instr.sendb ⟨.x 1, false⟩ 0 false).wellFormed = false ∧ (Instr.sendb ⟨.x 1, false⟩ 23 false).wellFormed = false ∧
    (Instr.psmass 23 ⟨.x 1, false⟩).wellFormed = false ∧ (Instr.psheld 0 ⟨.x 1, false⟩).wellFormed = false ∧
    (Instr.psheld 22 ⟨.x 1, false⟩).wellFormed = true := by decide
theorem test_illformed_pass : (Instr.pass ⟨.x 1, false⟩ 22 false).wellFormed = false ∧ (Instr.pass ⟨.x 1, false⟩ 21 false).wellFormed = true := by
  decide
theorem test_illformed_vector : (Instr.vadd 1 2 3 4).wellFormed = false ∧ (Instr.vadd 1 2 3 0).wellFormed = true ∧
    (Instr.vmovBroadcast 1 0).wellFormed = false ∧ (Instr.vloop ⟨.x 1, false⟩ 0).wellFormed = false ∧
    (Instr.vloop ⟨.x 1, false⟩ 17).wellFormed = false := by decide

/-! ## Words -/

/-- Source: R110, R43; the worked encoding of R43 and R390's program. -/
theorem test_decode_register_integer :
    decodeWord 0x05F80000 = .ok (.add (.x 15) ⟨.q 0, false⟩ ⟨.x 0, false⟩) ∧
    decodeWord 0x04642C00 = .ok (.add (.x 3) ⟨.x 4, true⟩ ⟨.x 5, false⟩) :=
  ⟨rfl, rfl⟩

/-- Source: R117, R119 and the task of R134. -/
theorem test_decode_immediate_integer :
    decodeWord 0x08A00002 = .ok (.addi (.x 5) ⟨.x 0, false⟩ 2) ∧
    decodeWord 0x08E70064 = .ok (.addi (.x 7) ⟨.x 7, false⟩ 100) ∧
    decodeWord 0x24A02468 = .ok (.lui (.x 5) 0x2468) :=
  ⟨rfl, rfl, rfl⟩

/-- Source: R121, R122 (by hand: op 0x15, d 1, a 9, off 128), R123, R126, R127. -/
theorem test_decode_memory :
    decodeWord 0x50E20010 = .ok (.ldw (.x 7) ⟨.x 2, false⟩ 16) ∧
    decodeWord 0x54290080 = .ok (.pref true ⟨.x 9, false⟩ 128) ∧
    decodeWord 0x61274004 = .ok (.stw ⟨.x 9, false⟩ ⟨.x 7, true⟩ 4) ∧
    decodeWord 0x686429A1 = .ok (.aadd (.x 3) ⟨.x 4, false⟩ ⟨.x 5, false⟩ .ar .D) ∧
    decodeWord 0x6C6429A8 = .ok (.cas 3 ⟨.x 4, false⟩ ⟨.x 5, false⟩ .ar .acq .D) :=
  ⟨rfl, rfl, rfl, rfl, rfl⟩

/-- Source: R43, R129, R131, R135, R136. -/
theorem test_decode_control :
    decodeWord 0x84603FFE = .ok (.bne ⟨.x 3, false⟩ ⟨.x 0, false⟩ (-2)) ∧
    decodeWord 0x9AE00064 = .ok (.jal (.x 23) 100) ∧
    decodeWord 0xA0C40001 = .ok (.loop ⟨.x 6, false⟩ true 1) ∧
    decodeWord 0xA4010005 = .ok (.bes .MX .fault 5) ∧
    decodeWord 0xA8000000 = .ok (.align) :=
  ⟨rfl, rfl, rfl, rfl, rfl⟩

/-- Source: R139 to R144. -/
theorem test_decode_synchronisation :
    decodeWord 0xB0002400 = .ok (.phase .rel .D) ∧
    decodeWord 0xB0000800 = .ok (.phase .sc .P) ∧
    decodeWord 0xB0A00801 = .ok (.waitc .MX ⟨.x 5, false⟩) ∧
    decodeWord 0xB1202002 = .ok (.arrive .rel .K ⟨.x 9, false⟩) ∧
    decodeWord 0xB12A1003 = .ok (.await .acq .K ⟨.x 9, false⟩ ⟨.x 10, false⟩) ∧
    decodeWord 0xB0A00004 = .ok (.sstep ⟨.x 5, false⟩) ∧
    decodeWord 0xB0000005 = .ok (.efence) ∧
    decodeWord 0xB0850006 = .ok (.icsync ⟨.x 4, false⟩ ⟨.x 5, false⟩) :=
  ⟨rfl, rfl, rfl, rfl, rfl, rfl, rfl, rfl⟩

/-- Source: R147 to R149. -/
theorem test_decode_messages :
    decodeWord 0xB1040607 = .ok (.send ⟨.x 8, false⟩ 4 false 3) ∧
    decodeWord 0xB10A0008 = .ok (.sendb ⟨.x 8, false⟩ 10 false) ∧
    decodeWord 0xB1000809 = .ok (.recv 4 ⟨.x 8, false⟩) ∧
    decodeWord 0xB1090A0A = .ok (.recvb 5 ⟨.x 8, false⟩ ⟨.x 9, false⟩) ∧
    decodeWord 0xB0C0000B = .ok (.migr ⟨.x 6, false⟩) :=
  ⟨rfl, rfl, rfl, rfl, rfl⟩

/-- Source: R150 to R153. -/
theorem test_decode_tasks :
    decodeWord 0xB0C00A0C = .ok (.launch (.x 5) ⟨.x 6, false⟩) ∧
    decodeWord 0xB0000E0D = .ok (.take (.x 7)) ∧
    decodeWord 0xB06A000E = .ok (.pass ⟨.x 3, false⟩ 10 false) ∧
    decodeWord 0xB000000F = .ok (.tdone) ∧
    decodeWord 0xB0C00010 = .ok (.mark ⟨.x 6, false⟩) :=
  ⟨rfl, rfl, rfl, rfl, rfl⟩

/-- Source: R161, R163. -/
theorem test_decode_system_and_float :
    decodeWord 0xBC800008 = .ok (.csrr (.x 4) 0x008) ∧
    decodeWord 0xBC061020 = .ok (.csrw (.x 0) ⟨.x 6, false⟩ 0x020) ∧
    decodeWord 0xC0853000 = .ok (.fadd (.x 4) ⟨.x 5, false⟩ ⟨.x 6, false⟩ .rne) :=
  ⟨rfl, rfl, rfl⟩

/-- Source: R240 to R246. -/
theorem test_decode_vector_lanes :
    decodeWord 0xD048C000 = .ok (.vadd 1 2 3 0) ∧
    decodeWord 0xD11000C2 = .ok (.vmul 4 4 0 6) ∧
    decodeWord 0xD048C403 = .ok (.vfma 1 2 3 1 0) ∧
    decodeWord 0xD08D0408 = .ok (.vcmp .lt 2 3 4 0) ∧
    decodeWord 0xD148D009 = .ok (.vsel 5 2 3 4) ∧
    decodeWord 0xD04400EF = .ok (.viadd 1 1 0 7) ∧
    decodeWord 0xD08C0C11 = .ok (.vcvt .f2b 2 3) :=
  ⟨rfl, rfl, rfl, rfl, rfl, rfl, rfl⟩

/-- Source: R247 to R250. -/
theorem test_decode_vector_moves :
    decodeWord 0xD0880013 = .ok (.vrsq 2 2) ∧
    decodeWord 0xD0040017 = .ok (.vred .sum 1) ∧
    decodeWord 0xD08000D8 = .ok (.vmovBroadcast 2 6) ∧
    decodeWord 0xD0040818 = .ok (.vmovGet 1 0) ∧
    decodeWord 0xD0480419 = .ok (.vqnt .se4 1 2) ∧
    decodeWord 0xD0C4041A = .ok (.vdq .se4 3 1) :=
  ⟨rfl, rfl, rfl, rfl, rfl, rfl⟩

/-- Source: R254 to R257. -/
theorem test_decode_vector_memory :
    decodeWord 0xD4400080 = .ok (.vld .w 1 4) ∧
    decodeWord 0xD48C0082 = .ok (.vgth .w 2 3 4) ∧
    decodeWord 0xD408C083 = .ok (.vsct .w 2 3 4) ∧
    decodeWord 0xD40C0104 = .ok (.vredput 3 8) ∧
    decodeWord 0xD5000125 = .ok (.vredget 4 9) :=
  ⟨rfl, rfl, rfl, rfl, rfl⟩

/-- Source: by hand from format C and fn 0 to 3 of opcode 0x36: VCLAIM x7, x5 has a 5 and sel 7. -/
theorem test_decode_grants :
    decodeWord 0xD8A00E00 = .ok (.vclaim (.x 7) ⟨.x 5, false⟩) :=
  rfl

/-- Source: the word column of the matrix instructions. -/
theorem test_decode_matrix :
    decodeWord 0xE0A60000 = .ok (.mgeo ⟨.x 5, false⟩ ⟨.x 6, false⟩) ∧
    decodeWord 0xE0E00001 = .ok (.midx ⟨.x 7, false⟩) ∧
    decodeWord 0xE1090002 = .ok (.mmul ⟨.x 8, false⟩ ⟨.x 9, false⟩) ∧
    decodeWord 0xE1400003 = .ok (.mzero ⟨.x 10, false⟩) ∧
    decodeWord 0xE0000004 = .ok (.mscac) ∧
    decodeWord 0xE10B0005 = .ok (.mdrn ⟨.x 8, false⟩ ⟨.x 11, false⟩) ∧
    decodeWord 0xE1001806 = .ok (.mchk (.x 12) ⟨.x 8, false⟩) :=
  ⟨rfl, rfl, rfl, rfl, rfl, rfl, rfl⟩

/-- Source: the word column of the gallery instructions. -/
theorem test_decode_gallery :
    decodeWord 0xE4A60000 = .ok (.gtw ⟨.x 5, false⟩ ⟨.x 6, false⟩) ∧
    decodeWord 0xE4A70001 = .ok (.gtd ⟨.x 5, false⟩ ⟨.x 7, false⟩) ∧
    decodeWord 0xE4A00802 = .ok (.gcmt (.x 4) ⟨.x 5, false⟩) ∧
    decodeWord 0xE4A60003 = .ok (.ginj ⟨.x 5, false⟩ ⟨.x 6, false⟩) ∧
    decodeWord 0xE4E90004 = .ok (.gtake ⟨.x 7, false⟩ ⟨.x 9, false⟩) ∧
    decodeWord 0xE56C1405 = .ok (.gctr (.x 10) ⟨.x 11, false⟩ ⟨.x 12, false⟩) ∧
    decodeWord 0xE4A60006 = .ok (.gbind ⟨.x 5, false⟩ ⟨.x 6, false⟩) :=
  ⟨rfl, rfl, rfl, rfl, rfl, rfl, rfl⟩

/-- Source: the word column of the ferry instructions. -/
theorem test_decode_ferry :
    decodeWord 0xE8A00800 = .ok (.psbind (.x 4) ⟨.x 5, false⟩) ∧
    decodeWord 0xE8C70001 = .ok (.psread ⟨.x 6, false⟩ ⟨.x 7, false⟩) ∧
    decodeWord 0xE8C80002 = .ok (.psadd ⟨.x 6, false⟩ ⟨.x 8, false⟩) ∧
    decodeWord 0xE8C01403 = .ok (.psmass 10 ⟨.x 6, false⟩) ∧
    decodeWord 0xE8C01804 = .ok (.psdis (.x 12) ⟨.x 6, false⟩) ∧
    decodeWord 0xE8A90005 = .ok (.psjoin ⟨.x 5, false⟩ ⟨.x 9, false⟩) ∧
    decodeWord 0xE8CB0006 = .ok (.psleave ⟨.x 6, false⟩ ⟨.x 11, false⟩) ∧
    decodeWord 0xE8CD0007 = .ok (.psqui ⟨.x 6, false⟩ ⟨.x 13, false⟩) ∧
    decodeWord 0xE9C00008 = .ok (.psstep ⟨.x 14, false⟩) ∧
    decodeWord 0xE8C01409 = .ok (.psheld 10 ⟨.x 6, false⟩) :=
  ⟨rfl, rfl, rfl, rfl, rfl, rfl, rfl, rfl, rfl, rfl⟩

/-- Source: the word column of the memory instructions. -/
theorem test_decode_memory_system :
    decodeWord 0xECA00800 = .ok (.cpy (.x 4) ⟨.x 5, false⟩) ∧
    decodeWord 0xECC70001 = .ok (.stfl ⟨.x 6, false⟩ ⟨.x 7, false⟩) ∧
    decodeWord 0xECC70002 = .ok (.stiv ⟨.x 6, false⟩ ⟨.x 7, false⟩) ∧
    decodeWord 0xECC70003 = .ok (.stfil ⟨.x 6, false⟩ ⟨.x 7, false⟩) ∧
    decodeWord 0xED090004 = .ok (.tlbinv ⟨.x 8, false⟩ ⟨.x 9, false⟩) ∧
    decodeWord 0xED4B0005 = .ok (.demote ⟨.x 10, false⟩ ⟨.x 11, false⟩) ∧
    decodeWord 0xED400006 = .ok (.promote ⟨.x 10, false⟩) :=
  ⟨rfl, rfl, rfl, rfl, rfl, rfl, rfl⟩

/-- Source: R45, R47, R48: PHASE with sel[9] set, an fn that opcode 0x2C leaves out, a LOOP of length 0, ADD with d = q0, and
ADD with a = q7. -/
theorem test_decode_refuses :
    decodeWord 0xB0002600 = .error .reservedField ∧ decodeWord 0xB0002411 = .error .illegalOp ∧
    decodeWord 0xA0A00000 = .error .reservedField ∧ decodeWord 0x07042C00 = .error .queueWrite ∧
    decodeWord 0x047F2C00 = .error .reservedField := ⟨rfl, rfl, rfl, rfl, rfl⟩

/-! ## Witnesses: small states

`at0 f`: the state after reset with core 0 changed by `f`. -/

def at0 (f : Core → Core) : State := { State.reset with cores := [(0, f (Core.reset 0))] }
/-- A task-level core that runs, with these register values. -/
def runs (l : List (XReg × Word)) (c : Core) : Core :=
  { c with run := .running, pc := 0x1000, regs := l.foldl (fun r x => r.put x.1 x.2 false) c.regs }
/-- The leaf of page 0 of address space 0 in the TLBs of die 0: frame 0. -/
def leaf0 : TlbEntry :=
  { die := 0, port := 0, asid := 0, page := 0, run := 0, frame := 0, tier := 0, inpl := false, w := true, x := true, leaf := 0 }
def paged (s : State) : State := { s with ms := { s.ms with tlb := (List.range 4).map (fun p => { leaf0 with port := p }) } }
/-- Frame 0 lies in host memory, whose home is no die. -/
def hosted (s : State) : State := { s with ms := { s.ms with hostRuns := [(0, 1)] } }
def x1 : Src := ⟨.x 1, false⟩
def x2 : Src := ⟨.x 2, false⟩
def q0 : Src := ⟨.q 0, false⟩
def q1 : Src := ⟨.q 1, false⟩
/-- Part of the state that an outcome goes on with. -/
def nextOf {α : Type} (f : State → α) : Out → Option α
  | .next t => some (f t)
  | _ => none
def regs2 (a b : Word) : State := at0 (runs [(1, a), (2, b)])

/-- Core 0 with x1 = 0x100, x2 = 0x12345678, page 0 paged. -/
def mem0 (f : Core → Core) : State := paged (at0 (fun c => f (runs [(1, 0x100), (2, 0x12345678)] c)))
def launch0 : Launch :=
  { src := .queue 0 0, part := 0, asid := 0, ident := 7, prio := 0, cache := 4, clustersReq := 0, doneAddr := 0,
    levels := [⟨1, 2, 0⟩], flights := [⟨0x1000, 0, 0⟩], mask := 1 }
def task0 : Task := { uid := 5, launch := 1, flight := 0, row := 0, col := 0, item := [] }
def tasked (l : Launch) (f : Core → Core) : State :=
  { mem0 (fun c => f { c with task := some task0 }) with launches := [(1, l)] }

theorem run_ok {α β : Type} {x : (α ⊕ β) × State} (h : x.1.isLeft = true) : ∃ a t, x = (.inl a, t) := by
  obtain ⟨a, t⟩ := x
  cases a with
  | inl a => exact ⟨a, t, rfl⟩
  | inr b => simp at h
theorem some_of {α : Type} {x : Option α} (h : x.isSome = true) : ∃ y, x = some y := Option.isSome_iff_exists.mp h

/-! ### Encoding, memory, the step -/

theorem test_witness_round_trip : (Instr.addi (.x 5) ⟨.x 0, false⟩ 2).isWord = true ∧ (Instr.addi (.x 5) ⟨.x 0, false⟩ 2).wellFormed = true := by
  decide
theorem test_witness_absent_opcode : (0xFC000000 : Word).toNat / 2 ^ 26 = 0x3F ∧ decodeWord 0xFC000000 = .error .illegalOp := ⟨rfl, rfl⟩
theorem test_witness_settles : Memory.wf [⟨4, 1⟩] = true ∧ Memory.wf [⟨4, 0⟩] = false ∧ Memory.wf [⟨5, 1⟩, ⟨4, 1⟩] = false := by decide
/-- Source: R31's covering, K inside the cluster, D inside the die. -/
theorem test_published_byte :
    (({} : MemSys).append [(64, 7)] .K (.core 0) none).byteAt (.core 7) 64 = 7 ∧
    (({} : MemSys).append [(64, 7)] .K (.core 0) none).byteAt (.core 8) 64 = 0 ∧
    (({} : MemSys).append [(64, 7)] .D (.core 0) none).byteAt (.core 127) 64 = 7 ∧
    (({} : MemSys).append [(64, 7)] .D (.core 0) none).byteAt (.core 128) 64 = 0 := by decide +kernel

/-- Core 0 about to fetch ADDI x5, x0, 2 (the first word of R134's task). -/
def placed : State := State.reset.withFetchWord 32 0x08A00002
def turned : State := { placed with sched := placed.sched.tail, cur := 0, ck := placed.ck + 1 }

theorem test_step_runs_decoded :
    placed.sched.head? = some (.core 0) ∧ (placed.core 0).run = .running ∧ (placed.core 0).dbg.haltReq = false ∧
    (placed.core 0).saveReq = none ∧ (placed.core 0).standing = none ∧ (placed.core 0).breakpoint = none ∧ (placed.core 0).pc.toNat % 4 = 0 ∧
    nextOf (fun t => ((t.core 0).regs.get 5, (t.core 0).pc)) (step placed) = some (2, 4) := by decide +kernel
theorem test_witness_fetch : ∃ t, fetchWord turned 0 (turned.core 0).pc = .word 0x08A00002 t := ⟨_, rfl⟩
theorem test_witness_fetch_reads :
    let c := placed.core 0
    (c.pc.toNat % 4 = 0 ∧ c.fbuf = [] ∧ (placed.cluster 0).icache = [] ∧ placed.inBerth c.masid c.pc.toNat = false ∧
      placed.inBlock c.masid c.pc.toNat = false ∧ placed.ms.own = []) ∧
    ((placed.ms.tlb.find? (·.covers (coreDie 0) (hallBank c.masid c.pc.toNat % 4) c.masid (c.pc.toNat / 65536))).map (·.x)) = some true := by
  decide +kernel
theorem test_witness_takes_event :
    (Instr.land 0).isWord = false ∧ eventCore (.land 0) = some 0 ∧ eventDie (.land 0) = none ∧
    eventCore (.dieLost 3) = none ∧ eventDie (.dieLost 3) = some 3 := by decide +kernel

/-! ### Integer and float results, registers -/

/-- Source: R110, R113 by hand: 0xFFFFFFFF + 2 wraps to 1; the high half of −1 × 2. -/
theorem test_integer_results :
    (regs2 0xFFFFFFFF 2).ready { a := x1, b := x2, dst := some (.x 3) } = true ∧
    nextOf (fun t => (t.core 0).regs.get 3) (exec (.add (.x 3) x1 x2) (regs2 0xFFFFFFFF 2)) = some 1 ∧
    nextOf (fun t => (t.core 0).regs.get 3) (exec (.mulh (.x 3) x1 x2) (regs2 0xFFFFFFFF 2)) = some 0xFFFFFFFF := by decide +kernel
theorem test_witness_integer : ∃ f, intOp (.add (.x 3) x1 x2) = some ({ a := x1, b := x2, dst := some (.x 3) }, f) := ⟨_, rfl⟩
/-- Source: R43's worked word of ADD x3, x4!, x5. -/
theorem test_integer_word : intWord (.add (.x 3) ⟨.x 4, true⟩ ⟨.x 5, false⟩) = some 0x04642C00 := by decide
/-- Source: R114 by hand: −7 ÷ 2 is −3. -/
theorem test_divides : (regs2 0xFFFFFFF9 2).ready { a := x1, b := x2, dst := some (.x 3) } = true ∧
    nextOf (fun t => ((t.core 0).acc.map (·.op), (t.core 0).regs.isFull 3)) (exec (.div (.x 3) x1 x2) (regs2 0xFFFFFFF9 2)) =
      some ([.divide 0xFFFFFFFD], false) := by decide +kernel
theorem test_witness_divides : ∃ f, divOp (.div (.x 3) x1 x2) = some (.x 3, x1, x2, f) := ⟨_, rfl⟩
def divide0 : State := at0 (fun c => { runs [] c with acc := [{ op := .divide 9, d := .x 3 }], regs := c.regs.empty 3 })
theorem test_divide_completes : (divide0.core 0).acc[0]? = some { op := .divide 9, d := .x 3 } ∧
    nextOf (fun t => ((t.core 0).regs.get 3, (t.core 0).regs.isFull 3, (t.core 0).acc)) (exec (.divideComplete 0 0) divide0) = some (9, true, []) := by
  decide +kernel
/-- Source: IEEE 754 by hand: 1 + 2 is 3, and 1 + 2^−24 rounds to even. -/
theorem test_float_results : (regs2 0x3F800000 0x40000000).ready { a := x1, b := x2, dst := some (.x 3) } = true ∧
    nextOf (fun t => (t.core 0).regs.get 3) (exec (.fadd (.x 3) x1 x2 .rne) (regs2 0x3F800000 0x40000000)) = some 0x40400000 ∧
    fpAdd .rne 0x3F800000 0x33800000 = 0x3F800000 ∧ fpAdd .rup 0x3F800000 0x33800000 = 0x3F800001 := by decide +kernel
theorem test_witness_float : (∃ f, floatOp (.fadd (.x 3) x1 x2 .rne) = some ({ a := x1, b := x2, dst := some (.x 3) }, f)) ∧
    finite 0x3F800000 = true ∧ nan 0x7FC00000 = true ∧ magnitude 0x80000000 = 0 := ⟨⟨_, rfl⟩, by decide, by decide, by decide⟩
/-- Source: R67 by hand: 2.5 rounds to 2 to even and 3 up; −1 × 2^40 clamps. -/
theorem test_float_conversions : fcvtw .rne 0x40200000 = 2 ∧ fcvtw .rup 0x40200000 = 3 ∧ fcvtw .rne 0xD3800000 = 0x80000000 ∧
    fcvtw .rne 0x7FC00000 = 0 := by decide +kernel
def pops2 : State := at0 (fun c => { runs [] c with regs := { c.regs with q := c.regs.q.set 1 [⟨5, false⟩, ⟨6, false⟩] } })
/-- Source: R41: ADD x3, q1, q1 takes the older entry for a. -/
theorem test_operand_values : (pops2.vals { a := some q1, b := some q1 }).a = 5 ∧ (pops2.vals { a := some q1, b := some q1 }).b = 6 := by
  decide +kernel

/-! ### Control flow -/

theorem test_witness_branches : ∃ f, branchOp (.blt x1 x2 (-2)) = some (x1, x2, -2, f) := ⟨_, rfl⟩
/-- Source: R128 by hand: −1 is below 1 as INT32 and above it as UINT32; the target is two words back. -/
theorem test_branches : (regs2 0xFFFFFFFF 1).ready { a := x1, b := x2 } = true ∧
    nextOf (fun t => (t.core 0).pc) (exec (.blt x1 x2 (-2)) (regs2 0xFFFFFFFF 1)) = some 0xFF8 ∧
    nextOf (fun t => (t.core 0).pc) (exec (.bltn x1 x2 (-2)) (regs2 0xFFFFFFFF 1)) = some 0x1004 := by decide +kernel
theorem test_jumps : (regs2 0x2000 1).ready { dst := some (.x 3) } = true ∧ (regs2 0x2000 1).ready { a := x1, dst := some (.x 3) } = true ∧
    nextOf (fun t => ((t.core 0).pc, (t.core 0).regs.get 3)) (exec (.jalr (.x 3) x1 4) (regs2 0x2000 1)) = some (0x2004, 0x1004) ∧
    (wrap (0x2000 + signExt (6 : BitVec 15))).toNat % 4 ≠ 0 ∧
    nextOf (fun t => ((t.core 0).tr.cause, (t.core 0).tr.addr, (t.core 0).regs.get 3)) (exec (.jalr (.x 3) x1 6) (regs2 0x2000 1)) =
      some (4, 0x2006, 0) := by decide +kernel
def loops (l0 l1 : Loop) : State := at0 (fun c => { runs [(1, 3), (2, 0)] c with loop0 := l0, loop1 := l1 })
/-- Source: R131 and the table of R134; a count of 0 that ends where LC0 ends steps LC0. -/
theorem test_loop_sets : (loops {} {}).ready { a := some x1, loop := some false } = true ∧ ((loops {} {}).vals { a := some x1 }).a.toNat ≠ 0 ∧
    ((loops {} {}).vals { a := some x2 }).a.toNat = 0 ∧
    nextOf (fun t => (t.core 0).loop0) (exec (.loop x1 false 2) (loops {} {})) = some ⟨3, 0x1004, 0x100C, true⟩ ∧
    nextOf (fun t => ((t.core 0).loop0, (t.core 0).pc)) (exec (.loop x2 true 2) (loops ⟨2, 0x0FF0, 0x100C, true⟩ {})) =
      some (⟨1, 0x0FF0, 0x100C, true⟩, 0x0FF0) := by decide +kernel
theorem test_loop_faults : let s := loops ⟨2, 0x0FF0, 0x100C, true⟩ {}
    (s.core 0).engineCause { a := some x1, loop := some false } = none ∧ (s.core 0).emptiness [(x1, false)] [] = [(x1, false, false)] ∧
    (s.core 0).loop0.active = true ∧
    nextOf (fun t => ((t.core 0).tr.cause, (t.core 0).pc)) (exec (.loop x1 false 2) s) = some (7, 0) := by decide +kernel
def nested (n0 n1 : Word) : Core := { runs [] (Core.reset 0) with loop0 := ⟨n0, 0x0FF0, 0x1004, true⟩, loop1 := ⟨n1, 0x0FF8, 0x1004, true⟩ }
/-- Source: R132 and the task of R134: LC1 steps first, LC0 only where LC1 ended. -/
theorem test_loop_backs : (nested 2 3).priv = .task ∧ (nested 2 3).up.inH = false ∧ (nested 2 3).loop0.le = wrap ((nested 2 3).pc.toNat + 4) ∧
    (nested 2 3).advance.pc = 0x0FF8 ∧ (nested 2 3).advance.loop1.lc = 2 ∧ (nested 2 1).advance.pc = 0x0FF0 ∧
    (nested 2 1).advance.loop1.active = false ∧ (nested 1 0).advance.pc = 0x1004 ∧ (nested 1 1).advance.loop0.active = false := by decide
theorem test_witness_loop_passes : let c := { nested 3 0 with loop1 := {} }
    c.priv = .task ∧ c.up.inH = false ∧ c.loop1.active = false ∧ c.loop0.active = true ∧ c.loop0.le = c.pc + 4 ∧ 2 < c.loop0.lc.toNat := by decide
/-- Source: R133: LE is outside the body, LS inside. -/
theorem test_transfers_leave_loops : ((nested 2 3).jump 0 0x1004).loop0.active = false ∧ ((nested 2 3).jump 0 0x0FF0).loop0.active = true ∧
    ((nested 2 3).jump 0 0x0FF0).loop1.active = false := by decide
theorem test_engine_branches : (regs2 0 0).ready { engs := [.MX] } = true ∧
    nextOf (fun t => (t.core 0).pc) (exec (.bes .MX .busy 5) (regs2 0 0)) = some 0x1004 ∧
    nextOf (fun t => (t.core 0).pc) (exec (.bec .MX .busy 5) (regs2 0 0)) = some 0x1014 ∧
    nextOf (fun t => (t.core 0).pc) (exec (.bes .VX .fault 5) (at0 (fun c => { runs [] c with vec := { flt := { fault := true } } }))) =
      some 0x1014 := by decide +kernel
def mate (k : Nat) (st : Option Instr) : Core :=
  { runs [] (Core.reset k) with task := some { uid := k, launch := 1, flight := 0, row := 0, col := 0, item := [] }, standing := st }
def mates (a b : Option Instr) : State := { State.reset with cores := [(0, mate 0 a), (1, mate 1 b)] }
/-- Source: R103: with its mate in the same ALIGN a core goes on and frees it; otherwise it stands. -/
theorem test_aligns : (mates none (some .align)).flightMates 0 = [1] ∧ (mates none (some .align)).ready {} = true ∧
    nextOf (fun t => ((t.core 0).pc, (t.core 1).freed)) (exec .align (mates none (some .align))) = some (0x1004, true) ∧
    0 < ((mates none none).core 0).alignlim ∧ (mates none none).ready {} = true ∧
    nextOf (fun t => ((t.core 0).pc, (t.core 0).standing)) (exec .align (mates none none)) = some (0x1000, some .align) := by decide +kernel
theorem test_align_release : let s := { mates (some .align) none with ck := 4096 }
    (s.core 0).unstepped = true ∧ s.flightMates 0 = [1] ∧ (s.core 0).waitSince + (s.core 0).alignlim ≤ s.ck ∧
    nextOf (fun t => ((t.core 0).pc, (t.core 0).standing)) (exec (.alignRelease 0) s) = some (0x1004, none) := by decide +kernel

/-! ### Loads, stores, atomics -/

theorem test_witness_loads : loadOp (.ldw (.x 3) x1 0) = some (.x 3, x1, 0, 4, false) ∧ storeOp (.sth x1 x2 2) = some (x1, x2, 2, 2, false) ∧
    ((mem0 id).core 0).watch true false 0x100 = none ∧ ((mem0 id).core 0).watch false true 0x102 = none := by decide +kernel
theorem test_loads_issue : (mem0 id).ready { a := some x1, dst := some (.x 3), moves := true } = true ∧
    nextOf (fun t => ((t.core 0).cnt.LD, (t.core 0).regs.isFull 3, (t.core 0).acc.map (·.addr), (t.core 0).pc))
      (exec (.ldw (.x 3) x1 4) (mem0 id)) = some (1, false, [0x104], 0x1004) ∧
    nextOf (fun t => ((t.core 0).tr.cause, (t.core 0).tr.addr, (t.core 0).cnt.LD)) (exec (.ldw (.x 3) x1 2) (mem0 id)) = some (4, 0x102, 0) := by
  decide +kernel
theorem test_witness_translates : (∃ t, translate (mem0 id) 0 0 0x102 .store = (.ok 0x102 false, t)) ∧
    (∃ t, translate (mem0 id) 0 0 0x104 .load = (.ok 0x104 false, t)) ∧
    (∃ t, translate (mem0 id) 0 0 0x10000 .load = (.bad 0x10 0, t)) ∧ (∃ t, translate (mem0 id) 0 0 0x10000 .store = (.bad 0x10 0, t)) :=
  ⟨⟨_, rfl⟩, ⟨_, rfl⟩, ⟨_, rfl⟩, ⟨_, rfl⟩⟩
def load0 (a : Access) : Core → Core := fun c =>
  { c with acc := [a], regs := c.regs.empty 3, cnt := { c.cnt with LD := 1 },
           buf := [{ va := 0x101, asid := 0, pa := 0x101, bytes := [0x80] }] }
def byte0 : Access := { op := .load 2 true, d := .x 3, addr := 0x100 }
/-- Source: R108, R121: the buffered byte 0x80 over the history's 7; the half word 0x8007 is negative. -/
theorem test_loads_complete : let s := { mem0 (load0 byte0) with ms := { (mem0 id).ms with mem := [⟨0x100, 7⟩] } }
    (s.core 0).acc[0]? = some byte0 ∧ s.ms.owned (0x100 / 64) = false ∧
    nextOf (fun t => ((t.core 0).regs.get 3, (t.core 0).regs.isFull 3, (t.core 0).cnt.LD, (t.core 0).acc.length)) (exec (.loadComplete 0 0 47) s) =
      some (0xFFFF8007, true, 0, 0) := by decide +kernel
theorem test_loads_fail : let a : Access := { op := .load 4 false, d := .x 3, addr := 0x10000 }
    ((mem0 (load0 a)).core 0).acc[0]? = some a ∧
    nextOf (fun t => ((t.core 0).regs.isFull 3, (t.core 0).cnt.LD, (t.core 0).acc.map (·.st))) (exec (.loadTranslationFault 0 0) (mem0 (load0 a))) =
      some (false, 0, [.recorded 0x10 0x10000 0]) := by decide +kernel
/-- Source: R123: the low half of B enters the buffer, no history changes, and RSTW raises RM. -/
theorem test_stores_buffer : (mem0 id).ready { a := some x1, b := some x2, moves := true } = true ∧
    nextOf (fun t => ((t.core 0).buf.map (fun e => (e.va, e.bytes)), t.ms.byteAt (.core 0) 0x102, (t.core 0).cnt.ST)) (exec (.sth x1 x2 2) (mem0 id)) =
      some ([(0x102, [0x78, 0x56])], 0, 0) ∧
    nextOf (fun t => ((t.core 0).cnt.RM, (t.core 0).buf.map (·.remote))) (exec (.rstw x1 x2 4) (mem0 id)) = some (1, [true]) ∧
    nextOf (fun t => (t.core 0).tr.cause) (exec (.stw x1 x2 2) (mem0 id)) = some 4 ∧
    nextOf (fun t => (t.core 0).buf) (exec (.stw x1 x2 4) (mem0 (fun c => { c with fenced := true }))) = some [] ∧
    nextOf (fun t => (t.core 0).standing) (exec (.stw x1 x2 4) { mem0 id with ms := { (mem0 id).ms with own := [(4, .CP, 1, 0)] } }) =
      some (some (.stw x1 x2 4)) ∧
    nextOf (fun t => ((t.core 0).tr.cause, (t.core 0).tr.addr)) (exec (.stw ⟨.x 5, false⟩ x2 0) (mem0 (fun c => { c with regs := c.regs.put 5 0x10000 false }))) =
      some (0x10, 0x10000) := by decide +kernel
theorem test_witness_atomics : atomicOf (.aadd (.x 3) x1 x2 .rel .D) = some (.x 3, x1, x2, .rel, .D, .add) := rfl
theorem test_atomics_issue :
    (mem0 id).ready { a := some x1, b := some x2, dst := some (.x 3), moves := true } = true ∧
    ((mem0 id).core 0).watch true true 0x100 = none ∧ ((mem0 id).core 0).readsDone = true ∧
    nextOf (fun t => ((t.core 0).cnt.LD, (t.core 0).acc.map (fun a => (a.addr, a.b)))) (exec (.aadd (.x 3) x1 x2 .rel .D) (mem0 id)) =
      some (1, [(0x100, 0x12345678)]) := by decide +kernel
def atom0 (op : AccOp) : State := { mem0 (fun c => { c with acc := [{ op, d := .x 3, addr := 0x100, b := 1, expected := 5, pa := some 0x100 }], regs := c.regs.empty 3, cnt := { c.cnt with LD := 1 } })
  with ms := { (mem0 id).ms with mem := [⟨0x100, 5⟩] } }
/-- Source: the trace of R126: an AADD of 1 at K reads 5 and appends 6 at K; a failed CAS appends nothing. -/
theorem test_atomics_perform : ((atom0 (.atomic .add .rlx .K)).core 0).out = [] ∧ (atom0 (.atomic .add .rlx .K)).ms.owned 4 = false ∧
    (atom0 (.atomic .add .rlx .K)).linePoison 4 = false ∧
    nextOf (fun t => ((t.core 0).regs.get 3, t.ms.byteAt (.core 7) 0x100, t.ms.byteAt (.core 8) 0x100, (t.core 0).cnt.LD))
      (exec (.loadComplete 0 0 47) (atom0 (.atomic .add .rlx .K))) = some (5, 6, 5, 0) ∧
    nextOf (fun t => ((t.core 0).regs.get 3, t.ms.byteAt (.core 0) 0x100)) (exec (.loadComplete 0 0 47) (atom0 (.cas .rlx .acq .D))) = some (5, 1) ∧
    nextOf (fun t => ((t.core 0).regs.isFull 3)) (exec (.loadComplete 0 0 47) ((atom0 (.cas .rlx .acq .D)).updMs (fun m => { m with own := [(4, .CP, 1, 0)] }))) =
      some false := by decide +kernel
/-- Source: R122, R160. -/
theorem test_hints : (mem0 id).ready { a := some x1 } = true ∧ (mem0 id).ready { a := some x1, b := some x2 } = true ∧
    nextOf (fun t => ((t.core 0).pc, t.ms == (mem0 id).ms)) (exec (.pref true x1 3) (mem0 id)) = some (0x1004, true) ∧
    nextOf (fun t => (t.core 0).pc) (exec (.tmark x1 x2) (mem0 id)) = some 0x1004 := by decide +kernel
def land0 : State := mem0 (fun c => { c with out := [.entry { va := 0x100, asid := 0, pa := 0x100, bytes := [9] } .D, .mark .D none], cnt := { c.cnt with ST := 1 } })
theorem test_lands : land0.saved.find? (fun x => x.2.core == 0 && !x.2.ctx.out.isEmpty) = none ∧ land0.ms.owned 4 = false ∧
    nextOf (fun t => (t.ms.byteAt (.core 127) 0x100, t.ms.byteAt (.core 128) 0x100, (t.core 0).cnt.ST, (t.core 0).out)) (exec (.land 0) land0) =
      some (9, 0, 0, [.mark .D none]) ∧
    nextOf (fun t => (t.core 0).out) (exec (.land 0) (land0.updCore 0 (fun c => { c with out := [.mark .D none] }))) = some [] := by decide +kernel

/-! ### Phases, counters, arrivals -/

def buffered : State := mem0 (fun c => { c with buf := [{ va := 0x100, asid := 0, pa := 0x100, bytes := [9, 8] }],
                                                snap := [{ line := 5, bytes := [] }] })
theorem test_phases : buffered.ready { moves := true } = true ∧ (buffered.core 0).readsDone = true ∧ (buffered.core 0).pubDone = false ∧
    nextOf (fun t => ((t.core 0).buf.length, (t.core 0).out.length, (t.core 0).cnt.ST, (t.core 0).snap.length)) (exec (.phase .rel .D) buffered) =
      some (0, 2, 1, 1) ∧
    nextOf (fun t => ((t.core 0).buf.length, (t.core 0).snap.length)) (exec (.phase .acq .D) buffered) = some (1, 0) := by decide +kernel
/-- Source: R139: after PHASE.SC.D the die reads the bytes, another die does not. -/
theorem test_phase_sc : (syncPoint buffered 0 .D).isSome = true ∧ buffered.ms.own = [] ∧ buffered.ms.moves = [] ∧ buffered.viral = false ∧
    nextOf (fun t => (t.ms.byteAt (.core 127) 0x101, t.ms.byteAt (.core 128) 0x101, (t.core 0).buf.length, (t.core 0).out.length, (t.core 0).snap.length))
      (exec (.phase .sc .D) buffered) = some (8, 0, 0, 0, 0) := by decide +kernel
theorem test_witness_sync_point : (∃ t, syncPoint buffered 0 .D = some t) ∧ (buffered.core 0).buf.length = 1 ∧ covers .D (.core 0) (.core 127) = true ∧
    (buffered.core 0).dbg.tracectl / 8 % 2 = 0 := ⟨⟨_, rfl⟩, rfl, rfl, rfl⟩
/-- Source: R140: at most A ends the wait, and an engine's counter acquires. -/
theorem test_counter_waits : buffered.ready { a := some x1 } = true ∧ buffered.ready { a := some x1, engs := [.MX], moves := true } = true ∧
    nextOf (fun t => ((t.core 0).pc, (t.core 0).snap.length)) (exec (.waitc .ST ⟨.x 0, false⟩) buffered) = some (0x1004, 1) ∧
    nextOf (fun t => ((t.core 0).pc, (t.core 0).snap.length)) (exec (.waitc .MX ⟨.x 0, false⟩) buffered) = some (0x1004, 0) ∧
    nextOf (fun t => (t.core 0).standing) (exec (.waitc .ST ⟨.x 0, false⟩) (mem0 (fun c => { c with cnt := { ST := 1 } }))) =
      some (some (.waitc .ST ⟨.x 0, false⟩)) := by decide +kernel
theorem test_arrives : (mem0 id).ready { a := some x1, moves := true } = true ∧ ((mem0 id).core 0).watch true true 0x100 = none ∧
    nextOf (fun t => ((t.core 0).cnt.ST, (t.core 0).acc.map (·.addr), (t.core 0).pc)) (exec (.arrive .rel .K x1) (mem0 id)) =
      some (1, [0x100], 0x1004) ∧
    nextOf (fun t => (t.core 0).tr.cause) (exec (.arrive .rel .K x1) (mem0 (fun c => { c with regs := c.regs.put 1 0x102 false }))) = some 4 := by
  decide +kernel
def arrive0 : State := mem0 (fun c => { c with acc := [{ op := .arrive .K, d := .x 0, addr := 0x100, pa := some 0x100 }], cnt := { ST := 1 } })
theorem test_arrive_performs : (arrive0.core 0).out = [] ∧ arrive0.ms.owned 4 = false ∧ arrive0.linePoison 4 = false ∧
    nextOf (fun t => (t.ms.byteAt (.core 7) 0x100, t.ms.byteAt (.core 8) 0x100, (t.core 0).cnt.ST)) (exec (.loadComplete 0 0 47) arrive0) =
      some (1, 0, 0) := by decide +kernel
def await0 (b : Word) : State := mem0 (fun c => { c with regs := c.regs.put 2 b false, snap := [{ line := 4, bytes := [] }, { line := 5, bytes := [] }] })
/-- Source: R141: 0 − 0xFFFFFFFF is 1, below 2^31; 0 − 1 is not. -/
theorem test_awaits : (await0 0).ready { a := some x1, b := some x2, moves := true } = true ∧ (await0 0).lineLost 4 = false ∧
    ((await0 0).core 0).watch true false 0x100 = none ∧
    nextOf (fun t => ((t.core 0).pc, (t.core 0).snap.length)) (exec (.await .rlx .D x1 x2) (await0 0xFFFFFFFF)) = some (0x1004, 1) ∧
    nextOf (fun t => ((t.core 0).pc, (t.core 0).snap.length)) (exec (.await .acq .D x1 x2) (await0 0)) = some (0x1004, 0) ∧
    nextOf (fun t => (t.core 0).standing) (exec (.await .acq .D x1 x2) (await0 1)) = some (some (.await .acq .D x1 x2)) := by decide +kernel
theorem test_await_test : let s := (await0 0).updCore 0 (fun c => { c with standing := some (.await .rlx .D x1 x2) })
    nextOf (fun t => ((t.core 0).pc, (t.core 0).standing)) (exec (.awaitTest 0) s) = some (0x1004, none) := by decide +kernel
theorem test_steps : (tasked launch0 id).ready { a := some x1, moves := true } = true ∧ ((tasked launch0 id).core 0).launch = some 1 ∧
    nextOf (fun t => ((tfind t.launches 1).map (fun l => (l.genN, l.arrivals)), (t.core 0).arrived, (t.core 0).standing)) (exec (.sstep x1) (tasked launch0 id)) =
      some (some (some 256, 1), some 0, some (.sstep x1)) ∧
    nextOf (fun t => ((t.core 0).pc, (t.core 0).arrived)) (exec (.sstep x1) (tasked { launch0 with gen := 1 } (fun c => { c with arrived := some 0 }))) =
      some (0x1004, none) ∧
    nextOf (fun t => ((t.core 0).pc, (t.core 0).buf.length)) (exec (.sstep x1) buffered) = some (0x1004, 0) := by decide +kernel
theorem test_step_generation : let s := tasked { launch0 with genN := some 1, arrivals := 1 } (fun c => { c with arrived := some 0, standing := some (.sstep x1) })
    s.participants 1 0 = [0] ∧ (s.core 0).readsDone = true ∧ s.saved = [] ∧ s.ms.own = [] ∧
    nextOf (fun t => (tfind t.launches 1).map (fun l => (l.gen, l.genN, l.arrivals))) (exec (.stepGenerationComplete 1) s) = some (some (1, none, 0)) ∧
    nextOf (fun t => (tfind t.launches 1).map (fun l => l.gen)) (exec (.stepGenerationComplete 1) (tasked { launch0 with genN := some 2, arrivals := 1 } id)) =
      some (some 0) := by decide +kernel
/-- Source: R143: a counter above 0 holds it; a pending error is taken as a trap with EFENCE as the saved instruction. -/
theorem test_error_fences : (mem0 id).ready { engs := [.MX, .VX, .CP, .GL, .PS], moves := true } = true ∧
    nextOf (fun t => (t.core 0).pc) (exec .efence (mem0 id)) = some 0x1004 ∧
    nextOf (fun t => (t.core 0).standing) (exec .efence (mem0 (fun c => { c with cnt := { PS := 1 } }))) = some (some .efence) ∧
    nextOf (fun t => ((t.core 0).tr.cause, (t.core 0).tr.pc)) (exec .efence (mem0 (fun c => { c with tr := { c.tr with imp := [⟨0x72, 4, 8, 0⟩] } }))) =
      some (0x72, 0x1000) := by decide +kernel
def icache0 (f : Core → Core) : State := { mem0 f with clusters := [(0, { icache := [(0, 4, []), (0, 9, [])] })] }
/-- Source: R144: [0x100, 0x101) overlaps line 4 alone; a length of 0 means the whole cache. -/
theorem test_instruction_syncs : (icache0 id).ready { a := some x1, b := some x2, moves := true } = true ∧
    nextOf (fun t => ((t.core 0).pubDone, (t.core 0).standing)) (exec (.icsync x1 x2) (icache0 id)) = some (true, some (.icsync x1 x2)) ∧
    nextOf (fun t => ((t.core 0).pc, (t.cluster 0).icache.map (·.2.1))) (exec (.icsync x1 x2) (icache0 (fun c => { c with pubDone := true, regs := c.regs.put 2 1 false }))) =
      some (0x1004, [9]) ∧
    nextOf (fun t => (t.cluster 0).icache.map (·.2.1)) (exec (.icsync x1 x2) (icache0 (fun c => { c with pubDone := true, regs := c.regs.put 2 0 false }))) =
      some [] := by decide +kernel

/-! ### Messages, items, tasks -/

/-- Core 0 of rank 1, which knows rank 3 as core 9 of this package and rank 4 as core 0 of package 2; x1 names channel 2 of a rank. -/
def sender (op : Word) (f : Core → Core) : State :=
  mem0 (fun c => f { c with rank := some 1, rankCache := [(3, 0x80000009), (4, 0x80000800)], regs := c.regs.put 1 op false })
def withReceiver (s : State) (f : Core → Core) : State := { s with cores := s.cores ++ [(9, f { Core.reset 9 with rank := some 3 })] }
theorem test_witness_sends : (∃ t, resolve (sender 0x02000003 id) 0 3 = (some 0x80000009, t)) ∧ (∃ t, resolve (sender 0x02000003 id) 0 5 = (none, t)) ∧
    entryPkg 0x80000009 = 0 ∧ entryCore 0x80000009 = 9 ∧ entryPkg 0x80000800 = 2 := ⟨⟨_, rfl⟩, ⟨_, rfl⟩, rfl, rfl, rfl⟩
theorem test_sends : (sender 0x02000003 id).ready { a := some x1, bs := (regsFrom 2 2).map (fun r => ⟨.x r, false⟩), moves := true } = true ∧
    ((sender 0x02000003 id).core 0).hand = none ∧ ((sender 0x02000003 id).core 9).fenced = false ∧
    nextOf (fun t => ((t.core 0).standing, (t.core 0).hand)) (exec (.send x1 2 false 2) (sender 0x02000003 id)) =
      some (some (.send x1 2 false 2), some (.msg 3 2 (message [0x12345678, 0] 2 2 1 [] false))) ∧
    nextOf (fun t => (t.core 0).tr.cause) (exec (.send x1 2 false 2) (sender 0x12000003 id)) = some 0x0A ∧
    nextOf (fun t => (t.core 0).tr.cause) (exec (.send x1 2 false 2) (sender 0x02000005 id)) = some 0x0A := by decide +kernel
def sendb0 (a : Word) : State := sender 0x02000003 (fun c => { c with regs := (c.regs.put 2 a false).put 3 4 false })
theorem test_sendb : (sendb0 0x100).ready { a := some x1, b := some x2, ds := (regsFrom 2 2).drop 1, moves := true } = true ∧
    nextOf (fun t => (t.core 0).hand) (exec (.sendb x1 2 false) { sendb0 0x100 with ms := { (mem0 id).ms with mem := [⟨0x100, 7⟩] } }) =
      some (some (.msg 3 2 (message [7] 0 2 1 [7, 0, 0, 0] false))) ∧
    nextOf (fun t => ((t.core 0).tr.cause, (t.core 0).tr.addr)) (exec (.sendb x1 2 false) (sendb0 0x102)) = some (4, 0x102) := by decide +kernel
theorem test_witness_sendb : (∃ t, translateRun (sendb0 0x100) 0 0 .load (vaRange 0x100 4) [] = (.inl [0x100, 0x101, 0x102, 0x103], t)) ∧
    (∃ bs t, readBytes (sendb0 0x100) 0 0x1000 0x100 [0x100, 0x101, 0x102, 0x103] = some (bs, false, t)) := ⟨⟨_, rfl⟩, ⟨_, _, rfl⟩⟩
def hello : Msg := message [5, 6] 2 2 1 [] false
def offering (rank : Nat) (f : Core → Core) : State := sender 0 (fun c => f { c with standing := some (.send x1 2 false 2), hand := some (.msg rank 2 hello) })
/-- Source: R181, R409: into the receive queue, into the berth, refused, and out as packet 0. -/
theorem test_messages_arrive : hello.channel = 2 ∧ hello.payloadSlots = 0 ∧ (withReceiver (offering 3 id) id).rankCore 63 3 = some 9 ∧
    ((offering 3 id).core 0).unstepped = true ∧
    nextOf (fun t => ((t.core 9).recvq, (t.core 0).pc, (t.core 0).standing, (t.core 0).hand)) (exec (.messageArrival 0) (withReceiver (offering 3 id) id)) =
      some ([(2, [hello])], 0x1004, none, none) ∧
    nextOf (fun t => ((tget (t.part 63).berths {} 3).msgs, (t.core 0).pc)) (exec (.messageArrival 0) (offering 3 id)) = some ([hello], 0x1004) ∧
    nextOf (fun t => (t.core 0).tr.cause)
      (exec (.messageArrival 0) ((offering 3 id).updPart 63 (fun p => { p with berths := [(3, { log := 6, msgs := [hello] })] }))) = some 0x0B ∧
    nextOf (fun t => (t.core 0).tr.cause) (exec (.messageArrival 0) (offering 5 id)) = some 0x0A ∧
    nextOf (fun t => ((t.core 0).hand, (tget t.peers {} 2).nextSeq, (t.core 0).pc)) (exec (.messageArrival 0) (offering 4 id)) =
      some (some (.sent 2 0 4 2), 1, 0x1000) := by decide +kernel
theorem test_berth_move : let s := (sender 0 (fun c => { c with rank := some 3 })).updPart 63 (fun p => { p with berths := [(3, { msgs := [hello] })] })
    (tget (s.part 63).berths {} 3).msgs.find? (fun m => m.channel == 2) = some hello ∧
    nextOf (fun t => ((t.core 0).recvq, (tget (t.part 63).berths {} 3).msgs)) (exec (.berthMove 0 2) s) = some ([(2, [hello])], []) := by decide +kernel
def receiver (op : Word) (f : Core → Core) : State := sender op (fun c => f { c with recvq := [(2, [hello])], snap := [{ line := 5, bytes := [] }] })
theorem test_receives : (receiver 0x02000000 id).ready { a := some x1, dst := some (.x 20), nregs := 8, moves := true } = true ∧
    ((receiver 0x02000000 id).core 0).receiving 2 = false ∧
    nextOf (fun t => ((t.core 0).regs.isFull 20, (t.core 0).regs.isFull 23, (t.core 0).acc.map (·.op))) (exec (.recv 20 x1) (receiver 0x02000000 id)) =
      some (false, false, [.recv 2]) ∧
    nextOf (fun t => (t.core 0).tr.cause) (exec (.recv 20 x1) (receiver 0x20000000 id)) = some 0x0A ∧
    nextOf (fun t => (t.core 0).standing) (exec (.recv 20 x1) (receiver 0x02000000 (fun c => { c with acc := [{ op := .recv 2, d := .x 0 }] }))) =
      some (some (.recv 20 x1)) := by decide +kernel
theorem test_receive : let s := receiver 0 (fun c => { c with acc := [{ op := .recv 2, d := .x 20 }], regs := (regsFrom 20 8).foldl Regs.empty c.regs })
    (s.core 0).firstReceive 0 2 = true ∧ (s.core 0).readsDone = true ∧ tget (s.core 0).recvq [] 2 = [hello] ∧
    nextOf (fun t => ((t.core 0).regs.get 20, (t.core 0).regs.get 21, (t.core 0).regs.isFull 23, (t.core 0).snap.length, (t.core 0).acc.length)) (exec (.receive 0 0) s) =
      some (5, 6, true, 0, 0) := by decide +kernel
def bulk0 : Msg := message [7] 0 2 1 [7, 0, 0, 0] false
def recvb0 (d : Dst) : State := receiver 0x02000000 (fun c => { c with recvq := [(2, [bulk0])], regs := c.regs.put 2 0x100 false, acc := [{ op := .recvb 2, d, b := 0x100 }] })
def recvb1 : State := (recvb0 (.x 3)).updCore 0 (fun c => { c with acc := [] })
theorem test_receive_bulk : ((recvb0 (.x 3)).core 0).firstReceive 0 2 = true ∧
    nextOf (fun t => ((t.core 0).regs.get 3, (t.core 0).buf.map (·.bytes), tget (t.core 0).recvq [hello] 2)) (exec (.receive 0 0) (recvb0 (.x 3))) =
      some (4, [[7, 0, 0, 0]], []) ∧
    nextOf (fun t => (t.core 0).acc.length) (exec (.recvb 5 x1 x2) recvb1) = some 1 ∧
    nextOf (fun t => ((t.core 0).buf.length, (t.core 0).pc)) (exec (.recvb 0 x1 x2) recvb1) =
      some (1, 0x1004) ∧ bulk0.count = 0 := by decide +kernel
theorem test_witness_receive_bulk : ∃ n p t, takeBulk (recvb0 (.x 3)) 0 2 0x100 = .took n p t := ⟨_, _, _, rfl⟩
def landing0 (d : Nat) (flight : Nat) (f : Core → Core) : State :=
  tasked { launch0 with flights := [⟨0x1000, 0, d⟩, ⟨0x2000, 0, 0⟩], parts := [(0, { handle := 0, clusters := [0], landings := [[]], waitSince := 0 })] }
    (fun c => f { c with task := some { task0 with flight, item := [11, 12, 13], takes := 1 } })
theorem test_items : (landing0 4 1 id).ready { dst := some (.x 3) } = true ∧
    nextOf (fun t => (t.core 0).regs.get 3) (exec (.take (.x 3)) (landing0 4 1 id)) = some 12 ∧
    nextOf (fun t => (t.core 0).regs.get 3) (exec (.take (.x 3)) (landing0 4 0 id)) = some 0 ∧
    (landing0 4 0 id).ready { a := some x1, bs := (regsFrom 2 3).map (fun r => ⟨.x r, false⟩), moves := true } = true ∧
    nextOf (fun t => (t.core 0).hand) (exec (.pass x1 2 false) (landing0 4 0 id)) = some (some (.item [0x100, 0x12345678, 0, 0])) ∧
    nextOf (fun t => ((t.core 0).hand, (t.core 0).pc)) (exec (.pass x1 2 false) (landing0 4 1 id)) = some (none, 0x1004) := by decide +kernel
theorem test_item_push : let f (c : Core) : Core := { c with hand := some (.item [1, 2, 3, 4]), standing := some (.pass x1 2 false) }
    ((landing0 4 0 f).core 0).unstepped = true ∧
    nextOf (fun t => ((tfind t.launches 1).map (fun l => (l.parts.map (·.2.landings)).flatten.flatten.flatten), (t.core 0).pc)) (exec (.itemPush 0) (landing0 4 0 f)) =
      some (some [1, 2, 3, 4], 0x1004) ∧
    nextOf (fun t => ((t.core 0).hand, (t.core 0).pc)) (exec (.itemPush 0) (landing0 0 0 f)) = some (some (.item [1, 2, 3, 4]), 0x1000) := by
  decide +kernel
theorem test_task_ends : let s := tasked { launch0 with running := 1 } (fun c => { c with buf := [{ va := 0x100, asid := 0, pa := 0x100, bytes := [9] }], loop0 := ⟨2, 0, 4, true⟩ })
    s.ready { engs := [.MX, .VX, .CP, .GL, .PS], moves := true } = true ∧ (s.core 0).vec.unknown = false ∧ (s.core 0).gal.slots = [] ∧
    nextOf (fun t => ((t.core 0).task, (t.core 0).run, (t.core 0).loop0.active, (t.core 0).out.length, (tfind t.launches 1).map (·.running))) (exec .tdone s) =
      some (none, .idle, false, 2, some 0) := by decide +kernel
def mark0 (l : Launch) : State := tasked l (fun c => { c with pubDone := true })
theorem test_marks : (tasked launch0 id).ready { a := some x1, engs := [.MX, .VX, .CP, .GL, .PS], moves := true } = true ∧
    (mark0 launch0).ready { a := some x1, engs := [.MX, .VX, .CP, .GL, .PS], moves := true } = true ∧
    nextOf (fun t => ((t.core 0).pubDone, (t.core 0).standing)) (exec (.mark x1) (tasked launch0 id)) = some (true, some (.mark x1)) ∧
    nextOf (fun t => ((t.core 0).marked, (t.core 0).pc)) (exec (.mark x1) (mark0 launch0)) = some (0x100, 0x1004) ∧
    nextOf (fun t => (tfind t.launches 1).map (fun l => (l.mask, l.pendMask))) (exec (.mark x1) (mark0 { launch0 with pendMask := some 3 })) =
      some (some (3, none)) ∧
    nextOf (fun t => ((t.core 0).task, (tfind t.launches 1).map (fun l => l.again.map (·.mark)))) (exec (.mark x1) (mark0 { launch0 with mask := 2, running := 1 })) =
      some (none, some [0x100]) ∧
    nextOf (fun t => (t.core 0).pc) (exec (.mark x1) (mem0 (fun c => { c with pubDone := true }))) = some 0x1004 := by decide +kernel
def child0 (f : Core → Core) : State := tasked launch0 f
theorem test_child_launches : (child0 id).ready { a := some x1, dst := some (.x 3), moves := true } = true ∧
    nextOf (fun t => (t.core 0).pubDone) (exec (.launch (.x 3) x1) (child0 id)) = some true ∧
    nextOf (fun t => ((t.core 0).regs.get 3, t.nextLaunch, (t.die 0).children.length)) (exec (.launch (.x 3) x1) (child0 (fun c => { c with pubDone := true }))) =
      some (0, 2, 1) ∧
    nextOf (fun t => (t.core 0).tr.cause) (exec (.launch (.x 3) x1) (child0 (fun c => { c with regs := c.regs.put 1 0x180 false }))) = some 4 := by
  decide +kernel
theorem test_witness_child_launches : (∃ pas t, translateRun (child0 id) 0 0 .load (vaRange 0x100 256) [] = (.inl pas, t)) ∧
    ((child0 id).die 0).freeChild = some 0 := ⟨run_ok (by decide +kernel), by decide +kernel⟩
def migr0 (n : Word) (f : Core → Core) : State := tasked launch0 (fun c => f { c with regs := c.regs.put 1 n false })
/-- Source: R149: to core 9 of the same partition the task goes on at the next word; to core 0 itself it only publishes. -/
theorem test_migrates : (migr0 9 id).ready { a := some x1, engs := [.MX, .VX, .CP, .GL, .PS], moves := true } = true ∧
    (migr0 9 id).corePart 9 = (migr0 9 id).corePart 0 ∧ ((migr0 9 id).core 9).isFree = true ∧
    nextOf (fun t => (t.core 0).pc) (exec (.migr x1) (migr0 0 (fun c => { c with pubDone := true }))) = some 0x1004 ∧
    nextOf (fun t => ((t.core 0).pc, (t.core 0).pubDone)) (exec (.migr x1) (migr0 0 id)) = some (0x1000, true) ∧
    nextOf (fun t => (t.core 0).pubDone) (exec (.migr x1) (migr0 9 id)) = some true ∧
    nextOf (fun t => ((t.core 9).pc, (t.core 9).regs.get 2, (t.core 9).run, (t.core 0).run)) (exec (.migr x1) (migr0 9 (fun c => { c with pubDone := true }))) =
      some (0x1004, 0x12345678, .running, .idle) ∧
    nextOf (fun t => (t.core 0).tr.cause) (exec (.migr x1) { migr0 9 id with clusters := [(1, { part := some 2 })] }) = some 6 := by decide +kernel

/-! ### Exceptions and returns -/

def supervisor (re : Bool) (f : Core → Core) : State :=
  mem0 (fun c => f { c with priv := .supervisor, tr := { c.tr with re, vec := 0x2000, pc := 0x3000, cause := 8 } })
def user (f : Core → Core) : State := mem0 (fun c => f { c with tr := { c.tr with vec := 0x2000 } })
/-- Source: R187. -/
theorem test_trap_entry : ((user id).core 0).priv = .task ∧ ((user id).core 0).dbg.stepping = false ∧ ((supervisor true id).core 0).tr.re = true ∧
    (((takeTrap (user id) 0 8 7 6 0x1000).core 0).tr.pc, ((takeTrap (user id) 0 8 7 6 0x1000).core 0).pc, ((takeTrap (user id) 0 8 7 6 0x1000).core 0).priv) =
      (0x1000, 0x2000, .supervisor) ∧
    ((takeTrap (supervisor true id) 0 8 7 6 0x1000).core 0).tr.fromSup = true ∧ ((takeTrap (user id) 0 8 7 6 0x1000).core 0).tr.fromSup = false := by
  decide +kernel
/-- Source: R188: DOUBLE, reason 6, TRPC kept. -/
theorem test_double_trap : ((supervisor false id).core 0).priv ≠ .task ∧ ((supervisor false id).core 0).tr.re = false ∧
    (let c := (takeTrap (supervisor false id) 0 8 7 6 0x1000).core 0; (c.tr.double, c.run, c.tr.pc, c.pc)) = (true, .debug 6, 0x3000, 0x1000) := by decide +kernel
def upcalls (en inH : Bool) : State := user (fun c => { c with up := { c.up with en, inH, vec := 0x4000 } })
/-- Source: R104. -/
theorem test_upcalls : ((upcalls true false).core 0).dbg.stepping = false ∧
    (let c := (deliver (upcalls true false) 0 0x10 0 0x5000 0x1000).core 0; (c.pc, c.up.pc, c.up.cause, c.up.addr, c.up.inH, c.priv)) =
      (0x4000, 0x1000, 0x10, 0x5000, true, .task) ∧
    ((deliver (upcalls true true) 0 0x10 0 0x5000 0x1000).core 0).pc = 0x2000 ∧ ((deliver (upcalls true false) 0 0x12 0 0x5000 0x1000).core 0).pc = 0x2000 := by
  decide +kernel
def basin0 (f : Core → Core) : State := (user f).updDie 0 (fun d => { d with basins := [(2, { valid := true })] })
/-- Source: R197, R198: the basin of row 0, column 0 holds core 0 alone. -/
theorem test_basin_fence : (basin0 id).basinCores 0 = [0] ∧
    (let t := fenceBasin (basin0 (fun c => { c with buf := [{ va := 0, asid := 0, pa := 0, bytes := [1] }] })) 0
     ((t.core 0).fenced, (t.core 0).buf.length, (t.core 0).tr.cause, (t.core 0).pc, (t.core 1).fenced)) = (true, 0, 0x72, 0x2000, false) := by decide +kernel
theorem test_deliberate_traps : (user id).ready { a := x1 } = true ∧ (user id).ready {} = true ∧
    nextOf (fun t => ((t.core 0).tr.cause, (t.core 0).tr.detail, (t.core 0).tr.pc)) (exec (.trap x1) (user id)) = some (8, 0x100, 0x1000) ∧
    nextOf (fun t => (t.core 0).tr.cause) (exec .brk (user id)) = some 9 ∧
    nextOf (fun t => ((t.core 0).run, (t.core 0).pc)) (exec .brk (user (fun c => { c with dbg := { c.dbg with arm := true } }))) =
      some (.debug 2, 0x1000) := by decide +kernel
theorem test_witness_illegal_words : decodeWord 0xB0002411 = .error .illegalOp := rfl
theorem test_illegal_words : nextOf (fun t => ((t.core 0).tr.cause, (t.core 0).tr.pc)) (exec (.illegalWord 0xB0002411) (user id)) = some (1, 0x1000) := by
  decide +kernel
/-- Source: R156, R195: back at TRPC; a pending error is taken there; a fenced core halts. -/
theorem test_eret : (supervisor false id).ready { floor := .supervisor } = true ∧
    nextOf (fun t => ((t.core 0).pc, (t.core 0).priv)) (exec .eret (supervisor false id)) = some (0x3000, .task) ∧
    nextOf (fun t => ((t.core 0).tr.cause, (t.core 0).tr.pc, (t.core 0).pc)) (exec .eret (supervisor false (fun c => { c with tr := { c.tr with imp := [⟨0x72, 4, 8, 0⟩] } }))) =
      some (0x72, 0x3000, 0x2000) ∧
    nextOf (fun t => (t.core 0).run) (exec .eret (supervisor false (fun c => { c with fenced := true }))) = some .halted ∧
    nextOf (fun t => ((t.core 0).tr.double, (t.core 0).run)) (exec .eret (supervisor false (fun c => { c with tr := { c.tr with pc := 0x3002 } }))) =
      some (true, .debug 6) := by decide +kernel
theorem test_upret : (upcalls true true).ready {} = true ∧
    nextOf (fun t => ((t.core 0).pc, (t.core 0).up.inH)) (exec .upret (upcalls true true)) = some (0, false) := by decide +kernel
def resume0 (m : List Host.Cell) : State := { mem0 id with ms := { (mem0 id).ms with mem := m } }
/-- Source: R157: only x3's bit of the mask (word 23) is set; UPPC is word 31. -/
theorem test_resumes : (resume0 []).ready { a := x1, moves := true } = true ∧ ((resume0 []).core 0).acc = [] ∧
    nextOf (fun t => ((t.core 0).regs.get 3, (t.core 0).regs.get 2, (t.core 0).pc))
      (exec (.resume x1) (resume0 [⟨0x108, 9⟩, ⟨0x15C, 8⟩, ⟨0x17D, 0x60⟩])) = some (9, 0x12345678, 0x6000) ∧
    nextOf (fun t => ((t.core 0).tr.cause, (t.core 0).tr.addr)) (exec (.resume x1) (resume0 [⟨0x17C, 2⟩])) = some (4, 2) := by decide +kernel
theorem test_witness_resumes : (∃ pas t, translateRun (mem0 id) 0 0 .load (vaRange 0x100 128) [] = (.inl pas, t)) ∧
    (∃ y, readBytes (mem0 id) 0 0x1000 0x100 ((List.range 128).map (0x100 + ·)) = some y) := ⟨run_ok (by decide +kernel), some_of (by decide +kernel)⟩
def yields (n : Word) (f : Core → Core) : State := mem0 (fun c => f { c with regs := c.regs.put 1 n false })
theorem test_yields : (yields 5 id).ready { a := x1 } = true ∧
    nextOf (fun t => ((t.core 0).standing, (t.core 0).waitSince)) (exec (.yield x1) { yields 5 id with ck := 9 }) = some (some (.yield x1), 9) ∧
    nextOf (fun t => (t.core 0).pc) (exec (.yield x1) (yields 0 id)) = some 0x1004 ∧
    nextOf (fun t => (t.core 0).pc) (exec (.yield x1) (yields 5 (fun c => { c with standing := some (.yield x1), woken := true }))) = some 0x1004 ∧
    nextOf (fun t => (t.core 0).pc) (exec (.yieldTimeout 0) { yields 5 (fun c => { c with standing := some (.yield x1) }) with ck := 5 }) = some 0x1004 ∧
    nextOf (fun t => (t.core 0).pc) (exec (.yieldTimeout 0) { yields 5 (fun c => { c with standing := some (.yield x1) }) with ck := 4 }) = some 0x1000 := by
  decide +kernel
theorem test_halts : nextOf (fun t => ((t.core 0).run, (t.core 0).pc)) (exec .halt (supervisor false id)) = some (.halted, 0x1004) ∧
    nextOf (fun t => (t.core 0).tr.cause) (exec .halt (user id)) = some 6 := by decide +kernel
def held0 : State := mem0 (fun c => { c with regs := { c.regs with held := [(1, ⟨7, false⟩)] } })
theorem test_deliveries : (held0.core 0).regs.held.find? (fun x => x.1 == 1) = some (1, ⟨7, false⟩) ∧
    nextOf (fun t => ((t.core 0).regs.q[1].map (·.w), (t.core 0).regs.held.length)) (exec (.queueHeldDelivery 0 1) held0) = some ([7], 0) ∧
    nextOf (fun t => ((t.core 0).tr.cause, (t.core 0).tr.detail)) (exec (.impreciseErrorDelivery 0) (user (fun c => { c with tr := { c.tr with imp := [⟨0x72, 4, 8, 0⟩] } }))) =
      some (0x72, 1) := by decide +kernel
/-- Source: R209, R210: PA of slot 0 matches the PC. -/
theorem test_debug_stops : let s := mem0 (fun c => { c with dbg := { c.dbg with pa := #v[0x1001, 0, 0, 0] } })
    (s.core 0).breakpoint = some 0 ∧
    nextOf (fun t => ((t.core 0).tr.cause, (t.core 0).tr.detail)) (exec (.addressBreakpointMatch 0) s) = some (9, 1) ∧
    nextOf (fun t => (t.core 0).run) (exec (.addressBreakpointMatch 0) (s.updCore 0 (fun c => { c with dbg := { c.dbg with arm := true } }))) =
      some (.debug 3) := by decide +kernel
def halted0 : State := mem0 (fun c => { c with task := some task0, run := .debug 1, dbg := { c.dbg with sel := 3 } })
theorem test_debug_access : nextOf (fun t => ((t.core 0).run, (t.core 0).pc)) (exec (.dbgHaltreq 0) (mem0 id)) = some (.debug 1, 0x1000) ∧
    nextOf (fun t => (t.core 0).run) (exec (.dbgResumereq 0) halted0) = some .running ∧
    nextOf (fun t => (t.core 0).run) (exec (.dbgResumereq 0) (halted0.updCore 0 (fun c => { c with task := none }))) = some .idle ∧ ((mem0 id).core 0).hand = none ∧
    nextOf (fun t => (t.core 0).regs.get 3) (exec (.dbgdataWrite 0 9) halted0) = some 9 ∧
    nextOf (fun t => (t.core 0).regs.get 3) (exec (.dbgdataWrite 0 9) (mem0 (fun c => { c with dbg := { c.dbg with sel := 3 } }))) = some 0 := by decide +kernel

/-! ### Control and status registers, the order of checks -/

theorem test_witness_csr : (∃ f, csrOp (.csrw (.x 3) x1 0x020) = some (.x 3, 0x020, some x1, true, f)) ∧ csrLevel 0x020 true = .task ∧
    csrLevel 0x800 false = .supervisor := ⟨⟨_, rfl⟩, rfl, rfl⟩
/-- Source: R50, R53: an unassigned number, one above the level, one of the reserved range. -/
theorem test_csr_refusals : csrTarget (user id) 0 0x017 = some 0 ∧ csrAssigned (user id) 0 0x017 = false ∧ csrAssigned (user id) 0 0x800 = true ∧
    nextOf (fun t => ((t.core 0).tr.cause, (t.core 0).tr.detail)) (exec (.csrr (.x 3) 0x017) (user id)) = some (1, 0) ∧
    nextOf (fun t => ((t.core 0).tr.cause, (t.core 0).tr.detail)) (exec (.csrr (.x 3) 0x800) (user id)) = some (6, 0x800) ∧
    nextOf (fun t => ((t.core 0).tr.cause, (t.core 0).tr.detail)) (exec (.csrr (.x 3) 0x740) (user id)) = some (1, 0) := by decide +kernel
/-- Source: R161: UPVEC holds 0x4000; CSRW gives the old value to d and writes A; CSRS ORs; a write that traps leaves d. -/
theorem test_csr_accesses : (upcalls true false).ready { a := some x1, dst := some (.x 3), moves := csrMoves 0x020 } = true ∧
    csrHidden (upcalls true false) 0 0x020 = false ∧ (csrImage (upcalls true false) 0 0x020) = some 0x4000 ∧
    nextOf (fun t => ((t.core 0).regs.get 3, (t.core 0).up.vec)) (exec (.csrw (.x 3) x1 0x020) (upcalls true false)) = some (0x4000, 0x100) ∧
    nextOf (fun t => ((t.core 0).regs.get 3, (t.core 0).up.vec)) (exec (.csrs (.x 3) x1 0x020) (upcalls true false)) = some (0x4000, 0x4100) ∧
    nextOf (fun t => ((t.core 0).regs.get 3, (t.core 0).tr.cause, (t.core 0).tr.addr))
      (exec (.csrw (.x 3) x1 0x020) ((upcalls true false).updCore 0 (fun c => { c with regs := c.regs.put 1 0x102 false }))) = some (0, 4, 0x102) := by
  decide +kernel
theorem test_witness_csr_accesses : (∃ s1, csrRead 0 0x020 (upcalls true false) = .ok 0x4000 s1) ∧ (∃ t, csrWrite 0 0x020 0x100 (upcalls true false) = .ok t) ∧
    (∃ d, csrWrite 0 0x020 0x102 (upcalls true false) = .trap 4 d 0x102) := ⟨⟨_, rfl⟩, ⟨_, rfl⟩, ⟨_, rfl⟩⟩
theorem test_witness_csr_read_back : ((0x008, 0x00FFFFFF, 1) : Nat × Word × Word) ∈ plainCsrs ∧ (∃ t, csrWrite 0 0x008 0x12345678 (user id) = .ok t) :=
  ⟨by decide, ⟨_, rfl⟩⟩
/-- Source: R81, R109: setting x3's bit drops its recorded cause. -/
theorem test_core_csr_events : let s := mem0 (fun c => { c with acc := [{ op := .load 4 false, d := .x 3, st := .recorded 0x12 0 0 }], regs := c.regs.empty 3 })
    nextOf (fun t => ((t.core 0).regs.isFull 3, (t.core 0).regs.isFull 2, (t.core 0).acc.length)) (exec (.femaskWrite 0 8) s) = some (true, false, 0) ∧
    nextOf (fun t => (t.core 0).loop1.active) (exec (.lstatWrite 0 2) s) = some true ∧
    nextOf (fun t => (t.core 0).tr.imp) (exec (.imppop 0) (user (fun c => { c with tr := { c.tr with imp := [⟨0x72, 4, 8, 0⟩] } }))) = some [] := by
  decide +kernel
theorem test_sram_splits : (buffered.core 0).cache = 4 ∧ (buffered.core 0).cnt.CP = 0 ∧ (buffered.core 0).readsDone = true ∧
    nextOf (fun t => ((t.core 0).cache, (t.core 0).buf.length, (t.core 0).snap.length, t.ms.byteAt (.core 1023) 0x100)) (exec (.sramcfgWrite 0 6) buffered) =
      some (6, 0, 0, 9) ∧
    nextOf (fun t => (t.core 0).cache) (exec (.sramcfgWrite 0 6) (buffered.updCore 0 (fun c => { c with cnt := { CP := 1 } }))) = some 4 := by decide +kernel
theorem test_witness_check_order : uses (.add (.x 3) x1 ⟨.x 2, true⟩) = { a := x1, b := some ⟨.x 2, true⟩, dst := some (.x 3) } ∧
    (csrOp (.add (.x 3) x1 x2)).isNone = true ∧ (Instr.add (.x 3) x1 x2).isWord = true := ⟨rfl, rfl, rfl⟩
/-- Source: R49, R190: EMPTY_READ with the code of x2 as second operand; an engine's waiting cause; a recorded cause. -/
theorem test_check_order :
    ((user (fun c => { c with regs := c.regs.empty 2 })).core 0).engineCause (uses (.add (.x 3) x1 ⟨.x 2, true⟩)) = none ∧
    nextOf (fun t => ((t.core 0).tr.cause, (t.core 0).tr.detail)) (exec (.add (.x 3) x1 ⟨.x 2, true⟩) (user (fun c => { c with regs := c.regs.empty 2 }))) =
      some (3, 34) ∧
    nextOf (fun t => (t.core 0).standing) (exec (.add (.x 3) x1 x2) (user (fun c => { c with regs := c.regs.empty 2 }))) = some (some (.add (.x 3) x1 x2)) ∧
    nextOf (fun t => ((t.core 0).tr.cause, (t.core 0).tr.addr)) (exec (.add (.x 3) x1 x2)
      (user (fun c => { c with acc := [{ op := .load 4 false, d := .x 2, st := .recorded 0x12 0x99 0 }], regs := c.regs.empty 2 }))) = some (0x12, 0x99) ∧
    nextOf (fun t => ((t.core 0).tr.cause, (t.core 0).tr.addr)) (exec (.mmul x1 x2) (user (fun c => { c with mat := { c.mat with waiting := some ⟨0x12, 0, 0x77⟩ } }))) =
      some (0x12, 0x77) ∧
    nextOf (fun t => (t.core 0).tr.cause) (exec (.tlbinv x1 x2) (user id)) = some 6 := by decide +kernel

/-! ### Engines: issue and accept -/

theorem test_witness_engine_issues : issuesTo (.mgeo x1 x2) = some .MX ∧ (mem0 (fun c => { c with regs := c.regs.put 2 9 false })).ready (uses (.mgeo x1 x2)) = true ∧
    (∀ x ∈ issueChecks (mem0 id) (.mgeo x1 x2) { a := 0, b := 9 }, ¬ x.1) ∧
    (∃ x, (issueChecks (mem0 id) (.mgeo x1 x2) { a := 0, b := 10 })[0]? = some x ∧ x.1) := by
  refine ⟨rfl, by decide +kernel, ?_, ⟨_, rfl, ?_⟩⟩
  · simp [issueChecks]
  · show 9 < (10 : Word).toNat
    decide
def grants (f : Core → Core) : State := mem0 (fun c => f { c with vec := { c.vec with grant := 8, v := Vector.replicate 16 ((List.range 8).map (fun i => ⟨BitVec.ofNat 32 i, false⟩)) } })
/-- Source: R288, R253, R230, R32: a G out of range, no grant, an odd address, and the offers with their publication at K. -/
theorem test_engine_issues :
    nextOf (fun t => (t.core 0).tr.cause) (exec (.mgeo x1 x2) (mem0 id)) = some 0x30 ∧
    nextOf (fun t => (t.core 0).tr.cause) (exec (.vld .w 1 1) (mem0 id)) = some 0x20 ∧
    nextOf (fun t => ((t.core 0).tr.cause, (t.core 0).tr.addr)) (exec (.vld .w 1 1) (grants (fun c => { c with regs := c.regs.put 1 0x102 false }))) = some (4, 0x102) ∧
    nextOf (fun t => ((t.core 0).standing, (t.core 0).out.length, (t.core 0).hand.isSome)) (exec (.vld .w 1 1) (grants id)) =
      some (some (.vld .w 1 1), 1, true) ∧
    nextOf (fun t => (t.core 0).tr.cause) (exec (.gcmt (.x 3) x1) (mem0 id)) = some 0x40 ∧
    nextOf (fun t => (t.core 0).tr.cause) (exec (.psread x1 ⟨.x 0, false⟩) (mem0 id)) = some 0x51 ∧
    nextOf (fun t => (t.core 0).tr.cause) (exec (.demote ⟨.x 0, false⟩ ⟨.x 0, false⟩) (mem0 id)) = some 2 := by decide +kernel
def descriptor0 (m : List Host.Cell) : State := { mem0 id with ms := { (mem0 id).ms with mem := m } }
/-- Source: R393: 4 bytes, one row; 3 bytes are no multiple of 4. -/
theorem test_descriptor_issues : (descriptor0 []).ready (uses (.cpy (.x 3) x1)) = true ∧
    nextOf (fun t => ((t.core 0).standing, (t.core 0).hand.isSome)) (exec (.cpy (.x 3) x1) (descriptor0 [⟨0x108, 4⟩, ⟨0x10A, 1⟩])) =
      some (some (.cpy (.x 3) x1), true) ∧
    nextOf (fun t => (t.core 0).tr.cause) (exec (.cpy (.x 3) x1) (descriptor0 [⟨0x108, 3⟩, ⟨0x10A, 1⟩])) = some 2 ∧
    nextOf (fun t => ((t.core 0).tr.cause, (t.core 0).tr.addr)) (exec (.psbind (.x 3) x1) (descriptor0 [⟨0x108, 4⟩])) = some (4, 4) ∧
    nextOf (fun t => (t.core 0).tr.cause) (exec (.psbind (.x 3) x1) (descriptor0 [⟨0x104, 64⟩, ⟨0x110, 1⟩])) = some 0x50 ∧
    nextOf (fun t => (t.core 0).hand.isSome) (exec (.psbind (.x 3) x1)
      ((hosted (descriptor0 [⟨0x104, 64⟩, ⟨0x110, 1⟩])).updDie 0 (fun d => { d with fer := { d.fer with groups := [(0, { ownValid := true, ownPart := 63 })] } }))) = some true ∧
    nextOf (fun t => (t.core 0).tr.cause) (exec (.cpy (.x 3) x1) (mem0 (fun c => { c with regs := c.regs.put 1 0x108 false }))) = some 4 := by decide +kernel
theorem test_witness_descriptor_issues : (∃ pas t, translateRun (mem0 id) 0 0 .load (vaRange 0x100 32) [] = (.inl pas, t)) ∧
    (∃ y, readBytes (mem0 id) 0 0x1000 0x100 ((List.range 32).map (0x100 + ·)) = some y) := ⟨run_ok (by decide +kernel), some_of (by decide +kernel)⟩
def offered (e : Engine) (i : Instr) (f : Core → Core) : State :=
  grants (fun c => f { c with standing := some i, hand := some (.cmd e { instr := i, a := 0x100, b := 0x100 }) })
def mdrn0 : State := offered .MX (.mdrn x1 x2) (fun c => { c with hand := some (.cmd .MX { instr := .mdrn x1 x2, a := 16, b := 0x100 }) })
theorem test_engine_accepts : ((offered .VX (.vld .w 1 1) id).core 0).unstepped = true ∧ ((offered .VX (.vld .w 1 1) id).core 0).mat.clear = false ∧
    nextOf (fun t => ((t.core 0).vec.seq.length, (t.core 0).cnt.VX, (t.core 0).pc)) (exec (.engineAccept 0) (offered .VX (.vld .w 1 1) id)) = some (1, 1, 0x1004) ∧
    nextOf (fun t => ((t.core 0).mat.queue.map (·.wr.isSome), t.ms.own.map (·.1), (t.core 0).cnt.MX)) (exec (.engineAccept 0) mdrn0) = some ([true], [0], 1) ∧
    nextOf (fun t => ((t.core 0).gal.queue.length, (t.core 0).regs.isFull 3, (t.die 0).gal.next)) (exec (.engineAccept 0) (offered .GL (.gcmt (.x 3) x1) id)) =
      some (1, false, 1) ∧
    nextOf (fun t => ((t.core 0).fer.queue.length, (t.core 0).regs.isFull 3)) (exec (.engineAccept 0) (offered .PS (.psdis (.x 3) x1) id)) = some (1, false) ∧
    nextOf (fun t => (t.core 0).cpy.queue.map (·.seq)) (exec (.engineAccept 0) (offered .CP (.demote x1 x2) id)) = some [0] := by decide +kernel
theorem test_witness_engine_accepts : issuesTo (.mdrn x1 x2) = some .MX ∧
    (∃ vas pas t, takesAt mdrn0 0 { instr := .mdrn x1 x2, a := 16, b := 0x100 } = some vas ∧ translateRun mdrn0 0 0 .store vas [] = (.inl pas, t)) ∧
    ¬ engineFlag (mdrn0.core 0) .MX .full :=
  ⟨rfl, ⟨_, (run_ok (by decide +kernel)).choose, (run_ok (by decide +kernel)).choose_spec.choose, rfl, (run_ok (by decide +kernel)).choose_spec.choose_spec⟩,
    by simp only [engineFlag]; decide +kernel⟩
def copy0 : State := offered .CP (.cpy (.x 3) x1) (fun c =>
  { c with hand := some (.cmd .CP { instr := .cpy (.x 3) x1, a := 0x100, data := [0x100, 0x200, 0x00010004, 0, 0, 0, 0, 0] }) })
theorem test_copy_accepts : nextOf (fun t => ((t.core 0).regs.get 3, (t.core 0).regs.isFull 3, t.ms.own.map (·.1), (t.core 0).cpy.seq)) (exec (.engineAccept 0) copy0) =
    some (0, true, [8], 1) ∧
    (translateRows copy0 0 0 ((List.range 1).map (rowTo [0x100, 0x200, 0x00010004, 0, 0, 0, 0, 0]))).isSome = true := by decide +kernel

/-! ### The vector pool -/

/-- Core 0 with 8 lanes, lane i of every register i, and one entry in its sequencer. -/
def sequenced (e : VEntry) (f : Core → Core) : State := grants (fun c => f { c with vec := { c.vec with seq := [e] }, cnt := { c.cnt with VX := 1 } })
def entry0 (i : Instr) (s : Word) : VEntry := { instr := i, s, word := encode i, pc := 0x1000 }
def lanesOf (t : State) (n : VReg) : List Word := ((t.core 0).vec.v[n]).map (·.w)
theorem test_witness_vector_hand_offs : lanesOnly (.viadd 2 1 0 3) ∧ (grants id).ready (uses (.viadd 2 1 0 3)) = true ∧
    ((grants id).core 0).vec.reneg = none ∧ ((grants id).core 0).vec.grant ≠ 0 := ⟨fun _ => .inl rfl, by decide +kernel, rfl, by decide +kernel⟩
theorem test_vector_hand_offs :
    nextOf (fun t => ((t.core 0).vec.seq.map (·.s), (t.core 0).cnt.VX, (t.core 0).pc)) (exec (.viadd 2 1 0 2) (grants id)) = some ([0x12345678], 1, 0x1004) ∧
    nextOf (fun t => ((t.core 0).tr.cause, (t.core 0).tr.detail)) (exec (.viadd 2 1 0 2) (mem0 id)) = some (0x20, encode (.viadd 2 1 0 2)) ∧
    nextOf (fun t => (t.core 0).standing) (exec (.viadd 2 1 0 2) (grants (fun c => { c with vec := { c.vec with reneg := some ⟨true, 8, none⟩ } }))) =
      some (some (.viadd 2 1 0 2)) ∧
    nextOf (fun t => (t.core 0).pubDone) (exec (.vredput 1 1) (grants id)) = some true := by decide +kernel
/-- Core 0's own descriptor: rows 0 to 0, columns 0 to 0, root core 0, tag 5. -/
def put0 (w : Word) : State := grants (fun c => { c with pubDone := true, regs := c.regs.put 1 w false })
theorem test_vredput : nextOf (fun t => ((t.core 0).vec.seq.length, (t.core 0).pc)) (exec (.vredput 1 1) (put0 5)) = some (1, 0x1004) ∧
    nextOf (fun t => ((t.core 0).tr.cause, (t.core 0).tr.detail)) (exec (.vredput 1 1) (put0 0x02000005)) = some (0x22, 5) ∧
    nextOf (fun t => (t.core 0).standing) (exec (.vredput 1 1) { put0 5 with clusters := [(0, { router := [(5, { desc := 5, g := 8, kids := [(0, [])] })] })] }) =
      some (some (.vredput 1 1)) ∧
    nextOf (fun t => ((t.core 0).tr.cause, (t.core 0).tr.detail)) (exec (.vredget 1 1) ((put0 5).updDie 0 (fun d => { d with totals := [(1, 5, 5, none)] }))) =
      some (0x22, 5) := by decide +kernel
/-- Source: R245, R243, R248, R249 by hand: lane i is i; the sum of lanes 0 to 7 is 28; lane 8 is above the grant. -/
theorem test_vector_results : entryAt ((sequenced (entry0 (.viadd 2 1 0 3) 100) id).core 0).vec = some (entry0 (.viadd 2 1 0 3) 100) ∧
    nextOf (fun t => ((lanesOf t 2).take 3, (t.core 0).cnt.VX, (t.core 0).vec.seq.length))
      (exec (.vectorEntryComplete 0) (sequenced (entry0 (.viadd 2 1 0 3) 100) id)) = some ([100, 101, 102], 0, 0) ∧
    nextOf (fun t => (lanesOf t 2).take 3) (exec (.vectorEntryComplete 0) (sequenced (entry0 (.vcmp .iltn 2 1 0 3) 1) id)) = some [0xFFFFFFFF, 0, 0] ∧
    nextOf (fun t => (t.core 0).regs.q[1].map (·.w)) (exec (.vectorEntryComplete 0) (sequenced (entry0 (.vred .isum 1) 0) id)) = some [28] ∧
    nextOf (fun t => (t.core 0).regs.q[1].map (·.w)) (exec (.vectorEntryComplete 0) (sequenced (entry0 (.vmovGet 1 3) 6) id)) = some [6] ∧
    nextOf (fun t => (t.core 0).cnt.VX) (exec (.vectorEntryComplete 0) (sequenced (entry0 (.vred .isum 1) 0)
      (fun c => { c with regs := { c.regs with held := [(1, ⟨7, false⟩)] } }))) = some 1 := by decide +kernel
theorem test_witness_vector_results : (∃ d f src, laneOp (entry0 (.viadd 2 1 0 3) 100) ((grants id).core 0).vec.v = some (d, f, src)) ∧
    (∃ w, pushOp (entry0 (.vred .isum 1) 0) ((grants id).core 0).vec.v 8 = some w) := ⟨⟨_, _, _, rfl⟩, some_of (by decide +kernel)⟩
/-- Source: R65's worked block and the sequence of R250 that quantises it. -/
def quantised (i : Instr) (n : VReg) (l : List Word) : State := sequenced (entry0 i 0) (fun c =>
  { c with vec := { c.vec with grant := 16, v := c.vec.v.set n (l.map (⟨·, false⟩)) } })
def block0 : List Word := [0x40400000, 0xBFA00000, 0x3F000000, 0x3EC00000, 0x3DCCCCCD, 0x80000000, 0x4039999A, 0, 0, 0, 0, 0, 0, 0, 0, 0]
def lanes0 : List Word := [0x800C, 0x8015, 0x18004, 0x18003, 0x18001, 0x18010, 0x800C, 0x8000, 0x18000, 0x18000, 0x18000, 0x18000, 0x18000, 0x18000,
  0x18000, 0x18000]
theorem test_vqnt : nextOf (fun t => lanesOf t 2) (exec (.vectorEntryComplete 0) (quantised (.vqnt .se4 2 1) 1 block0)) = some lanes0 := by
  decide +kernel
theorem test_vdq : nextOf (fun t => (lanesOf t 3).take 8) (exec (.vectorEntryComplete 0) (quantised (.vdq .se4 3 1) 1 lanes0)) =
    some [0x40400000, 0xBFA00000, 0x3F000000, 0x3EC00000, 0x3E000000, 0x80000000, 0x40400000, 0] := by decide +kernel
/-- Source: the same block's bytes in memory. -/
theorem test_block_bytes : (storeBytes .se4 ((quantised (.vst .se4 1 4) 1 lanes0).core 0).vec.v 1 16).map (·.1) =
    [0xF6, 0x00, 0xAC, 0x92, 0x11, 0x20, 0x03, 0, 0, 0, 0, 0] ∧
    (storeBytes .sc ((quantised (.vst .se4 1 4) 1 lanes0).core 0).vec.v 1 16).map (·.1) = [0x80] := by decide +kernel
def vld0 : State := { sequenced (entry0 (.vld .w 2 4) 0x100) id with ms := { (mem0 id).ms with mem := [⟨0x104, 7⟩] } }
/-- Source: R254: the read takes the bytes, the completion writes the lanes; a store takes its lines and makes its bytes events. -/
theorem test_vector_memory : (entryBytes (entry0 (.vld .w 2 4) 0x100) ((grants id).core 0).vec).length = 32 ∧
    nextOf (fun t => ((t.core 0).vec.rd.map (fun b => (b.map (·.1)).take 5), (t.core 0).vec.wr)) (exec (.engineRead 0 .VX) vld0) = some (some [0, 0, 0, 0, 7], none) ∧
    nextOf (fun t => (lanesOf t 2).take 2) (exec (.vectorEntryComplete 0) (vld0.updCore 0 (fun c => { c with vec := { c.vec with rd := some (List.replicate 32 (1, false)) } }))) =
      some [0x01010101, 0x01010101] ∧
    nextOf (fun t => (t.ms.own.length, (t.core 0).vec.wr.map List.length)) (exec (.engineRead 0 .VX) (sequenced (entry0 (.vst .w 1 4) 0x100) id)) = some (1, some 32) ∧
    nextOf (fun t => ((t.core 0).vec.flt.fault, (t.core 0).vec.waiting.map (·.cause))) (exec (.engineRead 0 .VX) (sequenced (entry0 (.vst .w 1 4) 0x10000) id)) =
      some (false, some 0x10) := by decide +kernel
theorem test_vector_stores : nextOf (fun t => (t.ms.byteAt (.core 1023) 0x104, t.ms.own.length, (t.core 0).cnt.VX))
    (exec (.vectorEntryComplete 0) ((sequenced (entry0 (.vst .w 1 4) 0x100) (fun c => { c with vec := { c.vec with wr := some ((List.range 32).map (0x100 + ·)) } })).updMs
      (fun m => { m with own := [(4, .VX, 0, 0)] }))) = some (1, 0, 0) := by decide +kernel
def renegs (r : Option Reneg) (g : Nat) (f : Core → Core) : State := grants (fun c => f { c with vec := { c.vec with reneg := r, grant := g, lim := 256 } })
/-- Source: R220, R259, R260: 20 lanes asked for give 24; a yield keeps 8. -/
theorem test_renegotiations : (renegs none 8 id).ready (uses (.vclaim (.x 3) x1)) = true ∧
    nextOf (fun t => ((t.core 0).vec.reneg.map (·.ask), (t.core 0).regs.isFull 3)) (exec (.vclaim (.x 3) x1) (renegs none 8 id)) = some (some 0x100, false) ∧
    nextOf (fun t => (t.core 0).vec.reneg.map (·.ask)) (exec .vrel (renegs none 8 id)) = some (some 0) ∧
    nextOf (fun t => (t.core 0).standing) (exec .vrel (renegs (some ⟨true, 20, none⟩) 8 id)) = some (some .vrel) ∧
    nextOf (fun t => ((t.core 0).vec.grant, (t.core 0).regs.get 3, (t.core 0).vec.v[1].length)) (exec (.grantRenegotiation 0)
      (renegs (some ⟨true, 20, some (.x 3)⟩) 8 (fun c => { c with acc := [{ op := .engine .VX, d := .x 3 }], regs := c.regs.empty 3 }))) = some (24, 24, 24) ∧
    nextOf (fun t => (t.core 0).vec.grant) (exec (.grantRenegotiation 0) (renegs (some ⟨false, 3, none⟩) 24 id)) = some 8 ∧ heldByOthers (renegs none 8 id) 0 = 0 := by
  decide +kernel
def vloop0 (n : Word) (f : Core → Core) (w : Word) : State := grants (fun c => f { c with fbuf := [(0x1004, w)], regs := (c.regs.put 1 n false).put 4 0x100 false })
/-- Source: R262: VIADD v1, v1, x7 (0xD04400EF), VLD v1, x4 (0xD4400080), and a body word that is none of the vector's. -/
theorem test_vector_loops : (vloop0 3 id 0xD04400EF).ready (uses (.vloop x1 1)) = true ∧
    nextOf (fun t => ((t.core 0).vec.passes, (t.core 0).vec.seq.length, (t.core 0).pc, (t.core 0).cnt.VX)) (exec (.vloop x1 1) (vloop0 3 id 0xD04400EF)) =
      some (3, 1, 0x1008, 1) ∧
    nextOf (fun t => ((t.core 0).vec.seq.length, (t.core 0).pc)) (exec (.vloop x1 1) (vloop0 0 id 0xD04400EF)) = some (0, 0x1008) ∧
    nextOf (fun t => ((t.core 0).standing, (t.core 0).hand.isSome, (t.core 0).pubDone)) (exec (.vloop x1 1) (vloop0 3 id 0xD4400080)) = some (some (.vloop x1 1), true, true) ∧
    nextOf (fun t => ((t.core 0).tr.cause, (t.core 0).tr.detail)) (exec (.vloop x1 1) (vloop0 3 id 0xB000000F)) = some (0x21, 1) ∧
    nextOf (fun t => (t.core 0).tr.cause) (exec (.vloop x1 1) (vloop0 3 (fun c => { c with vec := { c.vec with grant := 0 } }) 0xD04400EF)) = some 0x20 ∧
    nextOf (fun t => (t.core 0).standing) (exec (.vloop x1 1) (vloop0 3 (fun c => { c with regs := c.regs.empty 7 }) 0xD04400EF)) = some (some (.vloop x1 1)) ∧
    nextOf (fun t => ((t.core 0).tr.cause, (t.core 0).tr.addr)) (exec (.vloop x1 1) ((vloop0 3 id 0xD4400080).updCore 0 (fun c => { c with regs := c.regs.put 4 0x102 false }))) =
      some (4, 0x102) := by decide +kernel
theorem test_witness_vector_loops : (∃ is s1, fetchBody (vloop0 3 id 0xD04400EF) 0 1 0x1000 (List.range 1) [] = .ok is s1) ∧
    (∃ s1, fetchBody (vloop0 3 id 0xB000000F) 0 1 0x1000 (List.range 1) [] = .trap 0x21 1 0 s1) ∧ vecXs (.viadd 1 1 0 7) = some 7 := ⟨⟨_, _, rfl⟩, ⟨_, rfl⟩, rfl⟩
theorem test_vector_loop_accepts : nextOf (fun t => ((t.core 0).vec.passes, (t.core 0).vec.seq.length, (t.core 0).pc)) (exec (.engineAccept 0)
    (grants (fun c => { c with standing := some (.vloop x1 1), hand := some (.loop [entry0 (.vld .w 1 4) 0x100] 3 0x40) }))) = some (3, 1, 0x1008) := by decide +kernel
def reduced (bad : Bool) : Reduction := { desc := 5, g := 2, kids := [(0, [⟨0x3F800000, false⟩, ⟨0x40000000, false⟩])], bad }
/-- Source: R227, R229: core 0 alone takes part, so its vector passes up three levels and becomes the total. -/
theorem test_reductions : descHas 5 0 = true ∧ descHas 5 1 = false ∧
    nextOf (fun t => ((t.cluster 0).router.length, (t.die 0).rowRouter.map (fun r => (r.1, r.2.kids.length)))) (exec (.routerReduce 0 0 0 5) { State.reset with clusters := [(0, { router := [(5, reduced false)] })] }) =
      some (0, [(5, 1)]) ∧
    nextOf (fun t => (t.die 0).rootRouter.map (·.1)) (exec (.routerReduce 0 1 0 5) { State.reset with dies := [(0, { rowRouter := [(5, reduced false)] })] }) = some [5] ∧
    nextOf (fun t => (t.die 0).totals.map (fun x => (x.1, x.2.2.2.map List.length))) (exec (.routerReduce 0 2 0 5) { State.reset with dies := [(0, { rootRouter := [(5, reduced false)] })] }) =
      some [(0, some 2)] ∧
    nextOf (fun t => (t.die 0).totals.map (fun x => x.2.2.2.isNone)) (exec (.routerReduce 0 0 0 5) { State.reset with clusters := [(0, { router := [(5, reduced true)] })] }) =
      some [true] := by decide +kernel
theorem test_vredput_entry : nextOf (fun t => ((t.cluster 0).router.map (fun r => (r.1, r.2.kids.length)), (t.core 0).vec.seq.length)) (exec (.vectorEntryComplete 0) (sequenced (entry0 (.vredput 1 1) 5) id)) =
      some ([(5, 1)], 0) ∧
    nextOf (fun t => ((lanesOf t 2).take 2, (t.die 0).totals.length)) (exec (.vectorEntryComplete 0) ((sequenced (entry0 (.vredget 2 1) 5) id).updDie 0
      (fun d => { d with totals := [(0, 5, 5, some [⟨9, false⟩])] }))) = some ([9, 1], 0) ∧
    nextOf (fun t => ((t.core 0).vec.waiting.map (·.cause), (t.core 0).vec.flt.fault)) (exec (.vectorEntryComplete 0) ((sequenced (entry0 (.vredget 2 1) 5) id).updDie 0
      (fun d => { d with totals := [(0, 5, 5, none)] }))) = some (some 0x22, true) := by decide +kernel

/-! ### The matrix unit -/

/-- One command in core 0's matrix queue, with these MG0 and MG7. -/
def matrix (q : Cmd) (mg0 mg7 : Word) (f : MatCore → MatCore) : State :=
  mem0 (fun c => { c with mat := f { c.mat with queue := [q], mg := (c.mat.mg.set 0 mg0).set 7 mg7 }, cnt := { MX := 1 } })
def mcmd (i : Instr) (a b : Word) : Cmd := { instr := i, a, b, seq := 5 }
theorem test_witness_matrix : matTurn (matrix (mcmd (.mgeo x1 x2) 7 3) 0 0 id) 0 (mcmd (.mgeo x1 x2) 7 3) [] := ⟨rfl, rfl, rfl, rfl, rfl, by decide⟩
/-- Source: R288, R289, R293, R270. -/
theorem test_matrix_set_up :
    nextOf (fun t => ((t.core 0).mat.mg[3], (t.core 0).mat.queue.length, (t.core 0).cnt.MX, (t.core 0).regs.q[0].length)) (exec (.engineComplete 0 .MX) (matrix (mcmd (.mgeo x1 x2) 7 3) 0 0 id)) =
      some (7, 0, 0, 0) ∧
    nextOf (fun t => (t.core 0).mat.queue.map (fun q => (q.rd.getD []).length)) (exec (.engineRead 0 .MX) (matrix (mcmd (.midx x1) 0x100 0) 0 0 id)) = some [256] ∧
    nextOf (fun t => (t.core 0).mat.idx.take 2) (exec (.engineComplete 0 .MX) (matrix { mcmd (.midx x1) 0x100 0 with rd := some (List.replicate 256 (1, false)) } 0 0 id)) =
      some [0x101, 0x101] ∧
    nextOf (fun t => ((t.core 0).mat.acc0.count, (t.core 0).mat.acc1.count)) (exec (.engineComplete 0 .MX) (matrix (mcmd (.mzero x1) 2 0) 0 0
      (fun m => { m with acc0 := { count := 3 }, acc1 := { count := 3 } }))) = some (3, 0) := by decide +kernel
theorem test_matrix_csrs : nextOf (fun t => (t.core 0).mat.mg[9]) (exec (.matrixCsrWrite 0 0x209 0xFFFFFFFF) (mem0 id)) = some 0xFFFFF ∧
    nextOf (fun t => ((t.core 0).mat.inj, (t.core 0).tr.cause)) (exec (.matrixCsrWrite 0 0x214 0x60000000) (mem0 id)) = some (0, 2) ∧
    nextOf (fun t => (t.core 0).mat.corr) (exec (.matrixCsrWrite 0 0x213 5) (mem0 (fun c => { c with cnt := { MX := 1 } }))) = some 0 := by decide +kernel
/-- An SE2 MMUL of no column: rows at 0 with stride 0. -/
def mmul0 : State := matrix (mcmd (.mmul x1 x2) 0 0) 4 0 id
/-- Source: R274: with the stash elsewhere, row 0 is out of range; a token of a faulted MMUL. -/
theorem test_matrix_reads : nextOf (fun t => ((t.core 0).mat.flt.cause, (t.core 0).mat.flt.addr, (t.core 0).regs.q[0].map (·.w), (t.core 0).mat.queue.length))
    (exec (.engineRead 0 .MX) (mmul0.updCore 0 (fun c => { c with stbase := 0x800000 }))) = some (0x31, 0xFFFF0000, [0x04020005], 0) := by decide +kernel
theorem test_witness_matrix_reads : (List.range 128).find? (fun i => (rowBody (mmul0.core 0).mat.mg 0 ((mmul0.core 0).mat.idx.getD i 0)).any (fun a => !(mmul0.core 0).inWindow a)) = none := by
  decide +kernel
theorem test_witness_matrix_reads_page : (translateRun { mmul0 with ms := {} } 0 0 .load (mmulReads (mmul0.core 0).mat.mg [] 0 0) []).1 =
    .inr (0x10, 0, 0) := by decide +kernel
def tiles (r : Nat) (f : Cmd → Cmd) : State :=
  let q := { mcmd (.mzero x1) 1 0 with seq := 0 }
  { State.reset with
    cores := [(0, { Core.reset 0 with mat := { queue := [f { mcmd (.mscac) 0 0 with rd := some [] }] } }), (2, { Core.reset 2 with mat := { queue := [q] } }),
              (3, { Core.reset 3 with mat := { queue := [mcmd .mscac 0 0] } })]
    clusters := [(0, { lastCore := 0, inRow := r })] }
/-- Source: R275: core 0's weight 0 allows one tile in a row; then core 3, core 2 having no tile. -/
theorem test_matrix_turns : tileReady (tiles 0 id) 0 = true ∧ tileReady (tiles 0 id) 2 = false ∧ tileReady (tiles 0 id) 3 = true ∧
    nextOf (fun t => ((t.core 0).mat.queue.map (·.started), (t.cluster 0).inRow)) (exec (.matrixTileStart 0 0) (tiles 0 id)) = some ([true], 1) ∧
    nextOf (fun t => ((t.core 3).mat.queue.map (·.started), (t.cluster 0).lastCore)) (exec (.matrixTileStart 0 3) (tiles 1 id)) = some ([true], 3) := by
  decide +kernel
/-- An MMUL of one INT8 column whose bytes are all 0xFF. -/
def ones0 : List (Byte × Bool) := List.replicate 8256 (0xFF, false)
def mmulOnes (mg0 mg7 : Word) (f : MatCore → MatCore) : State := matrix { mcmd (.mmul x1 x2) 1 0 with rd := some ones0, started := true } mg0 mg7 f
theorem test_witness_matrix_integers : ones0.length = 64 * (128 + 1) ∧ ones0.all (fun b => !b.2) = true ∧ fld 2 0 4 = 2 ∧
    ((mmulOnes 2 0 id).core 0).mat.pp.length = 4 ∧ ((mmulOnes 2 0 id).core 0).mat.inj.getLsbD 31 = false := by decide +kernel
/-- Source: R76 by hand: −1 × −1 and 255 × 255 sixteen times; the sum that leaves INT32 saturates or wraps and sets the flag. -/
theorem test_matrix_sums : dotInt (intRun 2 (List.replicate 16 (0xFF, false)) []) (intRun 2 (List.replicate 16 (0xFF, false)) []) = 16 ∧
    dotInt (intRun 3 (List.replicate 16 (0xFF, false)) []) (intRun 3 (List.replicate 16 (0xFF, false)) []) = 1040400 ∧
    addI32 true 0x7FFFFFFF 1 = (0x7FFFFFFF, true) ∧ addI32 false 0x7FFFFFFF 1 = (0x80000000, true) ∧ addI32 true 5 (-6) = (0xFFFFFFFF, false) := by decide +kernel
/-- Source: R278: MINJ armed for element (1, 0) of set 2, bit 3. -/
theorem test_witness_matrix_checks : fld 0xA0200003 28 3 = 2 ∧ fld 0xA0200003 21 7 = 1 ∧ fld 0xA0200003 12 9 = 0 ∧ injects 0xA0200003 2 1 = some (1, 0, 3) := by
  decide +kernel
theorem test_witness_matrix_floats : seFmt 5 = some .se4 ∧ (mmulOnes 0 0 id).cur = 0 ∧ ((mmulOnes 5 0 id).core 0).mat.np = 0 ∧
    nextOf (fun t => ((t.core 0).regs.q[0].map (·.w), (t.core 0).mat.queue.length)) (exec (.engineComplete 0 .MX) (matrix { mcmd .mscac 0 0 with started := true } 5 0 id)) =
      some ([0x00040005], 0) := by decide +kernel
def drain0 (mg7 : Word) (f : MatCore → MatCore) : State :=
  matrix { mcmd (.mdrn x1 x2) 1 0x0100 with started := true, wr := some [0x100, 0x101, 0x102, 0x103] } 2 mg7 (fun m => f { m with acc0 := { el := [[0x01020304]] } })
/-- Source: R295: row 0 of one column as a word at P; its sum test fails where the row check says otherwise. -/
theorem test_matrix_drains : nextOf (fun t => (t.ms.byteAt (.core 1023) 0x103, t.ms.byteAt (.core 1023) 0x100, (t.core 0).regs.q[0].map (·.w))) (exec (.engineComplete 0 .MX) (drain0 0 id)) =
    some (1, 4, [0x00050005]) ∧ fld 0x0100 8 8 = 1 := by decide +kernel

/-! ### The gallery -/

/-- One command in core 0's gallery queue; class 1 of die 0's gallery owns stage 2. -/
def gallery (q : Cmd) (f : Gallery → Gallery) (h : GClass → GClass) : State :=
  (mem0 (fun c => { c with gal := { c.gal with queue := [q] }, cnt := { gl := 1 } })).updDie 0 (fun d =>
    { d with gal := f { d.gal with cls := [(1, h { stages := 4 })] } })
def gcmd (i : Instr) (a b : Word) : Cmd := { instr := i, a, b, seq := 5 }
def galleryReads (q : Cmd) : State := mem0 (fun c => { c with gal := { c.gal with queue := [q] }, cnt := { gl := 1 } })
def wordBytes (l : List Word) : List (Byte × Bool) := (l.map (fun w => (bytesLE 4 w.toNat).map (fun b => (b, false)))).flatten
theorem test_witness_gallery : galTurnAt (gallery (gcmd (.gtw x1 x2) 0x24800003 0x100) id id) 0 [] (gcmd (.gtw x1 x2) 0x24800003 0x100) [] :=
  ⟨rfl, by decide, by decide, by decide, rfl, rfl, rfl, rfl, by decide⟩
def gtw0 (a : Word) (l : List Word) (h : GClass → GClass) : State := gallery { gcmd (.gtw x1 x2) a 0x100 with rd := some (wordBytes l) } id h
/-- Source: R302, R325: exact entry 3 of stage 2; a reserved bit, an unbound stage, a counter outside the window, and a wait for OLD. -/
theorem test_gallery_tables : fld 0x24800003 29 3 = 1 ∧ fld 0x24800003 26 3 = 1 ∧ fld 0x24800003 22 4 = 2 ∧
    nextOf (fun t => (tget (t.die 0).gal.shadow {} 2).exact) (exec (.galleryShadowWrite 0) (gtw0 0x24800003 [7, 1, 0x80000005, 0] id)) = some [(3, 0x100000007, 5)] ∧
    nextOf (fun t => (t.core 0).gal.queue.map (·.cause)) (exec (.galleryShadowWrite 0) (gtw0 0x24800003 [7, 1, 0x80000405, 0] id)) = some [some ⟨0x42, 0x24800003, 0x100⟩] ∧
    nextOf (fun t => (t.core 0).gal.queue.map (·.cause)) (exec (.galleryShadowWrite 0) (gtw0 0x24C00003 [7, 1, 0x80000005, 0] id)) = some [some ⟨0x40, 0x24C00003, 0⟩] ∧
    nextOf (fun t => (t.core 0).gal.queue.map (·.cause)) (exec (.galleryShadowWrite 0) (gtw0 0x84800003 [0x50040000, 0, 0, 0] id)) = some [some ⟨0x41, 0x84800003, 0⟩] ∧
    nextOf (fun t => (tget (t.die 0).gal.shadow {} 2).act) (exec (.galleryShadowWrite 0) (gtw0 0x84800003 [0x5003FC00, 0, 0, 0] id)) =
      some [(3, [0x5003FC00, 0, 0, 0])] ∧
    nextOf (fun t => (t.core 0).gal.queue.map (·.started)) (exec (.galleryShadowWrite 0) (gtw0 0x24800003 [7, 1, 0x80000005, 0] (fun g => { g with old := true }))) =
      some [false] := by decide +kernel
theorem test_witness_gallery_data : (wordBytes [7, 1, 0x80000005, 0]).length = 16 ∧ (wordBytes [7, 1, 0x80000005, 0]).all (fun b => !b.2) = true ∧
    (translateRun (galleryReads (gcmd (.gtw x1 x2) 0x24800003 0x100)) 0 0 .load ((List.range 16).map (fun i => (0x100 + i) % 2 ^ 32)) []).1 =
      .inl ((List.range 16).map (0x100 + ·)) ∧
    nextOf (fun t => (t.core 0).gal.queue.map (fun q => (q.rd.getD []).length)) (exec (.engineRead 0 .GL) (galleryReads (gcmd (.gtw x1 x2) 0x24800003 0x100))) = some [16] :=
  ⟨by decide, by decide, rfl, by decide +kernel⟩
def stored2 : Gallery → Gallery := fun g => { g with shadow := [(2, { exact := [(3, 7, 5), (4, 8, 5)] })], active := [(2, { conf := 0x40000000 })] }
theorem test_gallery_clears : nextOf (fun t => (tget (t.die 0).gal.shadow {} 2).exact) (exec (.galleryShadowWrite 0) (gallery (gcmd (.gtd x1 x2) 0x24800003 1) stored2 id)) =
    some [(4, 8, 5)] := by decide +kernel
/-- Source: R312, R313, R326: the commit makes the shadow copy active, generation 1, and keeps the old set. -/
theorem test_witness_gallery_commit : ((gallery (gcmd (.gcmt (.x 5) x1) 1 0) stored2 id).core 0).gal.turn = some (gcmd (.gcmt (.x 5) x1) 1 0) := rfl
theorem test_gallery_commit :
    nextOf (fun t => (((t.die 0).gal.active).map (fun x => x.2.exact.length), ((t.die 0).gal.oldTab).map (fun x => x.2.conf), (classAt t 0 1).gen))  (exec (.galleryCommit 0 1) (gallery (gcmd (.gcmt (.x 5) x1) 1 0) stored2 id)) =
      some ([2], [0x40000000], 1) ∧
    nextOf (fun t => ((classAt t 0 1).old, (t.core 0).gal.queue.map (·.done))) (exec (.galleryCommit 0 1) (gallery (gcmd (.gcmt (.x 5) x1) 1 0) stored2 id)) =
      some (true, [some 1]) := by decide +kernel
theorem test_gallery_bind : nextOf (fun t => ((classAt t 0 1).stages, (classAt t 0 1).rlim, (t.die 0).gal.shadow.length)) (exec (.galleryBindEffect 0 1)
    (gallery (gcmd (.gbind x1 x2) 1 0x20008) stored2 id)) = some (8, 2, 0) ∧
    nextOf (fun t => (t.core 0).gal.queue.map (·.cause)) (exec (.galleryBindEffect 0 0) (gallery (gcmd (.gbind x1 x2) 0 0x20008) stored2 id)) =
      some [some ⟨0x42, 0, 0⟩] := by decide +kernel
theorem test_gallery_counter : nextOf (fun t => ((t.core 0).gal.queue.map (·.done), tget (t.die 0).gal.ctr 9 4)) (exec (.engineRead 0 .GL)
    (gallery (gcmd (.gctr (.x 5) x1 x2) 0x00010004 2) (fun g => { g with ctr := [(4, 0x100000006)] }) id)) = some ([some 6], 0) := by decide +kernel
theorem test_gallery_copy_done : nextOf (fun t => ((classAt t 0 1).old, ((t.die 0).gal.shadow).map (fun x => x.2.conf))) (exec (.galleryShadowCopyDone 0 1)
    (gallery (gcmd (.gtd x1 x2) 0 0) stored2 (fun g => { g with old := true }))) = some (false, [0x40000000]) ∧
    nextOf (fun t => (classAt t 0 1).old) (exec (.galleryShadowCopyDone 0 1) (gallery (gcmd (.gtd x1 x2) 0 0)
      (fun g => { g with flight := [{ cls := 1, src := 0, f := [], gen := 1 }] }) (fun g => { g with old := true }))) = some true := by decide +kernel
theorem test_gallery_own : nextOf (fun t => ((classAt t 0 1).ownValid, (classAt t 0 1).ownPart, (classAt t 0 1).stgmask, (classAt t 0 1).stages, tget (t.die 0).gal.ctr 0 4))
    (exec (.gownWrite 0 1 0x8005000C) (gallery (gcmd (.gtd x1 x2) 0 0) (fun g => { g with ctr := [(4, 6)] }) id)) = some (true, 5, 12, 0, 0) := by decide +kernel
def rec0 : GRec := { cls := 1, src := 0, f := [7, 2, 3, 4, 0, 0, 0, 0, 0, 0, 0, 0, 21, 22, 23, 24], cmd := some 5 }
/-- Source: R329: the record is read, then it enters the class's injection queue. -/
theorem test_gallery_inject :
    nextOf (fun t => ((classAt t 0 1).injq.length, (t.core 0).gal.queue.map (fun q => (q.started, q.rd.map List.length))))
      (exec (.engineRead 0 .GL) ((galleryReads (gcmd (.ginj x1 x2) 1 0x100)).updMs (fun m => { m with mem := [⟨0x104, 9⟩] }))) =
        some (0, [(false, some 64)]) ∧
    nextOf (fun t => ((classAt t 0 1).injq.map (fun x => (x.f.take 2, x.cmd, x.kind)), (t.core 0).gal.queue.map (·.started)))
      (exec (.engineRead 0 .GL) (galleryReads { gcmd (.ginj x1 x2) 1 0x100 with rd := some (wordBytes (0 :: 9 :: List.replicate 14 0)) })) =
        some ([([0, 9], some 5, 0)], [true]) := by decide +kernel
theorem test_gallery_admit : let s := gallery (gcmd (.ginj x1 x2) 1 0x100) id (fun g => { g with injq := [rec0], gen := 3 })
    nextOf (fun t => ((classAt t 0 1).injq.length, (t.die 0).gal.flight.map (fun x => (x.gen, x.stage)), (t.die 0).gal.last)) (exec (.galleryAdmit 0 1) s) =
      some (0, [(3, 0)], 1) ∧
    nextOf (fun t => (classAt t 0 1).injq.length) (exec (.galleryAdmit 0 1) (s.updDie 0 (fun d => { d with gal := { d.gal with cls :=
      [(1, { stages := 4, injq := [rec0], exitq := List.replicate 16 rec0 })] } }))) = some 1 := by decide +kernel
/-- Stage 2 matches field 0 exactly: 7 runs action 5, whose slots are the list l. -/
def staged (l : List Word) (f : GRec → GRec) : State := gallery (gcmd (.ginj x1 x2) 1 0x100)
  (fun g => { g with flight := [f { rec0 with stage := 2 }], active := [(2, { conf := 0x40000000, exact := [(3, 7, 5)], act := [(5, l)] })], ctr := [(1, 6)] }) id
theorem test_witness_gallery_stage : (staged [] id).die 0 |>.gal.flight[0]? = some { rec0 with stage := 2 } := rfl
theorem test_witness_gallery_chosen : chosen { conf := 0x40000000, exact := [(3, 7, 5)] } rec0 (some 5) := by
  refine Or.inl ⟨3, 5, rfl, ?_, ?_⟩
  · exact List.mem_singleton.mpr (by decide)
  · intro j b h
    have h : (j, keyOf 0x40000000 rec0, b) = (3, 7, 5) := List.mem_singleton.mp h
    injection h with h
    omega
/-- Source: R304 by hand: SETI, ADDI, MOV, ANDI; a counter at its threshold sets C, which the next slot's condition reads. -/
theorem test_gallery_stage : nextOf (fun t => (t.die 0).gal.flight.map (fun x => (x.f.take 4, x.stage))) (exec (.galleryStage 0 0)
      (staged [0x44400009, 0x48BFFFFF, 0x4CC40000, 0x5C000003] id)) = some [([3, 9, 2, 9], 3)] ∧
    nextOf (fun t => ((t.die 0).gal.flight.map (fun x => (x.f.take 2, x.c)), tget (t.die 0).gal.ctr 0 1)) (exec (.galleryStage 0 0)
      (staged [0x50000406, 0x84400009, 0xC4000008, 0] id)) = some ([([8, 2], true)], 6) ∧
    nextOf (fun t => ((t.die 0).gal.flight.map (·.c), tget (t.die 0).gal.ctr 0 1)) (exec (.galleryStage 0 0) (staged [0x50000407, 0, 0, 0] id)) = some ([false], 7) ∧
    nextOf (fun t => (t.die 0).gal.flight.map (fun x => (x.kind, x.k, x.rq))) (exec (.galleryStage 0 0) (staged [0x55180000, 0x58000000, 0, 0] id)) =
      some [(2, 3, true)] ∧
    nextOf (fun t => ((t.die 0).gal.flight.length, (classAt t 0 1).drop)) (exec (.galleryStage 0 0) (staged [] (fun r => { r with poison := 1, cmd := none }))) =
      some (0, 1) := by decide +kernel
def leaving (h : GClass → GClass) (f : GRec → GRec) : State :=
  gallery { gcmd (.ginj x1 x2) 1 0x100 with started := true } (fun g => { g with flight := [f { rec0 with stage := 16 }] }) h
theorem test_witness_gallery_leave : commandStands (leaving id id) rec0 5 := ⟨rfl, by decide, by decide⟩
/-- Source: R306 to R308, R314, R329. -/
theorem test_gallery_leave : nextOf (fun t => (t.core 0).gal.queue.map (fun q => (q.done, q.ret.isSome))) (exec (.galleryLeave 0 0) (leaving id (fun r => { r with gen := 3, pass := 1 }))) =
      some [(some 0x0203FFFF, true)] ∧
    nextOf (fun t => ((t.core 0).gal.queue.map (fun q => (q.done, q.ret.isSome)), (classAt t 0 1).drop)) (exec (.galleryLeave 0 0) (leaving id (fun r => { r with kind := 3 }))) =
      some ([(some 0x3000FFFF, false)], 1) ∧
    nextOf (fun t => (t.die 0).gal.flight.map (fun x => (x.pass, x.stage, x.rq))) (exec (.galleryLeave 0 0) (leaving (fun g => { g with rlim := 1 }) (fun r => { r with rq := true }))) =
      some [(1, 0, false)] ∧
    nextOf (fun t => ((t.core 0).gal.queue.map (·.done), (classAt t 0 1).limhit)) (exec (.galleryLeave 0 0) (leaving (fun g => { g with rlim := 1 }) (fun r => { r with rq := true, pass := 1 }))) =
      some ([some 0x0A00FFFF], 1) ∧
    nextOf (fun t => (t.core 0).gal.queue.map (·.done)) (exec (.galleryLeave 0 0) (leaving id (fun r => { r with kind := 1 }))) = some [some 0x4000FFFF] ∧
    nextOf (fun t => (t.core 0).gal.queue.map (·.done)) (exec (.galleryLeave 0 0) (leaving id (fun r => { r with kind := 2 }))) = some [some 0x5000FFFF] ∧
    nextOf (fun t => t.exported.map (·.length)) (exec (.galleryLeave 0 0) (leaving id (fun r => { r with kind := 4 }))) = some [16] := by decide +kernel
def exiting (f : GRec → GRec) : State := leaving (fun g => { g with exitq := [f rec0] }) id
def twoFlights (room : Nat) : Launch := { launch0 with flights := [⟨0x1000, 0, room⟩, ⟨0x1000, 0, room⟩], parts := [(0, { handle := 4, clusters := [], landings := [[], []], waitSince := 0 })] }
theorem test_witness_gallery_landing : ((leaving id (fun r => { r with kind := 2, k := 1, f := r.f.set 1 0x0400 })).byHandle 0 (fld 0x0400 8 16)).isSome = false ∧
    (({ leaving id id with launches := [(1, twoFlights 2)] } : State).byHandle 0 4).map (·.1) = some 1 := by decide +kernel
theorem test_gallery_exit : nextOf (fun t => ((t.core 0).gal.queue.map (·.done), (classAt t 0 1).exitq.length, (t.launches.map (fun l => (l.2.parts.map (fun p => p.2.landings)).flatten)).flatten.flatten.flatten))
      (exec (.exitBufferRelease 0 1) { exiting (fun r => { r with land := some (1, 1) }) with launches := [(1, twoFlights 2)] }) =
        some ([some 0x2000FFFF], 0, [21, 22, 23, 24]) ∧
    nextOf (fun t => (classAt t 0 1).exitq.length) (exec (.exitBufferRelease 0 1) { exiting (fun r => { r with land := some (1, 1) }) with launches := [(1, twoFlights 0)] }) =
      some 1 := by decide +kernel
theorem test_gallery_message : let s := (exiting (fun r => { r with kind := 1, f := r.f.set 0 3 })).updCore 0 (fun c => { c with rank := some 1, rankCache := [(3, 0x80000009)] })
    nextOf (fun t => ((t.core 0).gal.queue.map (·.done), (tget (t.core 9).recvq [] 0).map (fun m => (m.channel, m.payloadSlots)))) (exec (.exitBufferRelease 0 1) (withReceiver s id)) =
      some ([some 0x1000FFFF], [(0, 1)]) := by decide +kernel
def galDone (i : Instr) (v : Word) (f : Cmd → Cmd) (g : Core → Core) : State :=
  (gallery (f { gcmd i 1 0x100 with started := true, done := some v }) id id).updCore 0 g
/-- Source: R329, R333: the record's handle in the result; a cause discards what is behind it. -/
theorem test_gallery_results : nextOf (fun t => ((t.core 0).regs.q[2].map (·.w), (t.core 0).gal.slots.length, (t.core 0).cnt.gl))
      (exec (.engineComplete 0 .GL) (galDone (.ginj x1 x2) 0x3000FFFF id id)) = some ([0x3000FFFF], 0, 0) ∧
    nextOf (fun t => ((t.core 0).regs.q[2].map (·.w), (t.core 0).gal.slots.map (·.1)))
      (exec (.engineComplete 0 .GL) (galDone (.ginj x1 x2) 0x0003FFFF (fun q => { q with ret := some rec0 }) (fun c => { c with gal := { c.gal with slots := [(0, rec0)] } }))) =
        some ([0x00030001], [0, 1]) ∧
    nextOf (fun t => ((t.core 0).regs.get 5, (t.core 0).acc.length)) (exec (.engineComplete 0 .GL)
      (galDone (.gcmt (.x 5) x1) 4 id (fun c => { c with acc := [{ op := .engine .GL, d := .x 5 }], regs := c.regs.empty 5 }))) = some (4, 0) ∧
    nextOf (fun t => ((t.core 0).gal.flt.cause, (t.core 0).gal.flt.f2, (t.core 0).regs.q[2].map (·.w), (t.core 0).gal.waiting)) (exec (.engineComplete 0 .GL)
      (galDone (.ginj x1 x2) 0 (fun q => { q with cause := some ⟨0x40, 1, 0⟩ }) id)) = some (0x40, 0xFF, [0x7000FFFF], some ⟨0x40, 1, 0⟩) := by decide +kernel
def gtake0 (a b : Word) : State := mem0 (fun c => { c with gal := { c.gal with slots := [(1, rec0)] }, regs := (c.regs.put 1 a false).put 2 b false })
theorem test_gtake : (gtake0 1 0x100).ready { a := x1, b := x2, engs := [.GL], moves := true } = true ∧
    nextOf (fun t => ((t.core 0).buf.map (·.bytes.length), (t.core 0).gal.slots.length, (t.core 0).pc)) (exec (.gtake x1 x2) (gtake0 1 0x100)) =
      some (List.replicate 16 4, 0, 0x1004) ∧
    nextOf (fun t => ((t.core 0).buf.length, (t.core 0).gal.slots.length)) (exec (.gtake x1 ⟨.x 0, false⟩) (gtake0 0x10001 0)) = some (0, 0) ∧
    nextOf (fun t => (t.core 0).tr.cause) (exec (.gtake x1 x2) (gtake0 2 0x100)) = some 0x41 ∧
    nextOf (fun t => (t.core 0).tr.cause) (exec (.gtake x1 x2) (gtake0 0x11 0x100)) = some 0x41 ∧
    nextOf (fun t => (t.core 0).tr.cause) (exec (.gtake x1 x2) (gtake0 0x10001 0x100)) = some 2 ∧
    nextOf (fun t => ((t.core 0).tr.cause, (t.core 0).tr.addr)) (exec (.gtake x1 x2) (gtake0 1 0x102)) = some (4, 0x102) := by decide +kernel
theorem test_witness_gtake : (translateWords (gtake0 1 0x100) 0 0 ((List.range 16).map (fun n => (0x100 + 4 * n) % 2 ^ 32)) []).1.isLeft = true := by decide +kernel
/-! ### The ferry -/

def blk0 : FBlock := { n := 1, vaddr := 0x100, haddr := 0x200, asid := 0, vpas := [], hpas := [], mass := 3, key := 9, group := 2, boff := 0, values := [0x40C00000] }
def half0 : FHalf := { tag := 5, key := 9, seq := 1, round := 0, fid := 8, bind := 4, mass := 2, v := [0x40000000], src := some 1 }
/-- Group 2 of die 0, which rounds when stepped and names rank 3, and its block 3; rank 3 is core 9 of this package. -/
def ferryDie (b : FBlock → FBlock) (g : FGroup → FGroup) (f : Ferry → Ferry) (s : State) : State :=
  ((s.updDie 0 (fun d => { d with fer := f { d.fer with
    groups := [(2, g { tag := 5, ncount := 1, en := true, nb := [(0, 0x01000003)], ownValid := true, ownPart := 63 })], blocks := [(3, b blk0)] } })).updMs
      (fun m => { m with mem := [⟨12, 9⟩, ⟨15, 0x80⟩] })).updPart 63 (fun p => { p with ranklog := 4 })
def ferryCmd (q : Cmd) (acc : List Access) (s : State) : State :=
  s.updCore 0 (fun c => { c with fer := { c.fer with queue := [q], gsel := 2 }, cnt := { PS := 1 }, acc })
def ferry (q : Cmd) (acc : List Access) (b : FBlock → FBlock) (g : FGroup → FGroup) : State := ferryCmd q acc (ferryDie b g id (mem0 id))
theorem test_witness_ferry : ferTurn (ferry (gcmd (.psread x1 x2) 3 0x100) [] id id) 0 (gcmd (.psread x1 x2) 3 0x100) [] ∧
    blockAt (ferry (gcmd (.psread x1 x2) 3 0x100) [] id id) 0 3 = some blk0 := ⟨⟨rfl, rfl, rfl, rfl, by decide⟩, rfl⟩
/-- Source: R363, R361 by hand: 6 ÷ 3 is 2; a delta of 0.5 at mass 3 adds 1.5. -/
theorem test_ferry_reads : nextOf (fun t => (t.ms.byteAt (.die 0) 0x103, (t.core 0).cnt.PS)) (exec (.engineComplete 0 .PS)
      (ferry { gcmd (.psread x1 x2) 3 0x100 with wr := some [0x100] } [] id id)) = some (0x40, 0) ∧
    nextOf (fun t => (t.ms.byteAt (.die 0) 0x102, (t.core 0).regs.q[4].map (·.w))) (exec (.engineComplete 0 .PS)
      (ferry { gcmd (.psread x1 x2) 3 0x100 with wr := some [0x100] } [] (fun b => { b with mass := 0 }) id)) = some (0xE0, [0x80030000]) ∧
    nextOf (fun t => (blockAt t 0 3).map (·.values)) (exec (.engineComplete 0 .PS) (ferry { gcmd (.psadd x1 x2) 3 0x100 with rd := some (wordBytes [0x3F000000]) } [] id id)) =
      some (some [0x40F00000]) ∧
    nextOf (fun t => ((t.core 0).fer.flt.cause, (t.core 0).fer.flt.f1)) (exec (.engineComplete 0 .PS)
      (ferry { gcmd (.psadd x1 x2) 3 0x100 with rd := some (wordBytes [0x3F000000]) } [] (fun b => { b with qui := true }) id)) = some (0x52, 3) ∧
    nextOf (fun t => ((t.core 0).fer.flt.cause, (t.core 0).fer.flt.f1)) (exec (.engineComplete 0 .PS) (ferry (gcmd (.psread x1 x2) 4 0x100) [] id id)) =
      some (0x51, 4) := by decide +kernel
theorem test_witness_ferry_add : (translateRun (ferry (gcmd (.psadd x1 x2) 3 0x500) [] id id) 0 0 .load ((List.range (4 * blk0.n)).map (fun i => ((0x500 : Word).toNat + i) % 2 ^ 32)) []).1 =
      .inl [0x500, 0x501, 0x502, 0x503] := by decide +kernel
/-- No line is lost where the only die of the table, and every other, is not. -/
theorem test_witness_ferry_line : (ferry (gcmd (.psadd x1 x2) 3 0x500) [] id id).lineLost 20 = false := by
  have h : ∀ n, ((ferry (gcmd (.psadd x1 x2) 3 0x500) [] id id).die n).lost = false := by
    intro n
    show (tget [(0, (ferry (gcmd (.psadd x1 x2) 3 0x500) [] id id).die 0)] {} n).lost = false
    by_cases e : 0 = n
    · subst e; rfl
    · have e : n ≠ 0 := fun h => e h.symm
      simp [tget, tfind, e]
  show ([].contains 20 || ((ferry (gcmd (.psadd x1 x2) 3 0x500) [] id id).die _).lost) = false
  rw [h]; rfl
def own0 (n : Nat) : List Access := [{ op := .engine .PS, d := .x 4, nregs := n }]
theorem test_ferry_results : nextOf (fun t => ((t.core 0).regs.get 4, (t.core 0).regs.get 5, (t.core 0).acc.length)) (exec (.engineComplete 0 .PS)
      (ferry (gcmd (.psmass 4 x1) 3 0) (own0 2) (fun b => { b with mass := 0x100000003 }) id)) = some (3, 1, 0) ∧
    nextOf (fun t => ((t.core 0).regs.get 4, (t.core 0).regs.get 5)) (exec (.engineComplete 0 .PS)
      (ferry (gcmd (.psheld 4 x1) 3 0) (own0 2) (fun b => { b with held := some ⟨0, 3, half0, 9⟩ }) id)) = some (2, 0) ∧
    nextOf (fun t => ((t.core 0).regs.get 4, (blockAt t 0 3).map (·.dis))) (exec (.engineComplete 0 .PS)
      (ferry (gcmd (.psdis (.x 4) x1) 3 0) (own0 1) (fun b => { b with dis := 0x3F800000 }) id)) = some (0x3F800000, some 0) ∧
    nextOf (fun t => ((t.core 0).regs.get 4)) (exec (.engineComplete 0 .PS)
      (ferry { gcmd (.psbind (.x 4) x1) 3 0 with done := some 6 } (own0 1) id id)) = some 6 ∧
    nextOf (fun t => ((t.core 0).regs.q[4].map (·.w))) (exec (.engineComplete 0 .PS)
      (ferry { gcmd (.psqui x1 x2) 3 1 with done := some 0x90030000 } [] id id)) = some [0x90030000] := by decide +kernel
theorem test_ferry_quiesces : nextOf (fun t => ((blockAt t 0 3).map (fun b => (b.qui, b.mass, b.values)), (t.core 0).fer.queue.map (·.done))) (exec (.engineRead 0 .PS)
      (ferry (gcmd (.psqui x1 x2) 3 1) [] (fun b => { b with pending := [half0], pend := 2 }) id)) = some (some (true, 5, [0x41000000]), [some 0x90030000]) ∧
    nextOf (fun t => ((blockAt t 0 3).map (fun b => (b.qui, b.quiWait)), (t.core 0).fer.queue.map (·.done))) (exec (.engineRead 0 .PS)
      (ferry (gcmd (.psqui x1 x2) 3 1) [] (fun b => { b with held := some ⟨0, 3, half0, 9⟩ }) id)) = some (some (false, true), [none]) ∧
    nextOf (fun t => (blockAt t 0 3).map (·.qui)) (exec (.engineComplete 0 .PS)
      (ferry (gcmd (.psqui x1 x2) 3 0) [] (fun b => { b with qui := true }) id)) = some (some false) := by decide +kernel
theorem test_ferry_leaves : nextOf (fun t => ((blockAt t 0 3).map (·.leave), (t.core 0).fer.queue.map (·.done))) (exec (.engineRead 0 .PS)
      (ferry (gcmd (.psleave x1 x2) 3 0) [] id id)) = some (some (some 0), [none]) ∧
    nextOf (fun t => ((blockAt t 0 3).map (·.leave), (t.core 0).fer.queue.map (·.done))) (exec (.engineRead 0 .PS)
      (ferry (gcmd (.psleave x1 x2) 3 1) [] id id)) = some (some none, [some 0x70030001]) := by decide +kernel
/-- Source: R362: a new handle, its arrays at 0x300 and 0x400 and mass 2; then a key that is bound. -/
def bind0 (i : Instr) (b key : Word) : State :=
  ferry { gcmd i 0 b with data := [key ||| 2, 1, 0x300, 0x400, 2, 0] } (own0 1) id id
theorem test_ferry_binds : nextOf (fun t => ((t.core 0).fer.queue.map (·.done), t.die 0 |>.fer.blocks.length)) (exec (.engineRead 0 .PS) (bind0 (.psbind (.x 4) x1) 0 0x90000)) =
      some ([some 0xFFFFFFFE], 1) ∧
    nextOf (fun t => ((t.core 0).fer.queue.map (·.done))) (exec (.engineRead 0 .PS) (bind0 (.psjoin x1 x2) 3 0x70000)) = some [some 0xFFFFFFFE] := by decide +kernel
theorem test_witness_ferry_binds : (translateRun (bind0 (.psbind (.x 4) x1) 0 0x70000) 0 0 .store [0x300] []).1 = .inl [0x300] ∧
    (bind0 (.psbind (.x 4) x1) 0 0x70000).ms.owned 12 = false ∧ blockAt (bind0 (.psbind (.x 4) x1) 0 0x70000) 0 0 = none := ⟨rfl, by decide +kernel, rfl⟩
/-- Source: R344 by hand: of mass 3 and value 6, mass 1 and value 3 leave for entry 0's rank. -/
theorem test_ferry_round : nextOf (fun t => ((blockAt t 0 3).map (fun b => (b.mass, b.values, b.round)), ((blockAt t 0 3).bind (·.held)).map (fun h => (h.half.mass, h.half.v))))
      (exec (.engineComplete 0 .PS) (ferry (gcmd (.psstep x1) 0x80000003 0) [] id id)) = some (some (2, [0x40400000], 1), some (1, [0x40400000])) ∧
    nextOf (fun t => ((t.die 0).fer.transit.length, (blockAt t 0 3).map (·.round)))
      (exec (.engineComplete 0 .PS) (ferry (gcmd (.psstep x1) 2 0) [] id id)) = some (1, some 1) ∧
    nextOf (fun t => ((t.die 0).fer.transit.length, (blockAt t 0 3).map (·.round)))
      (exec (.engineComplete 0 .PS) (ferry (gcmd (.psstep x1) 0x80000003 0) [] (fun b => { b with mass := 1 }) id)) = some (0, some 1) := by decide +kernel
theorem test_witness_ferry_rank : (rankEntry (ferry (gcmd (.psstep x1) 2 0) [] id id) 0 63 3).1 = some 0x80000009 ∧
    (rankEntry (ferry (gcmd (.psstep x1) 2 0) [] id id) 0 63 16).1 = none ∧ entryPkg 0x80000009 = 0 := ⟨rfl, rfl, rfl⟩
/-- A group that rounds by itself. -/
theorem test_ferry_free_running : let s := ferryDie id (fun g => { g with mode := true, due := 2048 }) id (mem0 id)
    nextOf (fun t => ((blockAt t 0 3).map (·.round), (groupAt t 0 2).due)) (exec (.ferryRound 0 2) { s with ck := 2048 }) = some (some 1, 4096) ∧
    nextOf (fun t => (blockAt t 0 3).map (·.round)) (exec (.ferryRound 0 2) { s with ck := 2047 }) = some (some 0) := by decide +kernel
def arriving (m : FMsg) (b : FBlock → FBlock) : State := ferryDie b id (fun f => { f with transit := [m] }) (mem0 id)
theorem test_ferry_half : nextOf (fun t => ((blockAt t 0 3).map (fun b => (b.pend, b.senders)), (t.die 1).fer.transit, (t.die 0).fer.transit)) (exec (.ferryHalfArrival 0 0) (arriving (.half half0) id)) =
      some (some (2, [(8, 1)]), [.reply 4 1 true], []) ∧
    nextOf (fun t => ((blockAt t 0 3).map (·.pend), (t.die 1).fer.transit)) (exec (.ferryHalfArrival 0 0) (arriving (.half half0) (fun b => { b with senders := [(8, 1)] }))) =
      some (some 0, [.reply 4 1 true]) ∧
    nextOf (fun t => (t.die 1).fer.transit) (exec (.ferryHalfArrival 0 0) (arriving (.half half0) (fun b => { b with senders := [(8, 2)] }))) = some [.reply 4 1 false] ∧
    nextOf (fun t => (t.die 1).fer.transit) (exec (.ferryHalfArrival 0 0) (arriving (.half half0) (fun b => { b with key := 8 }))) = some [.reply 4 1 false] ∧
    nextOf (fun t => (t.die 1).fer.transit) (exec (.ferryHalfArrival 0 0) (arriving (.half half0) (fun b => { b with qui := true }))) = some [.reply 4 1 false] := by decide +kernel
def heldBlk (b : FBlock) : FBlock := { b with held := some ⟨0, 3, half0, 900⟩ }
theorem test_ferry_replies : nextOf (fun t => (blockAt t 0 3).map (fun b => (b.held, b.pend))) (exec (.ferryAckArrival 0 0) (arriving (.reply 0 1 true) heldBlk)) = some (some (none, 0)) ∧
    nextOf (fun t => (blockAt t 0 3).map (fun b => (b.held, b.pend, b.unc))) (exec (.ferryRefusalArrival 0 0) (arriving (.reply 0 1 false) heldBlk)) = some (some (none, 2, 0)) ∧
    nextOf (fun t => ((blockAt t 0 3).map (fun b => (b.gain, b.unc)), (groupAt t 0 2).evq)) (exec (.ferryAckArrival 0 0) (arriving (.reply 0 1 true) (fun b => { b with returned := [(1, 2, 0)], unc := 2 }))) =
      some (some (2, 0), [0x30030000]) ∧
    nextOf (fun t => (blockAt t 0 3).map (·.mass)) (exec (.ferryAckArrival 0 0)
      (arriving (.reply 0 1 true) (fun b => { heldBlk b with leave := some 0, leaveSent := true, leaveRecalled := true }))) = some none := by decide +kernel
/-- Source: R347, R349, R354: at its deadline, a held half of mass 2 is pending and unconfirmed; event 1. -/
theorem test_ferry_timeout : nextOf (fun t => ((blockAt t 0 3).map (fun b => (b.held, b.pend, b.unc, massOf b)), (groupAt t 0 2).evq)) (exec (.ferryHalfTimeout 0 3)
      { ferryDie heldBlk id id (mem0 id) with ck := 900 }) = some (some (none, 2, 2, 5), [0x10030000]) ∧
    nextOf (fun t => (blockAt t 0 3).map (·.pend)) (exec (.ferryHalfTimeout 0 3) { ferryDie heldBlk id id (mem0 id) with ck := 899 }) = some (some 0) ∧
    massOf (heldBlk blk0) = 5 := by decide +kernel
theorem test_ferry_handover : nextOf (fun t => ((blockAt t 0 3).map (fun b => (b.mass, b.values, b.leaveSent)), (t.die 0).fer.transit.length)) (exec (.ferryHandover 0 3)
      (ferryDie (fun b => { b with leave := some 0 }) id id (mem0 id))) = some (some (0, [0], true), 1) ∧
    nextOf (fun t => ((blockAt t 0 3).map (·.leave), (groupAt t 0 2).evq)) (exec (.ferryHandover 0 3)
      (ferryDie (fun b => { b with leave := some 1, leaveRecalled := true }) id id (mem0 id))) = some (some none, [0x70030001]) := by decide +kernel
theorem test_witness_ferry_mass : (∀ n y, blockAt (ferry (gcmd (.psstep x1) 2 0) [] id id) 0 n = some y → massSound y) ∧
    rising ((ferry (gcmd (.psstep x1) 2 0) [] id id).die 0).fer.blocks := by
  refine ⟨fun n y h => ?_, List.pairwise_singleton _ _⟩
  have h : tfind [(3, blk0)] n = some y := h
  by_cases e : 3 = n
  · subst e
    injection h with h
    subst h
    exact ⟨by decide, by decide⟩
  · simp [tfind, Ne.symm e] at h
def ferryRegs (f : FGroup → FGroup) : State := ferryCmd (gcmd (.psstep x1) 2 0) [] (ferryDie id f id (mem0 id))
theorem test_ferry_registers : nextOf (fun t => (groupAt t 0 2).evq) (exec (.fgevqRead 0) (ferryRegs (fun g => { g with evq := [7, 8] }))) = some [8] ∧
    nextOf (fun t => (groupAt t 0 2).tag) (exec (.fgtagWrite 0 6) (ferryRegs id)) = some 6 ∧
    nextOf (fun t => (groupAt t 0 2).nb) (exec (.fnbWrite 0 4) (ferryRegs id)) = some [(0, 4)] ∧
    nextOf (fun t => (groupAt t 0 2).nb) (exec (.fnbWrite 0 0x03000003) (ferryRegs id)) = some [(0, 0x03000003)] ∧
    nextOf (fun t => (t.core 0).tr.cause) (exec (.fnbWrite 0 0x01000004) (ferryRegs id)) = some 0x53 := by decide +kernel
theorem test_ferry_owners :
    nextOf (fun t => (t.core 0).tr.cause) (exec (.fgtagWrite 0 6) (ferryRegs (fun g => { g with ownPart := 62 }))) = some 0x50 ∧
    nextOf (fun t => ((t.core 1024).tr.double, (t.die 0).fer.fid)) (exec (.ferryidWrite 0 6) (ferryRegs id)) = some (true, 0) ∧
    nextOf (fun t => (t.die 0).fer.fid) (exec (.ferryidWrite 0 6) (ferryRegs (fun g => { g with en := false }))) = some 6 ∧
    nextOf (fun t => (groupAt t 0 0).ownPart) (exec (.fgownWrite 0 0x80050000) (ferryRegs id)) = some 5 := by decide +kernel
def copier (v status : Nat) (b : FBlock → FBlock) : State := (ferryDie b id id (mem0 id)).updCore 0 (fun c =>
  { c with sup := { c.sup with fckStatus := status, fckblock := v, fckaddr := 0x300 } })
theorem test_ferry_copy : nextOf (fun t => ((t.core 0).sup.fckStatus, (t.core 0).sup.fckReason)) (exec (.fckctlGo 0 0x80000003) (copier 0 0 id)) = some (3, 1) ∧
    nextOf (fun t => ((t.core 0).sup.fckStatus, (t.core 0).sup.fckReason)) (exec (.fckctlGo 0 0x80000004) (copier 0 0 id)) = some (3, 2) ∧
    nextOf (fun t => ((t.core 0).sup.fckStatus, (blockAt t 0 3).map (·.copying))) (exec (.fckctlGo 0 0x80000003) (copier 0 0 (fun b => { b with qui := true }))) = some (1, some true) ∧
    nextOf (fun t => ((t.core 0).sup.fckStatus, t.ms.byteAt (.die 0) 0x303, (t.core 0).sup.fckcrc == crcOf [0, 0, 0xC0, 0x40])) (exec (.ferryCheckpointCopyDone 0) (copier 3 1 id)) =
      some (2, 0x40, true) := by decide +kernel
/-- CRC-32C of "123456789" is 0xE3069283 (R386's polynomial). -/
theorem test_crc : crcOf [0x31, 0x32, 0x33, 0x34, 0x35, 0x36, 0x37, 0x38, 0x39] = 0xE3069283 := by decide +kernel
/-! ### Stash, copies, tiers -/

/-- Core 0 with a window of 128 KiB at 0 and lines 4 and 5 in it, both dirty. -/
def stash (a b : Word) : State := mem0 (fun c => { c with cache := 9, held := [(4, 4), (5, 5)], dirty := [(4, 4), (5, 5)], regs := (c.regs.put 1 a false).put 2 b false })
theorem test_stash : (stash 0x100 64).ready { a := x1, b := x2 } = true ∧
    nextOf (fun t => ((t.core 0).held, (t.core 0).dirty, (t.core 0).pc)) (exec (.stfl x1 x2) (stash 0x100 64)) = some ([(4, 4), (5, 5)], [(5, 5)], 0x1004) ∧
    nextOf (fun t => ((t.core 0).held, (t.core 0).dirty)) (exec (.stiv x1 x2) (stash 0x140 1)) = some ([(4, 4)], [(4, 4)]) ∧
    nextOf (fun t => (t.core 0).held) (exec (.stfil x1 x2) (stash 0x180 64)) = some [(6, 6), (4, 4), (5, 5)] ∧
    nextOf (fun t => (t.core 0).held) (exec (.stfil x1 x2) (stash 0x100 128)) = some [(4, 4), (5, 5)] := by decide +kernel
theorem test_stash_traps : nextOf (fun t => ((t.core 0).tr.cause, (t.core 0).tr.addr)) (exec (.stfl x1 x2) (stash 0x104 64)) = some (4, 0x104) ∧
    nextOf (fun t => (t.core 0).tr.cause) (exec (.stiv x1 x2) (stash 0x100 0x80000040)) = some 2 ∧
    nextOf (fun t => (t.core 0).tr.cause) (exec (.stfil x1 x2) (stash 0x100 0x00200000)) = some 2 ∧
    nextOf (fun t => ((t.core 0).tr.cause, (t.core 0).tr.addr)) (exec (.stfil x1 x2) ((stash 0x180 64).updMs (fun m => { m with asidPt := [(0, 1)], tlb := [], mem := [⟨65536, 3⟩] }))) =
      some (5, 0x180) ∧
    nextOf (fun t => (t.core 0).standing) (exec (.stfil x1 x2) ((stash 0x180 64).updMs (fun m => { m with own := [(6, .CP, 0, 1)] }))) = some (some (.stfil x1 x2)) := by decide +kernel
theorem test_witness_stash : windowHas (stash 0x180 64 |>.core 0) (6 * 64) ∧ rangeHas 0x180 64 6 ∧ ¬ rangeHas 0x180 64 7 ∧ ¬ windowHas (stash 0x180 64 |>.core 0) 0x20000 :=
  ⟨⟨by decide +kernel, by decide +kernel⟩, Or.inr ⟨by decide, by decide⟩, fun h => by rcases h with h | h <;> revert h <;> decide, fun h => absurd h.2 (by decide +kernel)⟩
def inval (a b : Word) : State := mem0 (fun c => { c with priv := .supervisor, tr := { c.tr with re := true }, held := [(4, 4)], dirty := [(4, 4)], regs := (c.regs.put 1 a false).put 2 b false })
def published (s : State) : State := s.updCore 0 (fun c => { c with pubDone := true })
/-- Source: R396: page 0 leaves every port; page 1 only nothing; another partition's ASID; a range past the last page. -/
theorem test_invalidations : (inval 0 1).ready { a := x1, b := x2, floor := .supervisor, moves := true } = true ∧
    nextOf (fun t => (t.ms.tlb.length, (t.core 0).held, (t.core 0).pc)) (exec (.tlbinv x1 x2) (published (inval 0 1))) = some (0, [], 0x1004) ∧
    nextOf (fun t => (t.ms.tlb.length, (t.core 0).held)) (exec (.tlbinv x1 x2) (published (inval 0 0x10001))) = some (4, [(4, 4)]) ∧
    nextOf (fun t => (t.core 0).tr.cause) (exec (.tlbinv x1 x2) ((inval 0 1).updMs (fun m => { m with asidPart := [(0, 5)] }))) = some 6 ∧
    nextOf (fun t => (t.core 0).tr.cause) (exec (.tlbinv x1 x2) (inval 0 0xFFFF0002)) = some 2 ∧
    nextOf (fun t => (t.core 0).tr.cause) (exec (.tlbinv x1 x2) (inval 0x10000 1)) = some 2 ∧
    nextOf (fun t => ((t.core 0).pubDone, (t.core 0).standing)) (exec (.tlbinv x1 x2) (inval 0 1)) = some (true, some (.tlbinv x1 x2)) := by decide +kernel
theorem test_witness_invalidations : (Access.release { op := .load 4 false, d := .x 5, st := .rearmed 0x10 false 0x10000, addr := 0x10000 } 0 0x00010001).st = .rearmed 0x10 true 0x10000 ∧
    rising (inval 0 1).cores ∧ (tfind (inval 0 1).cores 0).isSome = true := ⟨by decide +kernel, List.pairwise_singleton _ _, rfl⟩
/-- A move of page 0 of address space 0 to tier 2. -/
def move0 : TierMove := { asid := 0, page := 0, run := 0, frame := 0, src := 0, dst := 2, part := 63, leaf := 0x20000 }
def moving (m : TierMove) : State := (inval 0 1).updMs (fun x => { x with moves := [m] })
theorem test_tlbinv_waits : nextOf (fun t => (t.core 0).standing) (exec (.tlbinv x1 x2) (published (moving { move0 with stage := 1 }))) = some (some (.tlbinv x1 x2)) ∧
    nextOf (fun t => (t.core 0).standing) (exec (.tlbinv x1 x2) (published (moving move0))) = some none := by decide +kernel
/-- A copy of two rows of 4 bytes, 0x100 to 0x200, row strides 4. -/
def cpy0 (f : Cmd → Cmd) (h : CpyCore → CpyCore) : State :=
  (mem0 (fun c => { c with cpy := h { c.cpy with queue := [f { gcmd (.cpy (.x 5) x1) 0x300 0 with data := [0x100, 0x200, 0x20004, 4, 4, 0, 0, 0] }] }, cnt := { CP := 1 } })).updMs
    (fun m => { m with mem := [⟨0x100, 7⟩, ⟨0x104, 9⟩] })
theorem test_witness_copy : cpyTurn (cpy0 id id) 0 { gcmd (.cpy (.x 5) x1) 0x300 0 with data := [0x100, 0x200, 0x20004, 4, 4, 0, 0, 0] } [] ∧
    (translateRun (cpy0 id id) 0 0 .load (rowFrom [0x100, 0x200, 0x20004, 4, 4, 0, 0, 0] 1) []).1 = .inl [0x104, 0x105, 0x106, 0x107] ∧
    (translateRun (cpy0 id id) 0 0 .store (rowTo [0x100, 0x200, 0x20004, 4, 4, 0, 0, 0] 1) []).1 = .inl [0x204, 0x205, 0x206, 0x207] := ⟨⟨rfl, rfl, rfl, rfl⟩, rfl, rfl⟩
def twoWrites (c : CpyCore) : CpyCore := { c with row := 2, pend := [(0x200, 7, false), (0x204, 9, false)] }
/-- Source: R392, R394 by hand. -/
theorem test_copy : nextOf (fun t => ((t.core 0).cpy.row, (t.core 0).cpy.pend.map (fun x => (x.1, x.2.1)))) (exec (.copyRowRead 0) (cpy0 id (fun c => { c with row := 1 }))) =
      some (2, [(0x204, 9), (0x205, 0), (0x206, 0), (0x207, 0)]) ∧
    nextOf (fun t => (t.ms.byteAt (.cluster 0) 0x204, (t.core 0).regs.q[3].map (·.w), (t.core 0).cnt.CP, (t.core 0).cpy.row)) (exec (.engineComplete 0 .CP) (cpy0 id twoWrites)) =
      some (9, [0x10000005], 0, 0) ∧
    nextOf (fun t => (t.core 0).regs.q[3].map (·.w)) (exec (.engineComplete 0 .CP)
      (cpy0 (fun q => { q with data := q.data.set 5 1 }) twoWrites)) = some [0x10010005] ∧
    nextOf (fun t => ((t.core 0).cpy.flt.cause, (t.core 0).regs.q[3].map (·.w))) (exec (.engineComplete 0 .CP)
      (cpy0 (fun q => { q with data := q.data.set 5 1 }) (fun c => { c with row := 2, c1 := 0 }))) = some (0x61, [0x13000005]) := by decide +kernel
theorem test_copy_faults : nextOf (fun t => ((t.core 0).cpy.flt.cause, (t.core 0).cpy.flt.addr, (t.core 0).cpy.waiting)) (exec (.copyRowRead 0)
      ((cpy0 id id).updMs (fun m => { m with tlb := [] }))) = some (0x10, 0x100, some ⟨0x10, 0x300, 0x100⟩) ∧
    nextOf (fun t => ((t.core 0).cpy.flt.cause, (t.core 0).regs.q[3].map (·.w))) (exec (.copyRowRead 0)
      ((cpy0 id id).updPart 63 (fun p => { p with berths := [(1, { base := 0, log := 16 })] }))) = some (5, [0x13000005]) := by decide +kernel
/-! The tables of address space 1: its level 1 at frame 1, its leaves at 0x20000; page 0 is frame 7 of tier 0. -/
def tables (f : MemSys → MemSys) (s : State) : State :=
  (s.updMs (fun m => f { m with asidPt := [(1, 1)], asidPart := [(1, 5)], mem := [⟨0x10000, 1⟩, ⟨0x10002, 2⟩, ⟨0x20000, 1⟩, ⟨0x20002, 7⟩] })).updPart 5 (fun p =>
    { p with soft := [0, 0, 0], hard := [9, 9, 9], ranges := [(0, { valid := true, lo := 0, hi := 15 })] })
theorem test_witness_leaf : leafIs (tables id State.reset) 1 0 0x70001 ∧ leafPlace (tables id State.reset) 1 0 = 0x20000 := by
  refine ⟨⟨?_, ?_, ?_, ?_, ?_⟩, ?_⟩ <;> decide +kernel
/-- No byte of memory but the four is not 0, so that no page but 0 has a valid leaf. -/
theorem tables_byte (s : State) (p : Party) (a : Nat) (h : s.ms.hist = []) (h1 : a ≠ 0x10000 ∧ a ≠ 0x10002 ∧ a ≠ 0x20000 ∧ a ≠ 0x20002) :
    (tables id s).ms.byteAt p a = 0 := by
  simp only [tables, State.updMs, State.updPart, MemSys.byteAt, h, id, List.find?_nil]
  simp [memRead, memDefault, h1]
theorem tables_zero (s : State) (a : Nat) (h : s.ms.hist = []) (h1 : ∀ i, i < 8 → a + i ≠ 0x10000 ∧ a + i ≠ 0x10002 ∧ a + i ≠ 0x20000 ∧ a + i ≠ 0x20002) :
    (tables id s).ms.walk8 a = 0 := by
  have e (p : Party) : (tables id s).ms.bytesAt p a 8 = List.replicate 8 0 := by
    refine List.ext_getElem (by simp [MemSys.bytesAt]) (fun i h2 h3 => ?_)
    have : i < 8 := by simpa using h3
    rw [List.getElem_replicate]
    simpa [MemSys.bytesAt] using tables_byte s p (a + i) h (h1 i this)
  simp only [MemSys.walk8, e]; decide

theorem tables_leaf : ((leafOf (tables id (mem0 id)) 1 0).1) = some (0x20000, 0x70001) := by decide +kernel
theorem tables_pt : (tget (tables id (mem0 id)).ms.asidPt 0 1).toNat = 1 := rfl
theorem tables_asids : ((tables id (mem0 id)).ms.asidPart.filter (fun a => a.2 == 5)) = [(1, 5)] := rfl
theorem tables_level1 : (tables id (mem0 id)).ms.walk8 (1 * 65536 + 8 * 0) = 0x20001 := by decide +kernel
theorem range_split : ∀ n, n = 65535 + 1 → List.range n = 0 :: (List.range 65535).map (· + 1) := fun _ e => e ▸ List.range_succ_eq_map
theorem tables_rest : ∀ n, n < 65535 → (match (leafOf (tables id (mem0 id)) 1 (n + 1)).1 with
      | some (la, l) => if leafV l then some (1, n + 1, la, l) else none
      | none => none) = none := by
    intro n hm
    by_cases h : (n + 1) / 256 = 0
    · have e : (tables id (mem0 id)).ms.walk8 (1 * 65536 + 8 * ((n + 1) / 256)) = 0x20001 := by rw [h]; exact tables_level1
      have z : (tables id (mem0 id)).ms.walk8 (0x20000 + 8 * ((n + 1) % 256)) = 0 := tables_zero (mem0 id) _ rfl (fun i hi => by omega)
      have : (leafOf (tables id (mem0 id)) 1 (n + 1)).1 = some (0x20000 + 8 * ((n + 1) % 256), 0) := by
        unfold leafOf
        rw [tables_pt, if_neg (by decide), e, if_neg (by decide)]
        exact congrArg (fun v => some (0x20000 + 8 * ((n + 1) % 256), v)) z
      rw [this]; rfl
    · have e : (tables id (mem0 id)).ms.walk8 (1 * 65536 + 8 * ((n + 1) / 256)) = 0 := tables_zero (mem0 id) _ rfl (fun i hi => by omega)
      have : (leafOf (tables id (mem0 id)) 1 (n + 1)).1 = none := by
        unfold leafOf
        rw [tables_pt, if_neg (by decide), e]; rfl
      rw [this]
theorem tables_leaves : leavesOf (tables id (mem0 id)) 5 = [(1, 0, 0x20000, 0x70001)] := by
  unfold leavesOf
  rw [tables_asids, range_split 65536 rfl, List.foldr_cons, List.foldr_nil, List.append_nil, List.filterMap_cons, tables_leaf]
  have : ((List.range 65535).map (· + 1)).filterMap (fun page => match (leafOf (tables id (mem0 id)) 1 page).1 with
      | some (la, l) => if leafV l then some (1, page, la, l) else none
      | none => none) = [] := by
    rw [List.filterMap_eq_nil_iff]
    intro p hp
    obtain ⟨n, hn, rfl⟩ := List.mem_map.mp hp
    exact tables_rest n (List.mem_range.mp hn)
  exact congrArg (fun l => (1, 0, 0x20000, 0x70001) :: l) this
def inTables (f : Partition → Partition) : State := (tables id (mem0 id)).updPart 5 f
theorem occupied (f : Partition → Partition) : occupancy (inTables f) 5 0 = 1 := by
  have e : leavesOf (inTables f) 5 = leavesOf (tables id (mem0 id)) 5 := rfl
  have m : (inTables f).ms.moves = [] := rfl
  unfold occupancy; rw [e, tables_leaves, m]; decide
theorem tables_leaves5 (f : Partition → Partition) : leavesOf (inTables f) 5 = [(1, 0, 0x20000, 0x70001)] := tables_leaves
/-- The clock of the engine of the die that frame 7 is of. -/
theorem test_witness_demotions : tierRuns (inTables id) (Config.homeDie 7) 5 0 = [(7, 0, 1, 0, 0x20000, 0x70001)] ∧
    runSkipped (inTables id) (7, 0, 1, 0, 0x20000, 0x70001) = false := by
  refine ⟨?_, by decide +kernel⟩
  simp [tierRuns, tables_leaves5, leafTier, leafFrame, leafRun]
theorem demotes (f : Partition → Partition) : exec (.demotionEngineStart 1 5 0) (inTables f) = execDemotionEngineStart 1 5 0 (inTables f) := rfl
theorem test_demotion_starts : nextOf (fun t => (t.part 5).demoting) (exec (.demotionEngineStart 1 5 0) (inTables id)) = some [(4, 0)] := by
  rw [demotes]; unfold execDemotionEngineStart; rw [occupied]; rfl
theorem test_demotion_waits : nextOf (fun t => (t.part 5).demoting) (exec (.demotionEngineStart 1 5 0) (inTables (fun p => { p with soft := [1, 0, 0] }))) = some [] := by
  rw [demotes]; unfold execDemotionEngineStart; rw [occupied]; rfl
theorem test_demotion_stops : nextOf (fun t => (t.part 5).demoting)
    (exec (.demotionEngineStart 1 5 0) (inTables (fun p => { p with soft := [2, 0, 0], demoting := [(4, 0)] }))) = some [] := by
  rw [demotes]; unfold execDemotionEngineStart; rw [occupied]; rfl
/-! Tier commands and moves, no leaf counted. -/
def tierCmd (i : Instr) (b : Word) (f : Cmd → Cmd) (g : MemSys → MemSys) : State :=
  (tables g (mem0 (fun c => { c with cpy := { c.cpy with queue := [f { gcmd i 0x00001234 b with asid := 1 }] }, cnt := { CP := 1 } }))).updMs (fun m => { m with asidPart := [] }) |>.updPart 63
    (fun p => { p with hard := [9, 9, 9], ranges := [(0, { valid := true, lo := 0, hi := 15 })] })
theorem test_tier_commands : nextOf (fun t => (t.ms.moves.map (fun m => (m.frame, m.dst)), (t.core 0).cpy.queue.map (·.started)))
      (exec (.engineRead 0 .CP) (tierCmd (.demote x1 x2) 2 id id)) = some ([(7, 2)], [true]) ∧
    nextOf (fun t => (t.core 0).cpy.queue.map (·.done)) (exec (.engineRead 0 .CP) (tierCmd (.promote x1) 0 id id)) = some [some 1] ∧
    nextOf (fun t => (t.core 0).cpy.queue.map (·.started)) (exec (.engineRead 0 .CP)
      (tierCmd (.demote x1 x2) 2 id (fun m => { m with moves := [{ move0 with asid := 1 }] }))) = some [false] ∧
    nextOf (fun t => ((t.core 0).cpy.flt.cause, (t.core 0).regs.q[3].map (·.w))) (exec (.engineRead 0 .CP)
      ((tierCmd (.demote x1 x2) 2 id id).updPart 63 (fun p => { p with hard := [9, 9, 0] }))) = some (0x62, [0x23000005]) ∧
    nextOf (fun t => ((t.core 0).cpy.flt.cause, (t.core 0).regs.q[3].map (·.w))) (exec (.engineRead 0 .CP)
      ((tierCmd (.demote x1 x2) 2 id id).updPart 63 (fun p => { p with ranges := [] }))) = some (5, [0x23000005]) ∧
    nextOf (fun t => (t.core 0).regs.q[3].map (·.w)) (exec (.engineComplete 0 .CP) (tierCmd (.promote x1) 0 (fun q => { q with done := some 1 }) id)) = some [0x31000005] := by
  decide +kernel
theorem test_witness_tier_commands : cpyTurn (tierCmd (.demote x1 x2) 2 id id) 0 { gcmd (.demote x1 x2) 0x00001234 2 with asid := 1 } [] ∧
    leafIs (tierCmd (.demote x1 x2) 2 id id) 1 0 0x70001 ∧ atHard (tierCmd (.demote x1 x2) 2 id id) 63 2 = false := by
  refine ⟨⟨rfl, rfl, rfl, rfl⟩, ⟨?_, ?_, ?_, ?_, ?_⟩, ?_⟩ <;> decide +kernel
def moves (m : TierMove) (f : Partition → Partition) : State := (moving m).updPart 63 (fun p =>
  f { p with hard := [9, 9, 9], ranges := [(0, { valid := true, lo := 0, hi := 15 })], storqBase := 2, storqCtl := 0x80000010, storqTail := 3 })
/-- Source: R382: claim, gather, copy to frame 9, remap, release; by hand the leaf of frame 9 in tier 2. -/
theorem test_tier_moves : nextOf (fun t => t.ms.moves.map (·.stage)) (exec (.tierMove 0 ⟨9, false⟩) (moves move0 id)) = some [1] ∧
    nextOf (fun t => (t.ms.moves.map (·.stage), (t.core 0).held, (t.core 0).dirty)) (exec (.tierMove 0 ⟨9, false⟩) (moves { move0 with stage := 1 } id)) = some ([2], [], []) ∧
    nextOf (fun t => t.ms.moves.map (fun m => (m.stage, m.target))) (exec (.tierMove 0 ⟨9, false⟩) (moves { move0 with stage := 2 } id)) = some [(3, 9)] ∧
    nextOf (fun t => t.ms.moves.map (fun m => (m.stage, m.target))) (exec (.tierMove 0 ⟨16, false⟩) (moves { move0 with stage := 2 } id)) = some [(2, 0)] ∧
    nextOf (fun t => t.ms.moves.length) (exec (.tierMoveRelease 0) (moves { move0 with stage := 4 } id)) = some 0 ∧
    nextOf (fun t => t.ms.moves.length) (exec (.tierMoveRelease 0) (moves { move0 with stage := 3 } id)) = some 1 := by decide +kernel
theorem test_tier_remap : nextOf (fun t => (t.ms.moves.map (·.stage), t.ms.byteAt (.core 0) 0x90104, t.ms.tlb.length, t.ms.walk8 0x20000)) (exec (.tierMove 0 ⟨9, false⟩)
    ((moves { move0 with stage := 3, target := 9 } id).updMs (fun m => { m with mem := [⟨0x104, 9⟩, ⟨0x20000, 7⟩] }))) = some ([4], 9, 0, 0x90087) := by decide +kernel
theorem test_storage_ring : nextOf (fun t => (t.ms.moves.map (fun m => (m.target, (m.ring.map (·.1)).getD 0)), (t.part 63).storqTail)) (exec (.tierMove 0 ⟨9, false⟩) (moves { move0 with stage := 2, dst := 3 } id)) =
      some ([(0x100000009, 3)], 4) ∧
    nextOf (fun t => (t.ms.byteAt .host (8192 + 96), t.ms.byteAt .host (8192 + 100)))
      (exec (.tierMove 0 ⟨9, false⟩) (moves { move0 with stage := 2, dst := 3 } id)) = some (1, 9) ∧
    nextOf (fun t => (t.ms.moves.map (fun m => (m.ring.bind (·.2)).getD false), t.ms.byteAt .walker (8192 + 124))) (exec (.storageRingStatus 63 3 true) (moves { move0 with stage := 2, dst := 3, ring := some (3, none) } id)) =
      some ([true], 1) ∧
    nextOf (fun t => t.ms.moves.map (·.stage)) (exec (.tierMove 0 ⟨9, false⟩) (moves { move0 with stage := 2, dst := 3, ring := some (3, some true) } id)) = some [3] ∧
    nextOf (fun t => t.ms.moves.length) (exec (.tierMove 0 ⟨9, false⟩) (moves { move0 with stage := 2, dst := 3, ring := some (3, some false) } id)) = some 0 := by decide +kernel
/-! ### Rearmed accesses, memory registers -/

/-- Core 0's load of x5, rearmed. -/
def rearmed (cause : Nat) (ready : Bool) (f : MemSys → MemSys) : State :=
  (mem0 (fun c => { c with acc := [{ op := .load 4 false, d := .x 5, addr := 0x100, st := .rearmed cause ready 0x100 }], regs := c.regs.empty 5, cnt := { LD := 1 } })).updMs
    (fun m => f { m with mem := [⟨0x100, 7⟩] })
theorem test_witness_rearmed : ((rearmed 0x10 true id).core 0).acc[0]? = some { op := .load 4 false, d := .x 5, addr := 0x100, st := .rearmed 0x10 true 0x100 } ∧
    (∃ t, translate (rearmed 0x10 true id) 0 0 0x100 .load = (.ok 0x100 false, t)) ∧ pageMoves (rearmed 0x11 true (fun m => { m with moves := [move0] })) 0 0 :=
  ⟨rfl, ⟨_, rfl⟩, move0, List.mem_singleton.mpr rfl, rfl, by decide, by decide⟩
/-- Source: R384: the value, then the notice of KIND 1 for x5 and page 0; V = 0; a page that moves; a bad table. -/
theorem test_rearmed : nextOf (fun t => ((t.core 0).regs.get 5, (t.core 0).regs.q[5].map (·.w), (t.core 0).cnt.LD)) (exec (.rearmedAccessComplete 0 0) (rearmed 0x10 true id)) =
      some (7, [0x10050000], 0) ∧
    nextOf (fun t => ((t.core 0).regs.q[5].map (·.w), (t.core 0).acc.map (·.st))) (exec (.rearmedAccessComplete 0 0) (rearmed 0x10 false id)) = some ([], [.rearmed 0x10 false 0x100]) ∧
    nextOf (fun t => ((t.core 0).regs.q[5].map (·.w), (t.core 0).acc.map (·.st))) (exec (.rearmedAccessComplete 0 0) (rearmed 0x10 true (fun m => { m with tlb := [] }))) =
      some ([], [.rearmed 0x10 false 0x100]) ∧
    nextOf (fun t => (t.core 0).acc.map (·.st)) (exec (.rearmedAccessComplete 0 0) (rearmed 0x11 true (fun m => { m with moves := [move0] }))) = some [.rearmed 0x11 true 0x100] ∧
    nextOf (fun t => ((t.core 0).regs.q[5].map (·.w), (t.core 0).cnt.LD)) (exec (.rearmedAccessComplete 0 0)
      (rearmed 0x10 true (fun m => { m with tlb := [], asidPt := [(0, 1)], mem := [⟨0x10000, 3⟩] }))) = some ([0x11050000], 0) := by decide +kernel
def setter (f : Core → Core) : State := mem0 (fun c => f { c with priv := .supervisor, tr := { c.tr with re := true } })
theorem test_supervisor_registers : nextOf (fun t => (t.core 9).regs.q[5].map (·.w)) (exec (.npush 0 0x12345) (setter (fun c => { c with sup := { c.sup with presel := 9 } }))) =
      some [0x40002345] ∧
    nextOf (fun t => ((t.part 63).storqCtl, (t.part 63).storqTail)) (exec (.storqctlWrite 0 0x80001000) (setter id)) = some (0x80001000, 0) ∧
    nextOf (fun t => (t.core 0).tr.cause) (exec (.storqctlWrite 0 0x80002000) (setter id)) = some 2 ∧
    nextOf (fun t => (t.core 0).tr.cause) (exec (.storqctlWrite 0 0x80000008) (setter id)) = some 2 ∧
    nextOf (fun t => ((t.core 0).tr.cause, (t.core 0).tr.addr)) (exec (.stbaseWrite 0 0x1000) (setter id)) = some (4, 0x1000) ∧
    nextOf (fun t => (t.core 0).stbase) (exec (.stbaseWrite 0 0x10000) (setter (fun c => { c with cnt := { LD := 1 } }))) = some 0 ∧
    nextOf (fun t => ((t.core 0).stbase, (t.core 0).held, (t.core 0).dirty)) (exec (.stbaseWrite 0 0x10000) (setter (fun c => { c with cache := 9, held := [(4, 4)], dirty := [(4, 4), (4000, 9)] }))) =
      some (0x10000, [], [(4000, 9)]) := by decide +kernel
theorem test_npush_refused : nextOf (fun t => (t.core 0).tr.cause) (exec (.npush 0 1) ({ (setter (fun c => { c with sup := { c.sup with presel := 9 } })) with
    cores := (setter (fun c => { c with sup := { c.sup with presel := 9 } })).cores, clusters := [(1, { part := some 5 })] })) = some 6 := by decide +kernel
def berthed (b : Berth) : State := (setter (fun c => { c with sup := { c.sup with berthsel := 3 } })).updPart 63 (fun p => { p with berths := [(3, b)] })
/-- Source: R388. -/
theorem test_berths : nextOf (fun t => ((berthAt t 63 3).base, (berthAt t 63 3).log)) (exec (.berthWrite 0 0x8DE 17) (berthed { log := 16, msgs := [hello] })) = some (0, 17) ∧
    nextOf (fun t => ((berthAt t 63 3).base, (berthAt t 63 3).next)) (exec (.berthWrite 0 0x8DD 0x10000) (berthed { log := 16, msgs := [hello] })) = some (0, some (0x10000, 16)) ∧
    nextOf (fun t => ((berthAt t 63 3).base, (berthAt t 63 3).next)) (exec (.berthWrite 0 0x8DD 0x10000) (berthed { log := 16 })) = some (0x10000, none) ∧
    nextOf (fun t => (t.core 0).tr.cause) (exec (.berthWrite 0 0x8DD 0x8000) (berthed { log := 16 })) = some 4 ∧
    nextOf (fun t => (t.core 0).tr.cause) (exec (.berthWrite 0 0x8DE 27) (berthed { log := 16 })) = some 2 ∧
    nextOf (fun t => (berthAt t 63 3).base) (exec (.berthReconfigApply 63 3) (berthed { log := 16, next := some (0x10000, 16) })) = some 0x10000 ∧
    nextOf (fun t => (berthAt t 63 3).base) (exec (.berthReconfigApply 63 3) (berthed { log := 16, next := some (0x10000, 16), msgs := [hello] })) = some 0 := by decide +kernel
theorem test_witness_berths : rising (berthed {}).cores ∧ ¬ berthHolds (berthed {}) 63 3 ∧ berthHolds (berthed { msgs := [hello] }) 63 3 := by
  refine ⟨List.pairwise_singleton _ _, ?_, Or.inl (List.cons_ne_nil _ _)⟩
  rintro (h | ⟨k, c, hm, hr, -⟩)
  · exact h rfl
  · injection List.mem_singleton.mp hm with _ h
    subst h
    simp [runs, Core.reset] at hr
def ranks (f : Core → Core) : State := withReceiver (setter (fun c => f { c with rankCache := [(3, 0x80000001)], sup := { c.sup with ranksel := 3 } })) (fun c => { c with rank := none })
/-- Source: R389: rank 3 to core 9; invalid; a rank past the table; a core with another rank. -/
theorem test_ranks : nextOf (fun t => ((t.core 9).rank, (t.core 0).rankCache, t.ms.byteAt .walker 15)) (exec (.ranksetWrite 0 0x80000009) (ranks id)) = some (some 3, [(3, 0x80000009)], 0x80) ∧
    nextOf (fun t => ((t.core 9).rank, (t.core 0).rankCache)) (exec (.ranksetWrite 0 9) (ranks id)) = some (none, [(3, 9)]) ∧
    nextOf (fun t => (t.core 0).tr.cause) (exec (.ranksetWrite 0 0x80000009) (ranks (fun c => { c with sup := { c.sup with ranksel := 4096 } }))) = some 2 ∧
    nextOf (fun t => (t.core 0).tr.cause) (exec (.ranksetWrite 0 0x80000000) (ranks (fun c => { c with rank := some 7 }))) = some 2 := by decide +kernel
theorem test_witness_ranks : (∃ t, translate (ranks id) 0 0 12 .store = (.ok 12 false, t)) ∧ rising (ranks id).cores :=
  ⟨⟨_, rfl⟩, by simp [rising, ranks, withReceiver, setter, mem0, paged, at0]⟩
def service (f : Core → Core) (d : Die → Die) (p : Partition → Partition) : State :=
  (({ mem0 id with cores := [(1024, f { Core.reset 1024 with tr := { (Core.reset 1024).tr with re := true } })] } : State).updDie 0 d).updPart 5 p
theorem test_frame_grants : nextOf (fun t => (tget (t.part 5).ranges {} 2).valid) (exec (.pgctlWrite 0 0x80000000) (service id (fun d => { d with pgsel := 0x205 }) (fun p =>
      { p with ranges := [(2, { lo := 4, hi := 9 })] }))) = some true ∧
    nextOf (fun t => (t.core 1024).tr.cause) (exec (.pgctlWrite 0 0x80000000) (service id (fun d => { d with pgsel := 0x205 }) (fun p => { p with ranges := [(2, { lo := 10, hi := 9 })] }))) =
      some 2 ∧
    nextOf (fun t => (t.core 1024).tr.cause) (exec (.pgctlWrite 0 0x80000000) ((service id (fun d => { d with pgsel := 0x205 }) (fun p => { p with ranges := [(2, { lo := 4, hi := 9 })] })).updPart 6
      (fun p => { p with ranges := [(0, { valid := true, lo := 9, hi := 9 })] }))) = some 2 ∧
    nextOf (fun t => (t.part 5).tgrant) (exec (.tgrantWrite 0 1 7) (service id (fun d => { d with pgsel := 5 }) (fun p => { p with hard := [8, 7, 8] }))) = some [0, 7, 0] ∧
    nextOf (fun t => (t.core 1024).tr.cause) (exec (.tgrantWrite 0 1 6) (service id (fun d => { d with pgsel := 5 }) (fun p => { p with hard := [8, 7, 8] }))) = some 2 := by decide +kernel
/-! ### Pre-emption -/

/-- Page n of address space 0 is frame n, n < 128. -/
def wide (s : State) : State := s.updMs (fun m => { m with tlb := (List.range 4).map (fun p => { leaf0 with port := p, run := 127 }) })
theorem wide_translate (s : State) (kind : AccKind) (va : Nat) (h : va < 128 * 65536) (hp : s.parts = []) (hd : s.dies = []) :
    translate (wide s) 0 0 va kind = (.ok va false, wide s) := by
  have hb : (wide s).inBerth 0 va = false := by simp [wide, State.updMs, State.inBerth, hp]
  have hf : (wide s).inBlock 0 va = false := by simp [wide, State.updMs, State.inBlock, hd]
  have hc : (wide s).ms.tlb.find? (·.covers 0 (hallBank 0 va % 4) 0 (va / 65536)) = some { leaf0 with port := hallBank 0 va % 4, run := 127 } := by
    have h4 : hallBank 0 va % 4 < 4 := Nat.mod_lt _ (by decide)
    have hq : va / 65536 ≤ 127 := by omega
    generalize hallBank 0 va % 4 = p at h4 ⊢
    have : p = 0 ∨ p = 1 ∨ p = 2 ∨ p = 3 := by omega
    rcases this with rfl | rfl | rfl | rfl <;> simp [wide, State.updMs, TlbEntry.covers, leaf0, List.range, List.range.loop, hq]
  unfold Sys2Proof.Machine.translate translateFor
  simp only [hb, hf, hc, Bool.and_false, Bool.or_self, Bool.false_eq_true, if_false]
  rw [if_neg (by rintro (⟨-, h⟩ | ⟨-, h⟩) <;> cases h)]
  have e : (0 + (va / 65536 - 0)) * 65536 + va % 65536 = va := by omega
  exact congrArg (fun x => (Tr.ok x false, wide s)) e
theorem wide_run (s : State) (kind : AccKind) (hp : s.parts = []) (hd : s.dies = []) :
    ∀ (vas acc : List Nat), (∀ va ∈ vas, va < 128 * 65536) → translateRun (wide s) 0 0 kind vas acc = (.inl (acc.reverse ++ vas), wide s)
  | [], acc, _ => by simp [translateRun, translateEach]
  | va :: r, acc, h => by
    have e := wide_run s kind hp hd r (va :: acc) (fun v hv => h v (by simp [hv]))
    unfold translateRun at e ⊢
    rw [translateEach, wide_translate s kind va (h va (by simp)) hp hd]
    simp only
    rw [e]; simp
theorem wide_run0 (s : State) (kind : AccKind) (hp : s.parts = []) (hd : s.dies = []) (vas : List Nat) (h : ∀ va ∈ vas, va < 128 * 65536) :
    translateRun (wide s) 0 0 kind vas [] = (.inl vas, wide s) := wide_run s kind hp hd vas [] h
/-- Core 0 asks for the save of core 2 at page 32, then is asked itself. -/
def preempt (f : Core → Core) (g : Core → Core) : State :=
  wide { State.reset with cores := [(0, f { runs [] (Core.reset 0) with priv := .supervisor, tr := { re := true }, sup := { presel := 2, prearea := 0x200000 } }), (2, g (Core.reset 2))] }
def working (c : Core) : Core := { runs [(1, 7)] c with task := some task0 }
theorem test_saves_asked : nextOf (fun t => ((t.core 0).sup.preStatus, (t.core 2).saveReq.map (fun r => (r.area, r.engine, r.image)))) (exec (.prectlSave 0)
      ((preempt id working).updMs (fun m => { m with mem := [⟨0x2007F1, 4⟩, ⟨0x2007F8, 8⟩] }))) = some (1, some (0x200000, 0x400, 8)) ∧
    nextOf (fun t => ((t.core 0).sup.preStatus, (t.core 0).sup.preReason)) (exec (.prectlSave 0) (preempt id id)) = some (3, 7) ∧
    nextOf (fun t => ((t.core 0).sup.preStatus, (t.core 0).sup.preReason)) (exec (.prectlSave 0) (preempt id (fun c => { working c with fenced := true }))) = some (3, 2) ∧
    nextOf (fun t => ((t.core 0).sup.preStatus, (t.core 0).sup.preReason)) (exec (.prectlSave 0) (preempt id (fun c => { working c with saveReq := some ⟨1, 0, 0, 0, 0⟩ }))) = some (3, 1) ∧
    nextOf (fun t => (t.core 0).tr.cause) (exec (.prectlSave 0) ({ (preempt (fun c => { c with sup := { c.sup with presel := 8 } }) id) with clusters := [(1, { part := some 5 })] } : State)) =
      some 6 := by decide +kernel
theorem test_witness_saves_asked (vas : List Nat) (h : vas = (List.range 16).map (fun i => ((0x200000 : Word).toNat + 0x7F0 + i) % 2 ^ 32)) :
    translateRun (preempt id working) 0 0 .load vas [] = (.inl vas, preempt id working) := by
  have b : ∀ va ∈ vas, va < 128 * 65536 := by rw [h]; decide +kernel
  exact wide_run _ .load rfl rfl vas [] b
def asked (f : Core → Core) : State := preempt (fun c => { c with sup := { c.sup with preStatus := 1 } }) (fun c => f { working c with saveReq := some ⟨0, 0x200000, 0, 0x10000, 0x400000⟩ })
theorem test_saves : nextOf (fun t => ((t.core 0).sup.preStatus, (t.core 0).sup.preReason, (t.core 2).saveReq)) (exec (.saveComplete 2) (asked (fun c => { c with fenced := true }))) =
      some (3, 2, none) ∧
    nextOf (fun t => ((t.core 0).sup.preStatus, (t.core 2).task.isSome)) (exec (.saveComplete 2) (asked (fun c => { c with cnt := { MX := 1 } }))) = some (1, true) := by decide +kernel
theorem test_witness_saves : ((asked id).core 2).saveReq = some ⟨0, 0x200000, 0, 0x10000, 0x400000⟩ ∧ mayLeave ((asked id).core 2) ∧
    (translateRun (asked id) 0 0 .store [(0x200000 : Word).toNat] []).1 = .inl [0x200000] :=
  ⟨rfl, ⟨rfl, rfl, rfl, rfl, rfl, rfl, rfl, rfl, rfl, rfl, (fun q h => nomatch h), fun a h => nomatch h⟩, by decide +kernel⟩
/-- The state after the translation of the area, of the engine region at page 1 and of the image region at page 64. -/
def askedAt : State := (translateRun (asked id) 0 0 .store [(0x200000 : Word).toNat] []).2
def regionVas : List Nat := regionPages 0x10000 25 ++ regionPages 0x400000 50
theorem test_witness_saves_regions : (translateRun askedAt 0 0 .store (regionPages 0x10000 25) []).1 = .inl (regionPages 0x10000 25) ∧
    (translateRun askedAt 0 0 .store (regionPages 0x400000 50) []).1 = .inl (regionPages 0x400000 50) ∧ regionVas.Nodup ∧
    (∀ p ∈ regionVas, p % 65536 = 0 ∧ p / 65536 ≠ 0x200000 / 65536) := by
  refine ⟨by decide +kernel, by decide +kernel, by decide +kernel, by decide +kernel⟩
theorem test_witness_saves_free : let t := (translateRun askedAt 0 0 .store (regionPages 0x400000 50) []).2
    t.ms.own = [] ∧ t.ms.moves = [] ∧ t.saved = [] ∧ ¬ leafByte t 0x200000 := by
  refine ⟨by decide +kernel, by decide +kernel, by decide +kernel, ?_⟩
  simp only [leafByte]; decide +kernel

/-! A context saved by core 2: its engine region at page 0 holds its words, its image region at page 64 the device's bytes, its area at page 32, in
core 0's snapshot, names the two and is zero otherwise. -/
def regionByte (a : Nat) : Byte := BitVec.ofNat 8 ((engineWord (Core.reset 2) 9 (a / 4)).toNat / 256 ^ (a % 4))
def regionMem (n m : Nat) : List Host.Cell :=
  (List.range' 0 n).map (fun a => ⟨a, regionByte a⟩) ++ (List.range' 0x400000 m).map (fun a => ⟨a, imageByte 9 (a - 0x400000)⟩)
def areaLine (l : Nat) : List Byte := if l = 0x801F then List.replicate 58 0 ++ [0x40] else []
def areaLines : List SnapLine := (List.range 32).map (fun i => { line := 0x8000 + i, bytes := areaLine (0x8000 + i) })
def areaByte (va : Nat) : Byte := (areaLine (va / 64)).getD (va % 64) 0
def restoring (m : List Host.Cell) (r : Nat) (f : Core → Core) : State :=
  wide { State.reset with
    cores := [(0, { runs [] (Core.reset 0) with priv := .supervisor, tr := { re := true }, sup := { presel := 2, prearea := 0x200000 }, snap := areaLines }), (2, f (Core.reset 2))]
    ms := { State.reset.ms with mem := m }, saved := [(0x400000, { ctx := Core.reset 2, core := r, check := 0, seed := 9 })] }
def areaVas : List Nat := (List.range 2048).map (fun i => ((0x200000 : Word).toNat + i) % 2 ^ 32)
theorem area_bounds : ∀ va ∈ areaVas, va < 128 * 65536 ∧ 0x8000 ≤ va / 64 ∧ va / 64 < 0x8020 := by
  intro va h
  obtain ⟨i, hi, rfl⟩ := List.mem_map.mp h
  have := List.mem_range.mp hi
  have e : (0x200000 : Word).toNat = 0x200000 := rfl
  rw [e]; omega
theorem test_witness_restores_area (m : List Host.Cell) (r : Nat) (f : Core → Core) (vas : List Nat) (h : vas = areaVas) :
    translateRun (restoring m r f) 0 0 .load vas [] = (.inl vas, restoring m r f) := by
  have b : ∀ va ∈ vas, va < 128 * 65536 := by rw [h]; exact fun va h => (area_bounds va h).1
  exact wide_run _ .load rfl rfl vas [] b
theorem area_find (l : Nat) (h : 0x8000 ≤ l ∧ l < 0x8020) : areaLines.find? (fun x => x.line == l) = some { line := l, bytes := areaLine l } := by
  have : ∀ i, i < 32 → areaLines.find? (fun x => x.line == 0x8000 + i) = some { line := 0x8000 + i, bytes := areaLine (0x8000 + i) } := by decide +kernel
  obtain ⟨i, rfl⟩ : ∃ i, l = 0x8000 + i := ⟨l - 0x8000, by omega⟩
  exact this i (by omega)
theorem restoring_reads (m : List Host.Cell) (r : Nat) (f : Core → Core) : ∀ l : List (Nat × Nat), (∀ x ∈ l, 0x8000 ≤ x.1 / 64 ∧ x.1 / 64 < 0x8020) →
    readRun (restoring m r f) 0 l = (l.map (fun x => areaByte x.1), false, restoring m r f)
  | [], _ => rfl
  | (va, pa) :: r', h => by
    have hb : readByte (restoring m r f) 0 va pa = (areaByte va, false, restoring m r f) := by
      have h1 : ((restoring m r f).core 0).ownStore va = none := rfl
      have h2 : ((restoring m r f).core 0).snap = areaLines := rfl
      have h3 := area_find (va / 64) (h (va, pa) (by simp))
      unfold readByte
      simp only [h1, h2, h3]; rfl
    rw [readRun, hb]
    simp only
    rw [restoring_reads m r f r' (fun x hx => h x (by simp [hx]))]
    simp
theorem restoring_unflagged (m : List Host.Cell) (r : Nat) (f : Core → Core) : ∀ l : List (Nat × Nat),
    l.foldl (fun s p => scopeCheck s 0 p.1 p.2) (restoring m r f) = restoring m r f
  | [] => rfl
  | p :: l => (congrArg (fun x => l.foldl (fun s p => scopeCheck s 0 p.1 p.2) x) (rfl : scopeCheck (restoring m r f) 0 p.1 p.2 = restoring m r f)).trans
      (restoring_unflagged m r f l)
theorem test_witness_restores_reads (m : List Host.Cell) (r : Nat) (f : Core → Core) (pc : Word) :
    readMove (restoring m r f) 0 pc (areaVas.zip areaVas) = ((areaVas.zip areaVas).map (fun x => areaByte x.1), false, restoring m r f) := by
  rw [readMove, restoring_unflagged, restoring_reads m r f _ (fun x h => (area_bounds x.1 (List.of_mem_zip h).1).2)]
  rfl
/-- The words of the area: engine region, image region, check word. -/
theorem test_witness_restores_words : let bs := (areaVas.zip areaVas).map (fun x => areaByte x.1)
    [0x7F0, 0x7F8, 0x7FC, 0xB0].map (fun off => number ((List.range 4).map (fun i => bs.getD (off + i) 0))) = [0, 0x400000, 0, 0] := by decide +kernel
theorem test_witness_restores_pages (m : List Host.Cell) (r : Nat) (f : Core → Core) (vas : List Nat) (h : vas = regionPages 0 25 ∨ vas = regionPages 0x400000 50) :
    translateRun (restoring m r f) 0 0 .load vas [] = (.inl vas, restoring m r f) := by
  have b : ∀ va ∈ vas, va < 128 * 65536 := by rcases h with rfl | rfl <;> decide +kernel
  exact wide_run _ .load rfl rfl vas [] b
theorem memRead_in (f : Nat → Byte) (r : List Host.Cell) : ∀ (n b a : Nat), b ≤ a → a < b + n →
    memRead ((List.range' b n).map (fun a => ⟨a, f a⟩) ++ r) a = f a
  | 0, b, a, h1, h2 => by omega
  | n + 1, b, a, h1, h2 => by
    rw [List.range'_succ, List.map_cons, List.cons_append, memRead]
    by_cases h : a = b
    · rw [if_pos h, h]
    · rw [if_neg h]; exact memRead_in f r n (b + 1) a (by omega) (by omega)
theorem memRead_past (f : Nat → Byte) (r : List Host.Cell) : ∀ (n b a : Nat), b + n ≤ a →
    memRead ((List.range' b n).map (fun a => ⟨a, f a⟩) ++ r) a = memRead r a
  | 0, b, a, h => rfl
  | n + 1, b, a, h => by
    rw [List.range'_succ, List.map_cons, List.cons_append, memRead, if_neg (by omega)]
    exact memRead_past f r n (b + 1) a (by omega)
theorem restoring_byte (n m r : Nat) (f : Core → Core) (a : Nat) (h : a < n) : (restoring (regionMem n m) r f).ms.byteAt (.core 0) a = regionByte a := by
  have hh : ∀ m, (restoring m r f).ms.byteAt (.core 0) a = memRead m a := fun _ => rfl
  rw [hh, regionMem]
  exact memRead_in regionByte _ n 0 a (by omega) (by omega)
theorem restoring_image (n m r : Nat) (f : Core → Core) (a : Nat) (h : a < m) (hn : n ≤ 0x400000) :
    (restoring (regionMem n m) r f).ms.byteAt (.core 0) (0x400000 + a) = imageByte 9 a := by
  have hh : ∀ m, (restoring m r f).ms.byteAt (.core 0) (0x400000 + a) = memRead m (0x400000 + a) := fun _ => rfl
  rw [hh, regionMem, memRead_past regionByte _ n 0 _ (by omega)]
  have e := memRead_in (fun a => imageByte 9 (a - 0x400000)) [] m 0x400000 (0x400000 + a) (by omega) (by omega)
  rw [List.append_nil] at e
  rw [e]; exact congrArg (imageByte 9) (by omega)
theorem number_four (a b c d : Byte) (p1 p2 p3 : Nat) (h1 : 256 ^ 1 = p1) (h2 : 256 ^ 2 = p2) (h3 : 256 ^ 3 = p3) :
    number [a, b, c, d] = a.toNat + (b.toNat * p1 + (c.toNat * p2 + d.toNat * p3)) := by
  rw [number, List.mapIdx_cons, List.mapIdx_cons, List.mapIdx_cons, List.mapIdx_cons, List.mapIdx_nil]
  simp only [List.sum_cons, List.sum_nil, Nat.zero_add, Nat.reduceAdd, h1, h2, h3, Nat.add_zero, Nat.pow_zero, Nat.mul_one]
theorem bytes_whole (x p1 p2 p3 : Nat) (h : x < 2 ^ 32) (h1 : 256 = p1) (h2 : 65536 = p2) (h3 : 16777216 = p3) :
    x % 256 + (x / p1 % 256 * p1 + (x / p2 % 256 * p2 + x / p3 % 256 * p3)) = x := by subst h1 h2 h3; omega
theorem word_bytes (w : Word) (p1 p2 p3 : Nat) (h1 : 256 = p1) (h2 : 65536 = p2) (h3 : 16777216 = p3) (f : Nat → Nat)
    (hf : f 0 = 1 ∧ f 1 = p1 ∧ f 2 = p2 ∧ f 3 = p3) :
    number ((List.range 4).map (fun i => BitVec.ofNat 8 (w.toNat / f i))) = w.toNat := by
  have l : (List.range 4).map (fun i => BitVec.ofNat 8 (w.toNat / f i)) =
    [BitVec.ofNat 8 (w.toNat / f 0), BitVec.ofNat 8 (w.toNat / f 1), BitVec.ofNat 8 (w.toNat / f 2), BitVec.ofNat 8 (w.toNat / f 3)] := rfl
  rw [l, number_four _ _ _ _ p1 p2 p3 (by subst h1; rfl) (by subst h2; rfl) (by subst h3; rfl), BitVec.toNat_ofNat, BitVec.toNat_ofNat,
    BitVec.toNat_ofNat, BitVec.toNat_ofNat, hf.1, hf.2.1, hf.2.2.1, hf.2.2.2, Nat.div_one]
  exact bytes_whole _ p1 p2 p3 w.isLt h1 h2 h3
theorem page_of (b n i : Nat) (h : i < 65536 * n) (hb : b + 65536 * n < 2 ^ 32) :
    inRegion ((List.range n).map (fun j => (b + 65536 * j) % 2 ^ 32)) i = b + i := by
  have h1 : i / 65536 < n := by omega
  simp only [inRegion, List.getD_eq_getElem?_getD, List.getElem?_map, List.getElem?_range h1, Option.map_some, Option.getD_some]
  omega
/-- Every word of the engine region reads as the saved engines' word, every byte of the image region as the device's. -/
theorem test_witness_restores_sound (l m : Nat) (hl : l = 0x190000) (r : Nat) (f : Core → Core) (n : Nat) (h : n < 0x64000) :
    wordAt (restoring (regionMem l m) r f).ms (.core 0) (inRegion (regionPages 0 25) (4 * n)) = engineWord (Core.reset 2) 9 n := by
  have e : inRegion (regionPages 0 25) (4 * n) = 4 * n := (page_of 0 25 (4 * n) (by omega) (by decide)).trans (by omega)
  have b : (List.range 4).map (fun i => (restoring (regionMem l m) r f).ms.byteAt (.core 0) (4 * n + i)) =
      (List.range 4).map (fun i => BitVec.ofNat 8 ((engineWord (Core.reset 2) 9 n).toNat / 256 ^ i)) := by
    refine List.map_congr_left (fun i hi => ?_)
    have hi := List.mem_range.mp hi
    rw [restoring_byte l m r f _ (by omega), regionByte]
    have h1 : (4 * n + i) / 4 = n := by omega
    have h2 : (4 * n + i) % 4 = i := by omega
    rw [h1, h2]
  rw [e, wordAt, b, word_bytes _ _ _ _ rfl rfl rfl (fun i => 256 ^ i) ⟨by decide, by decide, by decide, by decide⟩]
  simp
theorem test_witness_restores_image (l m : Nat) (hl : l ≤ 0x400000) (hm : m = 0x320000) (r : Nat) (f : Core → Core) (n : Nat) (h : n < 0x320000) :
    (restoring (regionMem l m) r f).ms.byteAt (.core 0) (inRegion (regionPages 0x400000 50) n) = imageByte 9 n := by
  have e : inRegion (regionPages 0x400000 50) n = 0x400000 + n := page_of 0x400000 50 n (by omega) (by decide)
  rw [e]; exact restoring_image l m r f n (by omega) hl
/-- The other conditions: core 2 in the same cluster, or core 9's context. -/
theorem test_witness_restores : tfind (restoring [] 2 id).saved 0x400000 = some { ctx := Core.reset 2, core := 2, check := 0, seed := 9 } ∧
    ((restoring [] 2 id).core 2).task = none ∧ ((restoring [] 2 id).core 2).run = .idle ∧ heldByOthers (restoring [] 2 id) 2 = 0 ∧
    ((restoring [] 2 id).core 2).vec.lim = 64 ∧ (Core.reset 2).vec.grant = 0 ∧ 9 / 8 ≠ 2 / 8 := ⟨rfl, rfl, rfl, rfl, rfl, rfl, by decide⟩
theorem test_restores_refused : nextOf (fun t => ((t.core 0).sup.preStatus, (t.core 0).sup.preReason)) (exec (.prectlRestore 0) (preempt id (fun c => { c with fenced := true }))) = some (3, 2) ∧
    nextOf (fun t => ((t.core 0).sup.preStatus, (t.core 0).sup.preReason)) (exec (.prectlRestore 0) (preempt id working)) = some (3, 3) := by decide +kernel
/-! ### Basins, lost dies, debug memory, the trace -/

/-- Core 0 at supervisor level with basin 0 selected; die 0's basins. -/
def basined (l : Tbl Basin) (f : Core → Core) : State := (supervisor true f).updDie 0 (fun d => { d with basins := l })
/-- Source: R197: rows 0 to 1, columns 0 to 3 in basin 0; LO above HI; over basin 1; a fenced basin; a core of another partition. -/
theorem test_basin_definitions : nextOf (fun t => (basinAt t 0 0).rowhi * 16 + (basinAt t 0 0).colhi) (exec (.basinDefine 0 0x20000830) (basined [] id)) = some 19 ∧
    nextOf (fun t => (t.core 0).tr.cause) (exec (.basinDefine 0 0x20000103) (basined [] id)) = some 2 ∧
    nextOf (fun t => (t.core 0).tr.cause) (exec (.basinDefine 0 0x20000830) (basined [(1, { valid := true, rowlo := 1, rowhi := 1 })] id)) = some 2 ∧
    nextOf (fun t => (t.core 0).tr.cause) (exec (.basinDefine 0 0x20000830) (basined [(0, { fenced := true })] id)) = some 6 ∧
    nextOf (fun t => (basinAt t 0 0).fenced) (exec (.basinDefine 0 0) (basined [(0, { fenced := true })] id)) = some true ∧
    nextOf (fun t => (t.core 0).tr.cause) (exec (.basinDefine 0 0x20000070) { basined [] id with clusters := [(1, { part := some 5 })] }) = some 6 := by decide +kernel
theorem test_witness_basins : inRectangle { rowhi := 1, colhi := 3 } 0 7 ∧ ¬ inRectangle { rowhi := 1, colhi := 3 } 0 8 ∧ inRectangle { rowhi := 1, colhi := 7 } 0 8 := by
  refine ⟨by unfold inRectangle; decide, by unfold inRectangle; decide, by unfold inRectangle; decide⟩
/-- Core 1, in the fenced basin, with a task of launch 1 at mark 4; core 8 elsewhere. -/
def fencedBasin : State := { basined [(0, { fenced := true, valid := true, rowhi := 0, colhi := 1 })] id with
  cores := (supervisor true id).cores ++ [(1, { runs [(1, 7)] (Core.reset 1) with fenced := true, task := some { task0 with row := 3 }, marked := 4 }), (8, runs [(1, 7)] (Core.reset 8))]
  launches := [(1, launch0)] }
theorem test_basin_resets : nextOf (fun t => ((basinAt t 0 0).fenced, (t.core 1).fenced, (t.core 1).task.isSome, (t.core 1).regs.get 1, (t.core 8).regs.get 1)) (exec (.basinReset 0) fencedBasin) =
      some (false, false, false, 0, 7) ∧
    nextOf (fun t => (t.launches.map (fun l => l.2.again.map (fun a => (a.row, a.mark)))).flatten) (exec (.basinReset 0) fencedBasin) = some [(3, 4)] ∧
    nextOf (fun t => (t.core 0).tr.cause) (exec (.basinReset 0) (basined [] id)) = some 8 := by decide +kernel
/-- Core 128 of die 1 with the task, and core 0 of die 0. -/
def twoDies : State := { mem0 id with
  cores := (mem0 id).cores ++ [(128, { runs [] (Core.reset 128) with task := some task0, dirty := [(4, 9)] })]
  launches := [(1, launch0)] }
theorem test_witness_die_losses : (twoDies.die 1).lost = false ∧ rising twoDies.cores ∧ rising twoDies.launches ∧ launch0.status = 0 :=
  ⟨rfl, by simp [rising, twoDies, mem0, paged, at0], List.pairwise_singleton _ _, rfl⟩
/-- Source: R91, R200 (what no home die decides). -/
theorem test_die_losses : nextOf (fun t => ((t.die 1).lost, (t.core 128).task.isSome, (t.core 128).run, (t.core 0).pc)) (exec (.dieLost 1) { twoDies with
      cores := (mem0 id).cores ++ [(128, { runs [] (Core.reset 128) with task := some task0 })] }) = some (true, false, .halted, 0x1000) ∧
    nextOf (fun t => t.launches.map (fun l => l.2.status)) (exec (.dieLost 1) { twoDies with
      cores := (mem0 id).cores ++ [(128, { runs [] (Core.reset 128) with task := some task0 })] }) = some [5] := by decide +kernel
def debugged (a : Word) : State := (mem0 (fun c => { c with run := .debug 1, dbg := { c.dbg with maddr := a } })).updMs (fun m => { m with mem := [⟨0x104, 9⟩] })
/-- Source: R209, R212. -/
theorem test_debug_memory : (match csrRead 0 0x611 (debugged 0x104) with | .ok v _ => some v | _ => none) = some 9 ∧
    nextOf (fun t => (t.ms.byteAt (.core 5) 0x104, t.ms.byteAt (.core 1023) 0x105, (t.core 0).out.length)) (exec (.dbgmdataWrite 0 0x1234) (debugged 0x104)) = some (0x34, 0x12, 0) ∧
    nextOf (fun t => ((t.core 0).tr.cause, (t.core 0).tr.addr)) (exec (.dbgmdataRead 0) (debugged 0x106)) = some (4, 0x106) := by decide +kernel
theorem test_witness_debug_memory : (∃ t, translate (debugged 0x104) 0 0 0x104 .load = (.ok 0x104 false, t)) ∧ (∃ t, translate (debugged 0x104) 0 0 0x104 .store = (.ok 0x104 false, t)) ∧
    ((debugged 0x104).core 0).readsDone = true := ⟨⟨_, rfl⟩, ⟨_, rfl⟩, by decide +kernel⟩
theorem test_debug_cache : nextOf (fun t => (t.core 0).dbg.icinv) (exec (.dbgicinvWrite 0 0x1040) (debugged 0)) = some (some 0x1040) ∧
    nextOf (fun t => (t.core 0).fbuf) (exec (.dbgicinvComplete 0) ((debugged 0).updCore 0 (fun c => { c with fbuf := [(0x1040, 1), (0x1080, 2)], dbg := { c.dbg with icinv := some 0x1044 } }))) =
      some [(0x1080, 2)] := by decide +kernel
theorem test_trace_drains : nextOf (fun t => ((t.core 0).dbg.trace.length, (classAt t 0 0).injq.map (fun r => r.f.take 6)))
    (exec (.traceDrain 0) ((debugged 0).updCore 0 (fun c => { c with dbg := { c.dbg with trace := [⟨0x1001, [7, 8]⟩] } }))) =
      some (0, [[0x103F1001, 0, 0, 0, 7, 8]]) := by decide +kernel
/-! ### Work queues and dispatchers -/

/-- A record of one level of 2 by 3 tiles and one flight at 0x2000, on die 0, ident 7 (R89). -/
def record1 (f : List Word → List Word) : List Word :=
  f ([0x01010100, 7, 1, 0, 0, 0, 0, 0, 0x00030002] ++ List.replicate 15 0 ++ [0x2000] ++ List.replicate 39 0)
/-- Clusters 0 and 1 of die 0 are partition 5's. -/
def clustered (s : State) : State := { s with clusters := [(0, { part := some 5 }), (1, { part := some 5 })] }
theorem test_witness_records : formatHolds (fun i => (record1 id).getD i 0) ∧ rowsOf (fun i => (record1 id).getD i 0) = 2 ∧ colsOf (fun i => (record1 id).getD i 0) = 3 := by
  have c : ∀ (n : Nat) (p : Nat → Prop) (a : Nat), (∀ i, i < n → a ≤ i → p i) → ∀ i, a ≤ i → i < n → p i := fun _ _ _ h i h1 h2 => h i h2 h1
  refine ⟨⟨by decide, by decide, by decide, by decide, by decide, by decide, by decide, by decide, by decide, by decide, by decide +kernel,
    c 8 _ 4 (by decide +kernel), c 64 _ 56 (by decide +kernel), by decide +kernel, c 8 _ _ (by decide +kernel), by decide +kernel, fun i j h h1 h2 => ?_⟩,
    by decide +kernel, by decide +kernel⟩
  have z : ∀ i, i < 8 → 1 ≤ i → ∀ j, j < 4 → (record1 id).getD (24 + 4 * i + j) 0 = 0 := by decide +kernel
  exact z i h1 h j h2
/-- Source: R91: a wrong version, 65,537 columns, a mask without clusters, none wrong. -/
theorem test_record_status : recordStatus (clustered State.reset) 5 (record1 (·.set 0 0x02010100)) 1 = 1 ∧ recordStatus (clustered State.reset) 5 (record1 (·.set 4 1)) 1 = 1 ∧
    recordStatus (clustered State.reset) 5 (record1 (fun l => (l.set 0 0x01010200).set 8 0xFFFF0001 |>.set 10 0x00020001)) 1 = 2 ∧
    recordStatus (clustered State.reset) 5 (record1 id) 2 = 3 ∧ recordStatus (clustered State.reset) 5 (record1 id) 0 = 3 ∧
    recordStatus (clustered State.reset) 5 (record1 id) 1 = 0 := by decide +kernel
/-- Queue 0 at 0x1000, its tail at 0x800, its head mirror at 0x804, with that record in slot 0. -/
def queued (tail : Byte) (f : WorkQueue → WorkQueue) : State :=
  { (clustered (supervisor true id)).updMs (fun m => { m with mem := [⟨0x800, tail⟩, ⟨0x1001, 1⟩, ⟨0x1002, 1⟩, ⟨0x1003, 1⟩, ⟨0x1004, 7⟩, ⟨0x1008, 1⟩, ⟨0x1020, 2⟩, ⟨0x1022, 3⟩, ⟨0x1061, 0x20⟩] }) with
    queues := [(0, f { part := some 5, base := 0x1000, taila := 0x800, heada := 0x804, en := true, prio := 7 })] }
/-- Source: R97, R98. -/
theorem test_work_queues : nextOf (fun t => (t.launches.map (fun l => (l.2.ident, l.2.mask, l.2.status)), (queueAt t 0).head, t.ms.byteAt .host 0x804)) (exec (.wqTailStore 0) (queued 1 id)) =
      some ([(7, 1, 0)], 1, 1) ∧
    nextOf (fun t => ((queueAt t 0).err, (queueAt t 0).en, t.launches.length)) (exec (.wqTailStore 0) (queued 17 id)) = some (true, false, 0) ∧
    nextOf (fun t => t.launches.length) (exec (.wqTailStore 0) (queued 1 (fun w => { w with en := false }))) = some 0 ∧
    nextOf (fun t => ((queueAt t 0).log, (queueAt t 0).err, (queueAt t 0).prio)) (exec (.wqctlWrite 0 0x00000125) (queued 1 (fun w => { w with err := true }))) = some (5, false, 2) ∧
    nextOf (fun t => (queueAt t 0).head) (exec (.wqctlWrite 0 0x00000084) ((queued 1 (fun w => { w with en := false, head := 5 })).updMs (fun m => { m with asidPart := [(0, 5)] }))) = some 0 ∧
    nextOf (fun t => ((queueAt t 0).head, (t.core 0).tr.cause)) (exec (.wqctlWrite 0 0x00000084) (queued 1 (fun w => { w with en := false, head := 5 }))) = some (5, 6) ∧
    nextOf (fun t => (t.core 0).tr.cause) (exec (.wqctlWrite 0 0x00000083) (queued 1 id)) = some 2 ∧
    nextOf (fun t => (t.core 0).tr.cause) (exec (.wqctlWrite 0 0x0000008D) (queued 1 id)) = some 2 := by decide +kernel
/-- Launch 1 of 2 by 3 tiles, two flights, with clusters 0 and 1 on die 0; core 0 free, of cluster 0. -/
def part0 : DiePart := { handle := 0xFF00, clusters := [0, 1], landings := [[]], waitSince := 0, assigned := [1, 2] }
def launch1 : Launch := { launch0 with part := 5, levels := [⟨3, 2, 0⟩], flights := [⟨0x1000, 9, 4⟩, ⟨0x2000, 8, 4⟩], parts := [(0, part0)] }
def dispatched (f : Launch → Launch) (g : Core → Core) : State :=
  { clustered (mem0 (fun _ => g (Core.reset 0))) with launches := [(1, f launch1)] }
theorem test_witness_tasks : nextLaunchFor (dispatched id id) 0 = some 1 ∧ (tget (dispatched id id).launches launch0 1).tileFor 0 = some 0 ∧
    ((tget (dispatched id id).launches launch0 1).partFor 0).isSome = true ∧ ((dispatched id id).core 0).task = none ∧ ((dispatched id id).core 0).run = .idle := by decide +kernel
def landing (n : Nat) (l : Launch) : Launch :=
  { l with parts := [(0, { part0 with landings := [List.replicate n [0x00010002, 5, 6, 7]] })] }
/-- Source: R87, R93, R95, R101. -/
theorem test_tasks : nextOf (fun t => ((t.core 0).pc, [(t.core 0).regs.get 1, (t.core 0).regs.get 2, (t.core 0).regs.get 3], (t.launches.map (·.2.started)).flatten)) (exec (.dispatchAssign 0 1)
      (dispatched (fun l => { l with started := [0, 1, 2, 3] }) id)) = some (0x1000, [4, 9, 0x00010001], [4, 0, 1, 2, 3]) ∧
    nextOf (fun t => ((t.core 0).pc, (t.core 0).regs.get 1, (t.core 0).regs.get 3, (t.core 0).task.map (·.item))) (exec (.dispatchAssign 0 1) (dispatched (landing 4) id)) =
      some (0x2000, 5, 0x00010002, some [5, 6, 7]) ∧
    nextOf (fun t => ((t.core 0).pc, (t.core 0).markin, (t.launches.map (·.2.again.length)))) (exec (.dispatchAssign 0 1)
      (dispatched (fun l => { l with again := [⟨0, 1, 1, 0, [], 6⟩] }) id)) = some (0x2000, 6, [0]) ∧
    nextOf (fun t => (t.core 0).run) (exec (.dispatchAssign 0 1) (dispatched id (fun c => { c with fenced := true }))) = some .idle := by decide +kernel
/-- Source: R95, R96, R434: the one flight with work; a flight for which one core must stay; the share of a tile bound to another cluster. -/
theorem test_dispatch_choices : let x := landing 1 launch1
    let p := { part0 with landings := [List.replicate 1 [0x00010002, 5, 6, 7]] }
    pickFlight x p 0 (fun _ => true) = some 0 ∧ pickFlight { x with started := [0, 1, 2, 3, 4, 5] } p 0 (fun _ => true) = some 1 ∧
    pickFlight { x with started := [0, 1, 2, 3, 4, 5] } { p with landings := [[]] } 0 (fun _ => true) = none ∧ pickFlight x p 0 (· == 1) = some 1 ∧
    workFor (dispatched (landing 1) id) 1 x 0 = some (.flight 0) ∧
    workFor (dispatched (landing 0) id) 1 { landing 0 launch1 with parts := [(0, { part0 with assigned := [] })] } 0 = some .reserve ∧
    (dispatched id id).keepsReserve 1 launch1 [0, 1, 2] 0 1 = true ∧ (dispatched id id).keepsReserve 1 launch1 [0] 0 1 = false ∧
    (dispatched id id).canTake 0 1 = true ∧
    (({ (dispatched id id) with launches := [(1, launch1), (2, { launch1 with parts := [(0, { part0 with assigned := [0, 1] })] })] } : State).updCore 1
      (fun c => { c with task := some { task0 with launch := 2 } })).canTake 0 1 = false ∧
    ({ x with levels := [⟨3, 2, 2⟩], bound := [(0, x.blockAt 0 0 0, 1)] } : Launch).tileFor 0 = some 1 := by decide +kernel
def finished (f : Launch → Launch) : State := (mem0 id).updMs (fun m => { m with hist := [⟨0x40, 1, .K, .core 0, some 1⟩, ⟨0x41, 1, .K, .core 0, some 2⟩] }) |> fun s =>
  { s with launches := [(1, f { launch0 with refused := true, status := 3, cores := [0] })] }
theorem test_witness_boundaries : atBoundary (finished id) 1 { launch0 with refused := true, status := 3, cores := [0] } := by
  refine ⟨rfl, fun p hp => (List.not_mem_nil hp).elim, Or.inl (by decide), fun k hk => ?_, fun d hd => (List.not_mem_nil hd).elim, fun c hc _ d h t => ?_⟩
  · rw [List.mem_singleton.mp hk]
    exact ⟨fun e sc h => (List.not_mem_nil h).elim, fun sc h => (List.not_mem_nil h).elim, fun q h => (List.not_mem_nil h).elim, fun q h => (List.not_mem_nil h).elim, fun q h => (List.not_mem_nil h).elim⟩
  · rw [List.mem_singleton.mp hc]
    exact fun h => nomatch h
/-- Source: R92, R183: events of the launch at H, the word at DONEADDR; a child's notice. -/
theorem test_boundaries : nextOf (fun t => (t.ms.hist.map (·.scope), t.launches.map (·.2.done))) (exec (.kernelBoundary 1) (finished id)) = some ([.H, .K], [true]) ∧
    nextOf (fun t => (t.ms.byteAt .host 0x200, t.ms.byteAt .host 0x204)) (exec (.kernelBoundary 1) (finished (fun l => { l with doneAddr := 0x200, status := 3 }))) = some (3, 7) ∧
    nextOf (fun t => t.launches.map (·.2.done)) (exec (.kernelBoundary 1) (finished (fun l => { l with running := 1 }))) = some [false] ∧
    nextOf (fun t => ((t.core 0).regs.q[6].map (·.w), t.ms.hist.map (·.scope))) (exec (.kernelBoundary 1)
      ((finished (fun l => { l with src := .child 0 6 5 2, status := 4 })).updCore 0 (fun c => { c with task := some { task0 with launch := 2 } }))) =
        some ([0x00040006], [.P, .K]) := by decide +kernel
/-- Source: R99, R100, R101, R431. -/
theorem test_launch_parts : nextOf (fun t => (t.launches.map (fun l => l.2.parts.map (fun p => (p.1, p.2.handle, p.2.clusters)))).flatten) (exec (.launchPartReceive 1 0)
      (dispatched (fun l => { l with parts := [] }) id)) = some [(0, 0xFF00, [0, 1])] ∧
    nextOf (fun t => (t.launches.map (fun l => l.2.parts.map (fun p => p.2.starved))).flatten) (exec (.launchStarvationTimeout 1 0) { dispatched id id with ck := 0x4000000 }) = some [true] ∧
    nextOf (fun t => (t.launches.map (fun l => l.2.parts.map (fun p => p.2.starved))).flatten) (exec (.launchStarvationTimeout 1 0) { dispatched id id with ck := 0x3FFFFFF }) = some [false] ∧
    nextOf (fun t => t.launches.map (fun l => l.2.parts.map (fun p => (p.2.left, p.2.handle)))) (exec (.withdrawnDieLeave 1 0) (dispatched (fun l => { l with mask := 2 }) id)) = some [[(true, 0xFF00)]] ∧
    nextOf (fun t => t.launches.map (fun l => l.2.parts.map (·.2.left))) (exec (.withdrawnDieLeave 1 0) (dispatched id id)) = some [[false]] ∧
    nextOf (fun t => t.launches.map (fun l => l.2.pendMask)) (exec (.dieSetRequest 1 3) (dispatched id id)) = some [some 3] ∧
    nextOf (fun t => (t.launches.map (fun l => l.2.status), (t.core 0).task.isSome)) (exec (.launchCancel 1)
      (dispatched id (fun c => { c with run := .running, task := some task0 }))) = some ([4], false) := by decide +kernel
theorem test_leaders : nextOf (fun t => t.leader) (exec .leaderElection ((mem0 id).updDie 0 (fun d => { d with failed := true }))) = some 1 ∧
    nextOf (fun t => t.leader) (exec .leaderElection { mem0 id with leader := 3 }) = some 0 ∧
    nextOf (fun t => (t.leader, (t.die 2).heartbeat)) (exec (.heartbeatTimeout 2) { (mem0 id).updDie 0 (fun d => { d with failed := true }) with ck := 0x100000 }) = some (1, 0x100000) ∧
    nextOf (fun t => t.leader) (exec (.heartbeatTimeout 2) { (mem0 id).updDie 0 (fun d => { d with failed := true }) with ck := 0xFFFFF }) = some 0 := by decide +kernel
/-! ### The quay fabric and the host link -/

/-- Rank 3 is core 9 of this package, rank 4 core 0 of package 2; peer 1 has this record. -/
def fabric (q : Peer) (f : Core → Core) : State :=
  { (withReceiver (mem0 f) id).updMs (fun m => { m with mem := [⟨12, 9⟩, ⟨15, 0x80⟩, ⟨17, 8⟩, ⟨19, 0x80⟩] }) with peers := [(1, q)] }
def packet (seq rank : Nat) : Packet := ⟨1, seq, .message 0 rank hello.words []⟩
/-- Source: R408, R409: the next in sequence, one behind a gap, one already delivered, one held that follows, one for a rank that moved. -/
theorem test_quay_packets : nextOf (fun t => ((peerAt t 1).expect, (peerAt t 1).acks, (tget (t.core 9).recvq [] 2).length)) (exec (.quayPacketArrival (packet 0 3)) (fabric {} id)) =
      some (1, [(0, 0)], 1) ∧
    nextOf (fun t => ((peerAt t 1).expect, (peerAt t 1).heldPk.map (·.seq), (tget (t.core 9).recvq [] 2).length)) (exec (.quayPacketArrival (packet 1 3)) (fabric {} id)) = some (0, [1], 0) ∧
    nextOf (fun t => ((peerAt t 1).expect, (peerAt t 1).acks)) (exec (.quayPacketArrival (packet 0 3)) (fabric { heldPk := [packet 1 3] } id)) = some (2, [(1, 0), (0, 0)]) ∧
    nextOf (fun t => ((peerAt t 1).acks, (tget (t.core 9).recvq [] 2).length)) (exec (.quayPacketArrival (packet 0 3)) (fabric { expect := 1, acks := [(0, 1)] } id)) = some ([(0, 1), (0, 1)], 0) ∧
    nextOf (fun t => ((peerAt t 1).acks, (peerAt t 2).unacked.length)) (exec (.quayPacketArrival (packet 0 4)) (fabric {} id)) = some ([(0, 0)], 1) ∧
    nextOf (fun t => (peerAt t 1).acks) (exec (.quayPacketArrival (packet 0 5)) (fabric {} id)) = some [(0, 2)] ∧
    nextOf (fun t => (peerAt t 1).heldPk.length) (exec (.quayPacketArrival (packet 4096 3)) (fabric {} id)) = some 0 := by decide +kernel
theorem test_witness_quay_packets : (∃ t, rankEntry (setPeerAt 1 { expect := 1 } (fabric {} id)) 0 63 3 = (some 0x80000009, t)) ∧
    (∃ t, rankEntry (setPeerAt 1 { expect := 1 } (fabric {} id)) 0 63 4 = (some 0x80000800, t)) ∧ (∃ t, rankEntry (setPeerAt 1 { expect := 1 } (fabric {} id)) 0 63 5 = (none, t)) :=
  ⟨⟨_, rfl⟩, ⟨_, rfl⟩, ⟨_, rfl⟩⟩
theorem test_witness_interface : ∃ t, interfaceAnswers (fabric {} id) 63 3 hello 0 t :=
  ⟨_, Or.inl ⟨9, ⟨rfl, by decide +kernel, nofun, by decide +kernel⟩, rfl, rfl⟩⟩
def ferryPacket (b : PacketBody) : Packet := ⟨1, 0, b⟩
theorem test_quay_ferries : nextOf (fun t => ((t.die 0).fer.transit.length, (peerAt t 1).acks)) (exec (.quayPacketArrival (ferryPacket (.half 0 3 5 9 1 0 8 4 2 [0x40000000] false))) (fabric {} id)) =
      some (1, [(0, 0)]) ∧
    nextOf (fun t => (t.die 3).fer.transit) (exec (.quayPacketArrival (ferryPacket (.reply 11 4 1 true))) (fabric {} id)) = some [.reply 4 1 true] := by decide +kernel
def waiting (ch : Nat) : State := fabric { unacked := [(packet 6 3, 0)] } (fun c => { c with standing := some (.send x1 2 false 2), hand := some (.sent 1 6 3 ch) })
/-- Source: R147, R409: the send completes, or traps; the packet's place is free; it is sent again after 2^18 ck. -/
theorem test_quay_answers : nextOf (fun t => ((t.core 0).pc, (t.core 0).hand, (peerAt t 1).unacked.length)) (exec (.e2eAckArrival 1 6 0) (waiting 2)) = some (0x1004, none, 0) ∧
    nextOf (fun t => ((t.core 0).tr.cause, (t.core 0).tr.detail)) (exec (.e2eAckArrival 1 6 1) (waiting 2)) = some (0x0B, 0x02000003) ∧
    nextOf (fun t => ((t.core 0).tr.cause, (t.core 0).tr.detail)) (exec (.e2eAckArrival 1 6 2) (waiting 2)) = some (0x0A, 0x02000003) ∧
    nextOf (fun t => (t.core 0).pc) (exec (.e2eAckArrival 1 5 0) (waiting 2)) = some 0x1000 ∧
    nextOf (fun t => (peerAt t 1).unacked.map (·.2)) (exec (.packetRetransmitTimeout 1 6) { waiting 2 with ck := 0x40000 }) = some [0x40000] ∧
    nextOf (fun t => (peerAt t 1).unacked.map (·.2)) (exec (.packetRetransmitTimeout 1 6) { waiting 2 with ck := 0x3FFFF }) = some [0] := by decide +kernel
theorem test_witness_quay_answers : nothingQueued (waiting 2) ∧ ((waiting 2).core 0).unstepped = true ∧ noRecordWaits (waiting 2) 1 6 := by
  refine ⟨fun _ _ => rfl, by decide +kernel, fun d c r rest _ _ h => ?_⟩
  exact (List.cons_ne_nil _ _ h.symm).elim
/-- A gallery record, and a ferry's packet, that wait for the answer. -/
theorem test_quay_records : nextOf (fun t => ((classAt t 0 1).exitq.length, (t.core 0).gal.queue.map (·.done))) (exec (.e2eAckArrival 1 6 0)
      { exiting (fun r => { r with sent := some (1, 6), kind := 1 }) with peers := [(1, { unacked := [(packet 6 3, 0)] })] }) = some (0, [some 0x1000FFFF]) ∧
    nextOf (fun t => ((t.die 0).fer.outq.length, (peerAt t 2).unacked.length)) (exec (.e2eAckArrival 1 6 0)
      ((fabric { unacked := [(packet 6 3, 0)] } id).updDie 0 (fun d => { d with fer := { d.fer with outq := [(2, .reply 11 4 1 true)] } }))) = some (0, 1) := by decide +kernel
/-- Source: R410, R411. -/
theorem test_quay_losses : nextOf (fun t => (tget t.links true 35, (classAt t 7 0).injq.length, (t.die 7).bbox.map (fun e => (e.getD 0 0, e.getD 4 0)))) (exec (.linkRemoved 35) (fabric {} id)) =
      some (false, 2, [(0x303F3004, 0x0000EB03)]) ∧
    nextOf (fun t => (t.die 1).bbox.map (fun e => e.getD 4 0)) (exec (.linkRemoved 7) (fabric {} id)) = some [0x00002B02] ∧
    nextOf (fun t => (classAt t 0 0).injq.length) (exec (.linkRemoved 36) (fabric {} id)) = some 0 ∧
    nextOf (fun t => tget t.links true 35) (exec (.linkReturn 35) { fabric {} id with links := [(35, false)] }) = some true ∧
    nextOf (fun t => ((peerAt t 1).lost, (peerAt t 1).unacked.length, (t.core 0).tr.cause)) (exec (.packageLost 1) { waiting 2 with ck := 0x1000000 }) = some (true, 0, 0x0A) ∧
    nextOf (fun t => (peerAt t 1).lost) (exec (.packageLost 1) { waiting 2 with ck := 0xFFFFFF }) = some false := by decide +kernel
/-! The host. -/
def host (f : MemSys → MemSys) : State := (mem0 (fun c => { c with goPend := [{ remote := false, line := 4 }], cnt := { ST := 2 }, dirty := [(4, 4)] })).updMs (fun m => f { m with mem := [⟨0x100, 7⟩] })
def line4 (m : MemSys) : MemSys := { m with hist := [⟨0x101, 9, .K, .core 0, none⟩] }
/-- Source: R402, R403: a modified line is forwarded with its latest bytes; stores enter at H; an owned line waits. -/
theorem test_host_accesses : nextOf (fun t => t.answers.map (fun a => (a.2.1, a.2.2.take 2))) (exec (.snpData 4) (host line4)) = some [(4, [7, 9])] ∧
    nextOf (fun t => t.answers.map (fun a => a.2.2.length)) (exec (.snpCur 4) (host id)) = some [0] ∧
    nextOf (fun t => (t.ms.byteAt (.core 1) 0x100, t.ms.byteAt .host 0x101, (t.core 0).dirty)) (exec (.snpInv 4 [5, 6]) (host id)) = some (5, 6, []) ∧
    nextOf (fun t => (t.ms.byteAt (.core 1) 0x100, t.ms.byteAt .host 0x101)) (exec (.memWrPtl 4 2 [5, 6]) (host id)) = some (7, 6) ∧
    nextOf (fun t => t.ms.hist.length) (exec (.memWr 4 [5, 6]) (host (fun m => { m with own := [(4, .CP, 0, 1)] }))) = some 0 ∧
    nextOf (fun t => t.answers.map (fun a => a.2.2.take 2)) (exec (.memRd 4) (host line4)) = some [[7, 0]] ∧
    nextOf (fun t => ((classAt t 0 0).injq.map (fun r => (r.f.drop 4).take 3), t.answers.map (·.2.1))) (exec (.m2sRefused ⟨5, 0x123456780⟩ true) (host id)) =
      some ([[5, 0x23456780, 1]], [0x48D159E]) := by decide +kernel
theorem test_host_words : nextOf (fun t => t.answers.map (·.1)) (exec (.snpData 4) (host line4)) = some ["RspSFwdM"] := rfl
/-- Source: R404. -/
theorem test_host_completions : nextOf (fun t => ((t.core 0).goPend, (t.core 0).cnt.ST)) (exec (.go 0) (host id)) = some ([], 1) ∧
    nextOf (fun t => ((t.core 0).cnt.ST, t.ms.poison)) (exec (.goErr 0) (host id)) = some (1, [4]) ∧
    nextOf (fun t => ((t.core 0).cnt.ST, t.answers.map (fun a => a.2.2.take 1))) (exec (.goWritePull 0) (host id)) = some (1, [[7]]) ∧
    nextOf (fun t => ((t.core 0).cnt.ST, t.answers.length)) (exec (.writePull 0) (host id)) = some (2, 1) ∧
    nextOf (fun t => (t.core 0).cnt.ST) (exec (.go 0) { host id with skovazDead := true }) = some 2 ∧
    nextOf (fun t => (t.skovazDead, (t.die 0).bbox.map (fun e => e.getD 4 0), (t.die 4).bbox.map (fun e => e.getD 4 0))) (exec .skovazLinkLost (host id)) =
      some (true, [0xC00], [0x8C00]) := by decide +kernel
theorem test_saved_completion : nextOf (fun t => t.saved.map (fun x => x.2.ctx.cnt.ST)) (exec (.go 1) { host id with
    saved := [(7, { ctx := { Core.reset 1 with goPend := [{ remote := false, line := 9 }], cnt := { ST := 3 } }, core := 1, check := 0, seed := 0 })] }) = some [2] := by decide +kernel
/-! ### Boot, self-test, partitions, policies, the black box, power, counters, errors -/

def image0 : Image := { name := 1, version := 4, minVersion := 3 }
def flashed (f : Firmware → Firmware) : State := { mem0 id with fw := f { recovery := some image0, strapRecovery := true } }
/-- The recovery image, where it is accepted, is the last choice (R421, R422). -/
theorem spare_image (fw : Firmware) : ∃ img : Option Image, (∀ r, fw.recovery = some r → accepts fw r → img = some r) ∧
    ((∀ r, fw.recovery = some r → ¬ accepts fw r) → img = none) := by
  cases e : fw.recovery with
  | none => exact ⟨none, (fun r h => nomatch h), fun _ => rfl⟩
  | some r =>
    by_cases h : accepts fw r
    · exact ⟨some r, (fun x e _ => e), fun n => (n r rfl h).elim⟩
    · exact ⟨none, (fun x e a => by cases e; exact (h a).elim), fun _ => rfl⟩
/-- One row of R421 always holds. -/
theorem test_witness_boot_rows (fw : Firmware) (i3c : Bool) : ∃ img number reason, bootRow fw i3c img number reason := by
  obtain ⟨img, h1, h2⟩ := spare_image fw
  by_cases h : fw.strapRecovery = true ∨ i3c = true
  · exact ⟨img, _, _, Or.inl ⟨h, ⟨h1, h2⟩, rfl, rfl⟩⟩
  · by_cases ha : ∃ a, fw.slotA = some a ∧ accepts fw a
    · obtain ⟨a, ea, aa⟩ := ha
      by_cases hb : ∀ b, fw.slotB = some b → accepts fw b → b.version ≤ a.version
      · exact ⟨_, _, _, Or.inr (Or.inl ⟨h, rfl, Or.inl ⟨a, ea, aa, rfl, rfl, hb⟩⟩)⟩
      · have : ∃ b, fw.slotB = some b ∧ accepts fw b ∧ a.version < b.version := by
          by_cases e : ∃ b, fw.slotB = some b ∧ accepts fw b ∧ a.version < b.version
          · exact e
          · exact (hb fun b eb ab => Nat.le_of_not_lt fun l => e ⟨b, eb, ab, l⟩).elim
        obtain ⟨b, eb, ab, l⟩ := this
        exact ⟨_, _, _, Or.inr (Or.inl ⟨h, rfl, Or.inr ⟨b, eb, ab, rfl, rfl, fun x ex _ => by rw [ea] at ex; cases ex; exact l⟩⟩)⟩
    · have na : ∀ a, fw.slotA = some a → ¬ accepts fw a := fun a ea aa => ha ⟨a, ea, aa⟩
      by_cases hb : ∃ b, fw.slotB = some b ∧ accepts fw b
      · obtain ⟨b, eb, ab⟩ := hb
        exact ⟨_, _, _, Or.inr (Or.inl ⟨h, rfl, Or.inr ⟨b, eb, ab, rfl, rfl, fun x ex ax => (na x ex ax).elim⟩⟩)⟩
      · exact ⟨img, _, _, Or.inr (Or.inr ⟨h, na, fun b eb ab => hb ⟨b, eb, ab⟩, ⟨h1, h2⟩, rfl, rfl⟩)⟩
/-- Source: R420 to R422, R343: by strap and over I3C the recovery image, where it is accepted; each die's ferry has its identity. -/
theorem test_boots (i3c : Bool) (h : accepted (flashed id).fw image0 = true) :
    nextOf (fun t => (t.fw.booted, t.fw.rollback, (t.die 7).bootstat, (t.die 0).failed, t.leader)) (exec (.powerOnReset ⟨0xFE, i3c⟩) (flashed id)) =
      some (true, 3, 0x102, true, 1) ∧
    nextOf (fun t => (t.die 7).fer.fid) (exec (.powerOnReset ⟨0xFE, i3c⟩) { flashed id with pkg := 2 }) = some 23 := by
  have c : chooseImage (flashed id).fw i3c = (some image0, 2, 1) := by simp [chooseImage, flashed, image0] at h ⊢; exact h
  have e (s : State) : exec (.powerOnReset ⟨0xFE, i3c⟩) s = execPowerOnReset ⟨0xFE, i3c⟩ s := rfl
  constructor
  · rw [e]; unfold execPowerOnReset; dsimp only; rw [c]; decide +kernel
  · have c2 : chooseImage ({ flashed id with pkg := 2 } : State).fw i3c = (some image0, 2, 1) := c
    rw [e]; unfold execPowerOnReset; dsimp only; rw [c2]; decide +kernel
theorem test_boots_without : nextOf (fun t => (t.fw.booted, (t.die 3).failed, (t.die 3).bootstat)) (exec (.powerOnReset ⟨0xFF, true⟩) (flashed (fun f => { f with strapRecovery := false, recovery := none }))) =
      some (false, true, 0x102) ∧
    nextOf (fun t => (t.fw.booted, (t.die 3).bootstat)) (exec (.powerOnReset ⟨0xFF, false⟩) (flashed (fun f => { f with strapRecovery := false, recovery := none }))) =
      some (false, 0x202) ∧
    nextOf (fun t => t.fw.ownerKeys) (exec (.recoveryKeyEnrol 7 true) ((flashed (fun f => { f with booted := true, ownerKeys := [5] })).updDie 0 (fun d => { d with bootstat := 0x102 }))) =
      some [5, 7] ∧
    nextOf (fun t => t.fw.ownerKeys) (exec (.recoveryKeyEnrol 7 false) ((flashed (fun f => { f with booted := true })).updDie 0 (fun d => { d with bootstat := 0x102 }))) = some [] ∧
    nextOf (fun t => t.fw.slotA.isSome) (exec (.recoveryImageLoad false image0) (flashed id)) = some false := by decide +kernel
def testing (f : Die → Die) (g : Core → Core) : State := (mem0 g).updDie 0 f
theorem test_self_tests : nextOf (fun t => (t.die 0).bistctl) (exec (.bistctlGo 0 0x80000001) (testing id id)) = some 0x40000001 ∧
    nextOf (fun t => ((t.die 0).bistctl, (t.die 0).bistres)) (exec (.bistctlGo 0 0x80000001) (testing id (fun c => { c with task := some task0 }))) = some (1, 0x00010003) ∧
    nextOf (fun t => ((t.die 0).bistctl, (t.die 0).bistres)) (exec (.bistctlGo 0 0x80000080) (testing id id)) = some (0x80, 0x00800003) ∧
    nextOf (fun t => (t.die 0).bistctl) (exec (.bistctlGo 0 0x00000304) (testing id id)) = some 0x304 ∧
    nextOf (fun t => (t.die 0).bistctl) (exec (.bistctlGo 0 0x80000001) (testing (fun d => { d with bistctl := 0x40000002 }) id)) = some 0x40000002 ∧
    nextOf (fun t => ((t.die 0).bistctl, (t.die 0).bistres, (classAt t 0 0).injq.length)) (exec (.bistComplete 0 0x501) (testing (fun d => { d with bistctl := 0x40000304 }) id)) =
      some (0x304, 0x03040501, 1) ∧
    nextOf (fun t => (t.die 0).bistctl) (exec (.bistComplete 0 3) (testing (fun d => { d with bistctl := 0x40000304 }) id)) = some 0x40000304 := by decide +kernel
theorem test_witness_self_tests : unused (testing id id) 0 0 127 ∧ unused (testing id id) 0 13 9 ∧ ¬ unused (testing id (fun c => { c with task := some task0 })) 0 0 7 := by
  refine ⟨Or.inl ⟨rfl, by decide, fun n _ => ?_⟩, Or.inr (Or.inr (Or.inr ⟨rfl, fun p _ => ?_⟩)), ?_⟩
  · have : ((testing id id).core ((16 * 0 + 127 / 8) * 8 + n)).task = none := by
      have e : (16 * 0 + 127 / 8) * 8 + n ≠ 0 := by omega
      have c : (testing id id).core ((16 * 0 + 127 / 8) * 8 + n) = tget [(0, (testing id id).core 0)] (Core.reset ((16 * 0 + 127 / 8) * 8 + n)) ((16 * 0 + 127 / 8) * 8 + n) := rfl
      rw [c]; simp only [tget, tfind, if_neg e]; rfl
    exact this
  · rfl
  · rintro (⟨-, -, h⟩ | ⟨h, -⟩ | ⟨h, -⟩ | ⟨h, -⟩)
    · exact absurd (h 0 (by decide)) (by decide +kernel)
    · revert h; decide
    · revert h; decide
    · revert h; decide
/-- Source: R424: core 0's task goes on in the spare, its receive queue in its berth. -/
theorem test_remaps : nextOf (fun t => ((t.die 0).remapCtl, [(t.core 0).regs.get 1, (t.core 0).pc], (t.core 0).held.length))
      (exec (.remapGo 0 0x80000000) (testing id (fun c => { c with task := some task0, held := [(4, 4)] }))) = some (0x40000000, [0x100, 0x1000], 0) ∧
    nextOf (fun t => ((berthAt t 63 3).msgs.length, (t.core 0).recvq.length, (t.core 0).rank))
      (exec (.remapGo 0 0x80000000) (testing id (fun c => { c with task := some task0, rank := some 3, recvq := [(2, [hello])] }))) = some (1, 0, some 3) ∧
    nextOf (fun t => (t.die 0).remapCtl) (exec (.remapGo 0 0x80000000) (testing (fun d => { d with spareUsed := true }) id)) = some 0x60000000 ∧
    nextOf (fun t => (t.die 0).remapCtl) (exec (.remapGo 0 5) (testing (fun d => { d with remapCtl := 0x40000000 }) id)) = some 0x40000005 ∧
    nextOf (fun t => (t.die 0).spareUsed) (exec (.remapGo 0 0x80000000) (testing id (fun c => { c with task := some task0, cnt := { MX := 1 } }))) = some false := by decide +kernel
theorem test_witness_remaps : mayLeave ((testing id (fun c => { c with task := some task0 })).core 0) ∧ ((testing id (fun c => { c with task := some task0 })).core 1).task = none :=
  ⟨⟨rfl, rfl, rfl, rfl, rfl, rfl, rfl, rfl, rfl, rfl, (fun q h => nomatch h), fun a h => nomatch h⟩, rfl⟩
def partitioned (f : Partition → Partition) : State :=
  (((testing (fun d => { d with partsel := 5, clusel := 1 }) id).updPart 5 f).updMs (fun m => { m with mem := [⟨0x20000, 7⟩, ⟨0x60000, 8⟩] }))
/-- Source: R419, R430: frames 2 to 3 are partition 5's. -/
theorem test_partitions : nextOf (fun t => ((t.part 5).valid, (t.part 5).debug, (t.part 5).netasid)) (exec (.partctlWrite 0 0xC0000012) (partitioned (fun p => { p with tkeyh := [0, 1] }))) =
      some (true, true, 0x12) ∧
    nextOf (fun t => (t.part 5).valid) (exec (.partctlWrite 0 0xC0000012) (partitioned id)) = some false ∧
    nextOf (fun t => (t.ms.byteAt (.core 0) 0x20000, t.ms.byteAt .host 0x60000, (t.part 5).valid)) (exec (.partctlWrite 0 0) (partitioned (fun p =>
      { p with valid := true, ranges := [(0, { valid := true, lo := 2, hi := 3 })] }))) = some (0, 8, false) ∧
    nextOf (fun t => (t.cluster 1).part) (exec (.clupartWrite 0 0x80000005) (partitioned id)) = some (some 5) ∧
    nextOf (fun t => (t.cluster 1).part) (exec (.clupartWrite 0 0x80000005) ((partitioned id).updCore 9 (fun c => { c with task := some task0 }))) = some none := by decide +kernel
theorem test_witness_partitions : ¬ lives (partitioned id) 5 ∧ rising (partitioned id).cores := by
  refine ⟨?_, List.pairwise_singleton _ _⟩
  rintro (⟨k, c, h, e, -⟩ | ⟨x, h, -⟩ | ⟨d, -, c, -, v, -⟩ | ⟨d, hd, g, h, -⟩)
  · injection List.mem_singleton.mp h with h
    subst h
    exact absurd e (by decide)
  · exact (List.not_mem_nil h).elim
  · have : ∀ n, (tget [(0, (partitioned id).die 0)] {} n).gal.cls = [] := by
      intro n
      by_cases e : 0 = n
      · subst e; rfl
      · have e : n ≠ 0 := fun h => e h.symm
        simp [tget, tfind, e]
    have e : classAt (partitioned id) d c = tget (tget [(0, (partitioned id).die 0)] {} d).gal.cls {} c := rfl
    rw [e, this] at v
    cases v
  · have : ∀ n, (tget [(0, (partitioned id).die 0)] {} n).fer.groups = [] := by
      intro n
      by_cases e : 0 = n
      · subst e; rfl
      · have e : n ≠ 0 := fun h => e h.symm
        simp [tget, tfind, e]
    have e : ((partitioned id).die d).fer.groups = (tget [(0, (partitioned id).die 0)] {} d).fer.groups := rfl
    rw [e, this] at h
    exact (List.not_mem_nil h).elim
/-- The policy's format: one rule of action 3 and count 1 (R425). -/
def policy1 (i : Nat) : Word := [0x504C4448, 1, 5, 1, 1, 0, 0, 0, 0, 0, 0, 0, 0, 0, 0, 0, 0, 0, 0x103, 0].getD i 0
theorem test_witness_policies : policyHolds policy1 := by
  refine ⟨rfl, rfl, by decide, by decide, by decide, by decide, by decide,
    fun i h h1 => (by decide : ∀ i, i < 16 → 5 ≤ i → policy1 i = 0) i h1 h, fun i h => ?_⟩
  have : i = 0 := by have e : (policy1 4).toNat = 1 := rfl; omega
  subst this
  refine ⟨by decide, by decide, by decide, by decide, by decide⟩
theorem test_policies : nextOf (fun t => t.ck) (exec (.polctlGo 0 0) (mem0 id)) = some 0 ∧
    (translateRun (mem0 id) 0 0 .load ((List.range 64).map (fun i => (((0 : Word).toNat + 0) % 2 ^ 32 + i) % 2 ^ 32)) []).1 = .inl (List.range 64) := by decide +kernel
def boxes (f : Die → Die) : State := ({ testing f (fun c => { c with sup := { c.sup with bbidx := 1, bbword := 4 } }) with clusters := [(0, { part := some 5 })] })
def sealed5 (d : Die) : Die := { d with bbox := [[0x30053004], [0x30063004], [0x30053004, 1, 2, 3, 44]], lastFlush := 7 }
/-- Source: R427, R428: the fifth word of partition 5's second entry. -/
theorem test_black_boxes : (match csrRead 0 0x8FD (boxes sealed5) with | .ok v t => some (v, (t.core 0).sup.bbword) | _ => none) = some (44, 5) ∧
    (match csrRead 0 0x8FD (boxes id) with | .ok v _ => some v | _ => none) = some 0 ∧
    nextOf (fun t => (t.die 0).bboxFlash.length) (exec (.blackBoxFlush 0) { boxes sealed5 with ck := 0x40000007 }) = some 3 ∧
    nextOf (fun t => (t.die 0).bboxFlash.length) (exec (.blackBoxFlush 0) { boxes sealed5 with ck := 0x40000006 }) = some 0 ∧
    nextOf (fun t => (t.die 0).bboxFlash.length) (exec .inputPowerLoss (boxes sealed5)) = some 3 := by decide +kernel
/-- Source: R318, R427, R429. -/
theorem test_power : nextOf (fun t => (t.clockStep, (t.die 0).bbox.map (fun e => e.getD 4 0), (classAt t 0 0).injq.map (fun r => r.f.drop 4 |>.take 2))) (exec (.clockStep 0 true true) (mem0 id)) =
      some (1, [0x00000E00], [[0x00000E00, 1], [1, 2]]) ∧
    nextOf (fun t => t.clockStep) (exec (.clockStep 0 true false) { mem0 id with clockStep := 7 }) = some 7 ∧
    nextOf (fun t => (t.die 0).lost) (exec (.junctionOverheat 0) (testing (fun d => { d with tjmax := 109 }) id)) = some false ∧
    nextOf (fun t => (t.die 0).lost) (exec (.junctionOverheat 0) (testing (fun d => { d with tjmax := 110 }) id)) = some true ∧
    nextOf (fun t => (t.pwrstat, (t.die 0).tjmax, (classAt t 0 0).injq.map (fun r => r.f.drop 4 |>.take 2))) (exec (.powerSample 0 900 60) { mem0 id with ck := 0x1000000 }) =
      some (900, 60, [[900, 60]]) ∧
    nextOf (fun t => t.pwrstat) (exec (.powerSample 0 900 60) { mem0 id with ck := 0xFFFFFF }) = some 0 := by decide +kernel
theorem test_counters : nextOf (fun t => ((classAt t 0 0).injq.map (fun r => (r.f.getD 0 0, r.f.getD 4 0, r.f.getD 8 0)), (t.core 0).dbg.retired, (t.die 0).tele)) (exec (.telemetryCounterSample 0)
    { testing (fun d => { d with tele := [(0x301FC01, 6)] }) (fun c => { c with dbg := { c.dbg with retired := 9 } }) with ck := 0x1000000 }) =
      some ([(0x003F0001, 9, 0), (0x003F0301, 6, 1)], 0, []) := by decide +kernel
/-- Source: R194, R412. -/
theorem test_uncorrectable : nextOf (fun t => (t.ms.poison, (t.core 0).tr.imp.map (·.cause))) (exec (.uncorrectableErrorDetected 4 0 false) (mem0 id)) = some ([4], [0x70]) ∧
    nextOf (fun t => t.viral) (exec (.uncorrectableErrorDetected 4 0 true) { mem0 id with viralEn := true }) = some true ∧
    nextOf (fun t => (t.viral, (t.core 0).fenced)) (exec (.uncorrectableErrorDetected 4 0 true) ((mem0 id).updDie 0 (fun d => { d with basins := [(2, { valid := true })] }))) =
      some (false, true) := by decide +kernel
/-! ### Where instructions and events complete: states that meet the conditions -/

theorem page0 (f : Core → Core) (w : Bool) : mapped (mem0 f) 0 0 0x100 w 0x100 := ⟨rfl, rfl, _, rfl, fun _ => rfl, rfl⟩
theorem test_witness_completions : (buffered.ready { moves := true } = true ∧ (buffered.core 0).readsDone = true ∧ (buffered.core 0).pubDone = false) ∧
    landsFreely buffered ∧
    (buffered.ready (uses (.waitc .MX x1)) = true ∧ (buffered.core 0).cnt.get .MX ≤ (buffered.vals (uses (.waitc .MX x1))).a.toNat) ∧
    ((mem0 id).ready { a := some x1, moves := true } = true ∧ ((mem0 id).core 0).watch true true 0x100 = none ∧ ((mem0 id).core 0).task = none) ∧
    ((tasked { launch0 with gen := 1 } (fun c => { c with arrived := some 0 })).ready { a := some x1, moves := true } = true) :=
  ⟨by decide +kernel, ⟨rfl, rfl, rfl⟩, by decide +kernel, by decide +kernel, by decide +kernel⟩
theorem test_witness_succeeds : succeeds (await0 0) x1 x2 ∧ ((await0 0).updCore 0 (fun c => { c with standing := some (.await .acq .D x1 x2) })).ready
    { a := some x1, b := some x2, moves := true } = true :=
  ⟨⟨0x100, by decide +kernel, by decide +kernel, by decide +kernel, by decide +kernel, ⟨rfl, rfl, _, rfl, fun _ => rfl, rfl⟩, by decide +kernel, by decide +kernel⟩,
    by decide +kernel⟩
/-- Line 6 alone is named by (0x180, 64), and page 0 is mapped. -/
theorem test_witness_stash_completes : (stash 0x180 64).ready { a := x1, b := x2 } = true ∧ Claims.fld 64 21 10 = 0 ∧ Claims.fld 64 31 1 = 0 ∧
    (∀ l, l < 2 ^ 26 → rangeHas 0x180 64 l → l = 6) ∧ mapped (stash 0x180 64) 0 0 (6 * 64) false 0x180 ∧ (stash 0x180 64).ms.owned 6 = false := by
  refine ⟨by decide +kernel, by decide, by decide, fun l _ h => ?_, ⟨rfl, rfl, _, rfl, fun _ => rfl, rfl⟩, rfl⟩
  have a : (0x180 : Word).toNat = 0x180 := rfl
  have b : Claims.fld 64 0 21 = 64 := by decide
  simp only [rangeHas, a, b] at h
  omega
theorem test_witness_tlbinv_completes : (published (inval 0 1)).ready (uses (.tlbinv x1 x2)) = true ∧ ((published (inval 0 1)).core 0).priv ≠ .task ∧
    ((published (inval 0 1)).core 0).pubDone = true ∧ ((published (inval 0 1)).core 0).out = [] ∧ tget (published (inval 0 1)).ms.asidPart 63 0 = (published (inval 0 1)).corePart 0 ∧
    (published (inval 0 1)).ms.moves = [] ∧ (∀ k x, (k, x) ∈ (published (inval 0 1)).cores → x.pageWaits = []) := by
  refine ⟨by decide +kernel, by decide +kernel, rfl, rfl, rfl, rfl, fun k x h => ?_⟩
  have h : (k, x) ∈ [(0, (published (inval 0 1)).core 0)] := h
  cases List.mem_singleton.mp h; rfl
def stepping0 : State := tasked { launch0 with genN := some 1, arrivals := 1 } (fun c => { c with arrived := some 0, standing := some (.sstep x1) })
theorem test_witness_core_events : (landsFreely land0 ∧ land0.saved = []) ∧
    ((∀ k ∈ stepping0.participants 1 0, (stepping0.core k).readsDone = true) ∧ landsFreely stepping0) ∧
    (((user (fun c => { c with tr := { c.tr with imp := [⟨0x72, 4, 8, 0⟩] } })).core 0).priv = .task ∧
      ((user (fun c => { c with tr := { c.tr with imp := [⟨0x72, 4, 8, 0⟩] } })).core 0).run = .running ∧ (0x72 : Nat) ∉ [0x70, 0x71, 0x73]) ∧
    ((mem0 id).debugAdmits 0 = true ∧ ((mem0 id).die 0).lost = false ∧ (halted0.core 0).run = .debug 1 ∧ halted0.debugAdmits 0 = true ∧
      (halted0.core 0).dbg.sel = 3) ∧
    ((debugged 0x104).debugAdmits 0 = true ∧ landsFreely (debugged 0x104) ∧ mapped (debugged 0x104) 0 0 0x104 true 0x104 ∧
      ((debugged 0x104).core 0).readsDone = true ∧ ∀ i, i < 4 → ¬ leafByte (debugged 0x104) (0x104 + i)) ∧
    (landsFreely (rearmed 0x10 true id) ∧ mapped (rearmed 0x10 true id) 0 0 0x100 false 0x100) := by
  refine ⟨⟨⟨rfl, rfl, rfl⟩, rfl⟩, ⟨by decide +kernel, ⟨rfl, rfl, rfl⟩⟩, ⟨rfl, rfl, by decide⟩, ⟨by decide +kernel, rfl, rfl, by decide +kernel, rfl⟩,
    ⟨by decide +kernel, ⟨rfl, rfl, rfl⟩, ⟨rfl, rfl, _, rfl, fun _ => rfl, rfl⟩, by decide +kernel, fun i _ => ?_⟩,
    ⟨⟨rfl, rfl, rfl⟩, ⟨rfl, rfl, _, rfl, fun _ => rfl, rfl⟩⟩⟩
  simp only [leafByte]
  rintro ⟨t, h, e⟩
  simp only [debugged, State.updMs, mem0, paged, List.mem_map] at h
  obtain ⟨p, -, rfl⟩ := h
  simp only [leaf0] at e; omega
theorem test_promote_accepted : nextOf (fun t => ((t.core 0).cpy.queue.map (·.instr), (t.core 0).cnt.CP)) (exec (.engineAccept 0) (offered .CP (.promote x1) id)) =
      some ([.promote x1], 1) ∧ ((offered .CP (.promote x1) id).core 0).unstepped = true ∧ ((offered .CP (.promote x1) id).core 0).out = [] ∧
    ((offered .CP (.promote x1) id).core 0).cpy.waiting = none := by decide +kernel
theorem test_witness_vector_events : ((renegs (some ⟨false, 8, none⟩) 16 id).core 0).vec.seq = [] ∧
    entryAt ((sequenced (entry0 (.vmovBroadcast 2 6) 9) id).core 0).vec = some (entry0 (.vmovBroadcast 2 6) 9) ∧
    ((sequenced (entry0 (.vmovBroadcast 2 6) 9) id).core 0).vec.waiting = none ∧ ((sequenced (entry0 (.vmovBroadcast 2 6) 9) id).core 0).vec.dead = false ∧
    nextOf (fun t => (lanesOf t 2).take 2) (exec (.vectorEntryComplete 0) (sequenced (entry0 (.vmovBroadcast 2 6) 9) id)) = some [9, 9] := by decide +kernel
def whole : Reduction := { desc := 5, g := 2, kids := (List.range 4).map (fun n => (n, [⟨0x3F800000, false⟩, ⟨0x40000000, false⟩])) }
theorem test_root_reduces : nextOf (fun t => ((t.die 0).rootRouter, (t.die 0).totals.length)) (exec (.routerReduce 0 2 0 5)
    (State.reset.updDie 0 (fun d => { d with rootRouter := [(5, whole)] }))) = some ([], 1) ∧ ∀ n, n < 4 → (tfind whole.kids n).isSome = true := by decide +kernel
/-- Every address of the wide page range is mapped to itself. -/
theorem wide_mapped (s : State) (hp : s.parts = []) (hd : s.dies = []) (va : Nat) (h : va < 128 * 65536) (w : Bool) : mapped (wide s) 0 0 va w va := by
  refine ⟨by simp [wide, State.updMs, State.inBerth, hp], by simp [wide, State.updMs, State.inBlock, hd],
    { leaf0 with port := hallBank 0 va % 4, run := 127 }, ?_, fun _ => rfl, ?_⟩
  · have h4 : hallBank 0 va % 4 < 4 := Nat.mod_lt _ (by decide)
    have hq : va / 65536 ≤ 127 := by omega
    show (wide s).ms.tlb.find? (fun t => t.covers 0 (hallBank 0 va % 4) 0 (va / 65536)) = _
    generalize hallBank 0 va % 4 = p at h4 ⊢
    have : p = 0 ∨ p = 1 ∨ p = 2 ∨ p = 3 := by omega
    rcases this with rfl | rfl | rfl | rfl <;> simp [wide, State.updMs, TlbEntry.covers, leaf0, List.range, List.range.loop, hq]
  · show va = (0 + (va / 65536 - 0)) * 65536 + va % 65536
    omega
theorem test_witness_saves_complete : (landsFreely (preempt id working) ∧ landsFreely (asked id) ∧ (asked id).saved = []) ∧
    (∀ i, i < 16 → mapped (preempt id working) 0 0 (((0x200000 : Word).toNat + 0x7F0 + i) % 2 ^ 32) false (0x2007F0 + i)) ∧
    mapped (asked id) 0 0 (0x200000 : Word).toNat true 0x200000 ∧
    (∀ i, i < 25 → mapped (asked id) 0 0 (((0x10000 : Word).toNat + 65536 * i) % 2 ^ 32) true (0x10000 + 65536 * i)) ∧
    (∀ i, i < 50 → mapped (asked id) 0 0 (((0x400000 : Word).toNat + 65536 * i) % 2 ^ 32) true (0x400000 + 65536 * i)) := by
  refine ⟨⟨⟨rfl, rfl, rfl⟩, ⟨rfl, rfl, rfl⟩, rfl⟩, fun i h => ?_, wide_mapped _ rfl rfl _ (by decide) _, fun i h => ?_, fun i h => ?_⟩
  · have e : ((0x200000 : Word).toNat + 0x7F0 + i) % 2 ^ 32 = 0x2007F0 + i := by have : (0x200000 : Word).toNat = 0x200000 := rfl; omega
    rw [e]; exact wide_mapped _ rfl rfl _ (by omega) _
  · have e : ((0x10000 : Word).toNat + 65536 * i) % 2 ^ 32 = 0x10000 + 65536 * i := by have : (0x10000 : Word).toNat = 0x10000 := rfl; omega
    rw [e]; exact wide_mapped _ rfl rfl _ (by omega) _
  · have e : ((0x400000 : Word).toNat + 65536 * i) % 2 ^ 32 = 0x400000 + 65536 * i := by have : (0x400000 : Word).toNat = 0x400000 := rfl; omega
    rw [e]; exact wide_mapped _ rfl rfl _ (by omega) _
theorem test_witness_restore_completes (m : List Host.Cell) : landsFreely (restoring m 2 id) ∧ (restoring m 2 id).corePart 2 = (restoring m 2 id).corePart 0 ∧
    ((restoring m 2 id).core 2).fenced = false ∧ ((restoring m 2 id).core 2).mat.queue = [] ∧ ((restoring m 2 id).core 2).vec.seq = [] ∧
    (Core.reset 2).vec.grant + heldByOthers (restoring m 2 id) 2 ≤ 512 := ⟨⟨rfl, rfl, rfl⟩, rfl, rfl, rfl, rfl, by show 0 + 0 ≤ 512; decide⟩
theorem test_witness_basin_completes : (basinAt (basined [] id) 0 0).fenced = false ∧ (basinAt fencedBasin 0 0).fenced = true ∧ ((testing (fun d => { d with tjmax := 110 }) id).die 0).tjmax = 110 ∧
    ∀ j, j / 128 = 0 → (basined [] id).corePart j = (basined [] id).corePart 0 := by
  refine ⟨rfl, rfl, rfl, fun j h => ?_⟩
  have : j < 128 := by omega
  simp [State.corePart, coreDie, isService, coreClu, basined, State.updDie, supervisor, mem0, paged, at0, State.cluster, State.reset, tget, tfind]
/-! ### Where engine, memory and package events complete -/

theorem others (s : State) (c : Core) (h : s.cores = [(0, c)]) (j : Nat) (hj : j ≠ 0) : s.core j = Core.reset j := by
  simp [State.core, h, tget, tfind, hj]
theorem test_witness_matrix_events : arrayBusy (tiles 0 id) 0 = false ∧ nextTile (tiles 0 id) 0 = some 0 ∧
    nextOf (fun t => (t.core 0).mat.mg[8]) (exec (.matrixCsrWrite 0 0x208 7) (mem0 id)) = some 7 := by decide +kernel
/-- One gallery command of core 0 at its turn, of each kind; a commit's, a binding's and a counter's. -/
def alone (i : Instr) (a b : Word) : State := gallery (gcmd i a b) (fun g => { g with ctr := [(4, 6)] }) id
theorem alone_turn (i : Instr) (a b : Word) : galTurnAt (alone i a b) 0 [] (gcmd i a b) [] := ⟨rfl, by simp, by simp [gcmd], by simp, rfl, rfl, rfl, rfl, by decide⟩
theorem test_gallery_takes_effect :
    nextOf (fun t => (t.core 0).gal.queue.map (·.done)) (exec (.engineRead 0 .GL) (alone (.gctr (.x 3) x1 x2) 0x10004 0)) = some [some 6] ∧
    nextOf (fun t => (t.core 0).gal.queue.map (·.done)) (exec (.galleryShadowWrite 0) (alone (.gtd x1 x2) 0x24800003 0)) = some [some 0] ∧
    nextOf (fun t => ((classAt t 0 1).old, (t.core 0).gal.queue.map (·.done))) (exec (.galleryCommit 0 1) (alone (.gcmt (.x 3) x1) 1 0)) = some (true, [some 1]) ∧
    nextOf (fun t => ((classAt t 0 1).stages, (classAt t 0 1).rlim)) (exec (.galleryBindEffect 0 1) (alone (.gbind x1 x2) 1 0x20009)) = some (9, 2) ∧
    (classAt (alone (.gtd x1 x2) 0x24800003 0) 0 (Claims.fld 0x24800003 26 3)).stages / 2 ^ Claims.fld 0x24800003 22 4 % 2 = 1 ∧ Claims.fld 0x24800003 29 3 < 5 := by
  decide +kernel
theorem test_witness_gallery_first (p : Instr → Prop) (i : Instr) (a b : Word) : ∀ j, j ≠ 0 → ∀ q', ((alone i a b).core j).gal.turn = some q' → ¬ p q'.instr := by
  intro j hj q h
  rw [others _ _ rfl j hj] at h
  cases h
theorem test_gallery_ends : nextOf (fun t => ((t.core 0).gal.queue.length, (t.core 0).cnt.gl)) (exec (.engineComplete 0 .GL) (galDone (.gbind x1 x2) 0 id id)) = some (0, 0) := by
  decide +kernel
def entering : State := gallery (gcmd (.ginj x1 x2) 1 0x100) id (fun g => { g with injq := [rec0], gen := 3 })
theorem test_gallery_moves : (classAt entering 0 1).injq = [rec0] ∧ (entering.die 0).gal.flight = [] ∧ (∀ n, n < 8 → n ≠ 1 → (classAt entering 0 n).injq = []) ∧
    nextOf (fun t => (t.die 0).gal.flight.map (·.stage)) (exec (.galleryStage 0 0) (gallery (gcmd (.ginj x1 x2) 1 0x100) (fun g => { g with flight := [{ rec0 with stage := 3 }] }) id)) =
      some [4] ∧
    nextOf (fun t => (classAt t 0 1).old) (exec (.galleryShadowCopyDone 0 1) (gallery (gcmd (.ginj x1 x2) 1 0x100) id (fun g => { g with old := true }))) = some false := by decide +kernel
theorem test_witness_no_policy : ¬ underPolicy rec0 := fun h => by cases h.1
def exiting1 : State := { exiting (fun r => { r with land := some (1, 1) }) with launches := [(1, twoFlights 2)] }
theorem test_witness_exit : (∃ s1, pushItem exiting1 1 0 1 ((rec0.f.drop 12).take 4) = some s1 ∧ commandStands s1 { rec0 with land := some (1, 1) } 5) ∧
    (classAt exiting1 0 1).exitq = [{ rec0 with land := some (1, 1) }] :=
  ⟨⟨_, rfl, rfl, by decide +kernel, by decide +kernel⟩, rfl⟩
theorem test_witness_ferry_events : (let s := ferryDie id (fun g => { g with mode := true, due := 2048 }) id { mem0 id with ck := 2048 };
      (groupAt s 0 2).en = true ∧ (groupAt s 0 2).mode = true ∧ (groupAt s 0 2).due ≤ s.ck ∧ (s.die 0).lost = false) ∧
    (let s := arriving (.half half0) id;
      (s.die 0).fer.transit[0]? = some (.half half0) ∧ (s.die 0).fer.blocks.find? (fun b => b.2.key == half0.key && (groupAt s 0 b.2.group).tag == half0.tag) = some (3, blk0) ∧
      Claims.fld (s.die 0).fer.finj 30 2 ≠ 3) ∧
    (let s := arriving (.reply 0 1 true) heldBlk;
      (s.die 0).fer.blocks.find? (fun b => b.2.bind == 0) = some (3, heldBlk blk0) ∧ blockAt s 0 3 = some (heldBlk blk0)) ∧
    (let s := ferryDie (fun b => { b with leaves := [0] }) id id (mem0 id);
      (groupAt s 0 2).ncount = 1 ∧ Claims.fld (tget (groupAt s 0 2).nb 0 0) 24 2 = 1 ∧
      nextOf (fun t => (blockAt t 0 3).map (fun b => (b.leaves, b.leave, b.leaveRecalled))) (exec (.ferryHandover 0 3) s) = some (some ([], some 0, true))) := by decide +kernel
/-- The group registers by the service core of die 0. -/
def ferryService (f : FGroup → FGroup) (b : FBlock → FBlock) : State := (ferryDie b f id (mem0 id)).updCore 1024 (fun c => { c with fer := { c.fer with gsel := 2 } })
theorem test_ferry_service : ((ferryService id id).core 1024).priv = .service ∧
    nextOf (fun t => (groupAt t 0 2).evq) (exec (.fgevqRead 1024) (ferryService (fun g => { g with evq := [7, 8] }) id)) = some [8] ∧
    nextOf (fun t => (groupAt t 0 2).nb) (exec (.fnbWrite 1024 4) (ferryService id id)) = some [(0, 4)] ∧
    nextOf (fun t => (groupAt t 0 2).tag) (exec (.fgtagWrite 1024 6) (ferryService id (fun b => { b with group := 1 }))) = some 6 ∧
    nextOf (fun t => ((t.core 1024).sup.fckStatus, (blockAt t 0 3).map (·.copying))) (exec (.fckctlGo 1024 0x80000003) (ferryService id (fun b => { b with qui := true }))) =
      some (1, some true) := by decide +kernel
theorem test_witness_ferry_copy : ((copier 3 1 id).core 0).sup.fckStatus = 1 ∧ blockAt (copier 3 1 id) 0 3 = some blk0 ∧ landsFreely (copier 3 1 id) ∧
    mapped (copier 3 1 id) 0 0 0x300 true 0x300 ∧ ∀ b ∈ ((copier 3 1 id).die 0).fer.blocks, b.2.group ≠ 0 := by
  refine ⟨rfl, rfl, ⟨rfl, rfl, rfl⟩, ⟨by decide +kernel, by decide +kernel, _, rfl, fun _ => rfl, rfl⟩, by decide +kernel⟩
theorem test_witness_copy_row : landsFreely (cpy0 id id) ∧ (∀ i, i < 4 → mapped (cpy0 id id) 0 0 ((rowFrom [0x100, 0x200, 0x20004, 4, 4, 0, 0, 0] 0).getD i 0) false (0x100 + i) ∧
      (cpy0 id id).lineLost ((0x100 + i) / 64) = (cpy0 id id).lineLost 4) ∧
    ∀ i, i < 4 → mapped (cpy0 id id) 0 0 ((rowTo [0x100, 0x200, 0x20004, 4, 4, 0, 0, 0] 0).getD i 0) true (0x200 + i) := by
  refine ⟨⟨rfl, rfl, rfl⟩, fun i h => ?_, fun i h => ?_⟩ <;>
    (obtain rfl | rfl | rfl | rfl : i = 0 ∨ i = 1 ∨ i = 2 ∨ i = 3 := by omega) <;>
    first | exact ⟨⟨rfl, rfl, _, rfl, fun _ => rfl, rfl⟩, rfl⟩ | exact ⟨rfl, rfl, _, rfl, fun _ => rfl, rfl⟩
theorem test_witness_copy_healthy : (cpy0 id id).lineLost 4 = false := by
  simp [State.lineLost, cpy0, State.updMs, mem0, paged, at0, State.die, State.reset, tget, tfind]
theorem test_witness_tier_steps : (moves { move0 with stage := 0, by' := .engine } id).ms.own = [] ∧ targetOk (moves { move0 with stage := 2 } id) 0 { move0 with stage := 2 } 9 = true ∧
    nextOf (fun t => t.ms.moves.map (fun m => (m.stage, m.again))) (exec (.tierMove 0 ⟨9, true⟩) (moves { move0 with stage := 2 } id)) = some [(2, true)] ∧
    nextOf (fun t => t.ms.moves.length) (exec (.tierMove 0 ⟨9, true⟩) (moves { move0 with stage := 2, again := true } id)) = some 0 ∧
    tfind ((inTables id).part 5).demoting (4 * 1 + 0) = none ∧ ((inTables id).part 5).soft.getD 0 0 = 0 := by decide +kernel
theorem test_witness_demotion_starts : ((inTables id).part 5).soft.getD 0 0 < occupancy (inTables id) 5 0 := by rw [occupied]; decide
theorem test_witness_memory_registers : ((8 : Word).toNat % 16 ≤ 8 ∧ (buffered.core 0).cache ≠ 8 ∧ landsFreely buffered) ∧
    ((setter (fun c => { c with sup := { c.sup with presel := 9 } })).core 9).regs.held = [] ∧ (0x80001000 : Word).toNat % 2 ^ 31 = 2 ^ 12 ∧
    (berthAt (berthed { log := 16 }) 63 3).next = none ∧
    ((berthAt (berthed { log := 16, next := some (0x10000, 17) }) 63 3).next = some (0x10000, 17) ∧ rising (berthed { log := 16, next := some (0x10000, 17) }).cores) := by
  refine ⟨⟨by decide, by decide +kernel, ⟨rfl, rfl, rfl⟩⟩, rfl, by decide, rfl, rfl, List.pairwise_singleton _ _⟩
theorem test_witness_rank_completes : Claims.fld 0x80000009 10 16 = (ranks id).pkg ∧ (ranks id).corePart 9 = 63 ∧ ((ranks id).core 9).rank = none ∧ 3 < 2 ^ ((ranks id).part 63).ranklog ∧
    (ranks id).ms.own = [] ∧ (ranks id).ms.moves = [] ∧ mapped (ranks id) 0 0 12 true 12 := ⟨by decide, rfl, rfl, by decide +kernel, rfl, rfl, ⟨rfl, rfl, _, rfl, fun _ => rfl, rfl⟩⟩
theorem test_witness_ranges : let s := service id (fun d => { d with pgsel := 0x205 }) (fun p => { p with ranges := [(2, { lo := 4, hi := 9 })] })
    Claims.fld (s.die 0).pgsel 0 6 = 5 ∧ Claims.fld (s.die 0).pgsel 8 4 = 2 ∧ (tget (s.part 5).ranges {} 2).lo.toNat ≤ (tget (s.part 5).ranges {} 2).hi.toNat ∧
    (∀ q ∈ s.parts, q.1 = 5) ∧ (s.part 5).tgrant.length = 3 := by decide +kernel
/-! The dispatchers, the links, the host, the service cores. -/
theorem test_witness_parts : (let s := dispatched (fun l => { l with parts := [] }) id
      ∀ y ∈ s.launches, y.2.done = true ∨ y.2 = { launch1 with parts := [] }) ∧
    (∀ c ∈ (dispatched id id).cores, c.2.task = none) ∧ rising (dispatched id id).cores := by
  refine ⟨by decide +kernel, by decide +kernel, List.pairwise_singleton _ _⟩
theorem test_witness_dispatch : ((dispatched id id).core 0).isFree = true ∧ workFor (dispatched id id) 1 launch1 0 = some (.flight 0) ∧ launch1.tileFor 0 = some 0 ∧
    (launch1.partFor 0).isSome = true := by decide +kernel
/-- The one record of queue 0 is taken. -/
theorem test_witness_takes : ∃ t, takes 0 (wide (queued 1 id)) t ∧ (wide (queued 1 id)).healthy 0 = true ∧ mapped (wide (queued 1 id)) 0 0 0x800 false 0x800 ∧
    wordAt (wide (queued 1 id)).ms (.die 0) 0x800 = 0 + 1 := by
  let s := wide (queued 1 id)
  let vas := (List.range 256).map (fun i => ((0x1000 + 256 * (0 % 2 ^ 4)) % 2 ^ 32 + i) % 2 ^ 32)
  let w (i : Nat) : Word := wordOf ((List.range 4).map (fun j => s.ms.byteAt (.die 0) (vas.getD (4 * i + j) 0)))
  let x := launchOf w (.queue 0 0) 5 0 7 (rec' w 2 0 8) (recordStatus s 5 ((List.range 64).map w) (rec' w 2 0 8)) []
  let ls := tset s.launches s.nextLaunch x
  let s' : State := { queued 1 id with queues := tset (queued 1 id).queues 0 { queueAt (queued 1 id) 0 with head := 1 }, launches := ls, nextLaunch := s.nextLaunch + 1 }
  have hv : translateRun s 0 0 .load vas [] = (.inl vas, s) := wide_run (queued 1 id) .load rfl rfl vas [] (by decide +kernel)
  have hm : translateRun (wide s') 0 0 .store [0x804, 0x805, 0x806, 0x807] [] = (.inl [0x804, 0x805, 0x806, 0x807], wide s') :=
    wide_run s' .store rfl rfl _ [] (by decide)
  refine ⟨_, ⟨vas, [0x804, 0x805, 0x806, 0x807], s, wide s', ls, s.nextLaunch + 1, [], hv, fun p _ => rfl, fun h => ?_, fun _ => ⟨rfl, rfl⟩, hm, fun p _ => rfl, rfl, fun _ => rfl⟩,
    by decide +kernel, wide_mapped _ rfl rfl _ (by decide) _, by decide +kernel⟩
  obtain ⟨l, hl, -⟩ := h
  exact (List.not_mem_nil hl).elim
theorem test_witness_leader : let s := (mem0 id).updDie 0 (fun d => { d with failed := true })
    s.healthy 1 = true ∧ (∀ j, j < 1 → s.healthy j = false) ∧ s.healthy s.leader = false ∧ s.queues = [] ∧ s.leader ≠ 1 := by decide +kernel
theorem test_witness_fabric : (peerAt (fabric {} id) 1).heldPk = [] ∧ ((packet 1 3).seq + 2 ^ 32 - (peerAt (fabric {} id) 1).expect) % 2 ^ 32 = 1 ∧
    (peerAt (waiting 2) 1).lost = false ∧ (∃ u ∈ (peerAt (waiting 2) 1).unacked, u.1.seq = 6) := by
  refine ⟨by decide +kernel, by decide +kernel, by decide +kernel, ⟨_, List.mem_singleton.mpr rfl, rfl⟩⟩
theorem test_witness_host : (host id).skovazDead = false ∧ (host id).ms.owned 4 = false ∧ ((host id).core 0).goPend = [{ remote := false, line := 4 }] := by decide +kernel
theorem test_witness_firmware : recovering ((flashed (fun f => { f with booted := true })).updDie 0 (fun d => { d with bootstat := 0x102 })) := ⟨rfl, by decide +kernel⟩
theorem test_spare_and_clusters : nextOf (fun t => ((t.die 0).spareUsed, (t.cluster 3).icache)) (exec (.remapGo 0 0x80000003) State.reset) = some (true, []) ∧
    nextOf (fun t => (t.cluster 1).part) (exec (.clupartWrite 0 0x80000005) (State.reset.updDie 0 (fun d => { d with clusel := 1 }))) = some (some 5) ∧
    nextOf (fun t => (t.die 0).bboxFlash.length) (exec (.blackBoxFlush 0) { boxes sealed5 with ck := 0x40000007 }) = some 3 ∧
    tget (partitioned id).ms.asidPart 63 (Claims.fld 0xC0000012 0 16) = 63 := by decide +kernel
/-- The policy of partition 5 at address 0. -/
def policied : State := wide ({ (clustered (mem0 id)) with ms := { (mem0 id).ms with mem := [⟨0, 0x48⟩, ⟨1, 0x44⟩, ⟨2, 0x4C⟩, ⟨3, 0x50⟩, ⟨4, 1⟩, ⟨8, 5⟩, ⟨12, 1⟩, ⟨16, 1⟩, ⟨72, 3⟩, ⟨73, 1⟩] } } : State)
theorem test_witness_policy_reads : policied.corePart 0 = 5 ∧
    translateRun policied 0 0 .load ((List.range 64).map (fun i => (((policied.part 5).polAddr.toNat + 0) % 2 ^ 32 + i) % 2 ^ 32)) [] = (.inl (List.range 64), policied) ∧
    translateRun policied 0 0 .load ((List.range 1296).map (fun i => (((policied.part 5).polAddr.toNat + 64) % 2 ^ 32 + i) % 2 ^ 32)) [] =
      (.inl ((List.range 1296).map (· + 64)), policied) ∧
    min (wordOf ((dieBytes policied 0 (List.range 64)).drop 16 |>.take 4)).toNat 1024 = 1 ∧
    (∀ i, i < 20 → wordOf (((dieBytes policied 0 (List.range 64) ++ dieBytes policied 0 ((List.range 1296).map (· + 64))).drop (4 * i)).take 4) = policy1 i) ∧
    policied.ms.own = [] ∧ policied.ms.moves = [] ∧ (∀ j, (policied.core j).gal.queue = []) := by
  refine ⟨by decide +kernel, ?_, ?_, by decide +kernel, by decide +kernel, rfl, rfl, fun j => ?_⟩
  · have e : (List.range 64).map (fun i => (((policied.part 5).polAddr.toNat + 0) % 2 ^ 32 + i) % 2 ^ 32) = List.range 64 := by decide +kernel
    rw [e]; exact wide_run0 _ .load rfl rfl _ (by decide +kernel)
  · have e : (List.range 1296).map (fun i => (((policied.part 5).polAddr.toNat + 64) % 2 ^ 32 + i) % 2 ^ 32) = (List.range 1296).map (· + 64) := by decide +kernel
    rw [e]; exact wide_run0 _ .load rfl rfl _ (by decide +kernel)
  · by_cases h : j = 0
    · subst h; rfl
    · rw [others policied _ rfl j h]; rfl
theorem test_witness_samples : (mem0 id).clockStep < 7 ∧ ((mem0 id).die 0).lastPower = 0 ∧ ((mem0 id).die 0).lastSample = 0 := by decide +kernel
/-! ### Corners -/

def rebuked : State := mem0 (fun c => { c with acc := [{ op := .recvb 2, d := .x 3, st := .recorded 0x10 0x100 0 }], regs := c.regs.empty 3 })
/-- Source: R148, log 73: behind a RECVB with a page cause a load stands, but not in the handler that serves the cause. -/
theorem test_untaken_receive : nextOf (fun t => (t.core 0).standing) (exec (.ldw (.x 5) x1 0) rebuked) = some (some (.ldw (.x 5) x1 0)) ∧
    nextOf (fun t => (t.core 0).pc) (exec (.ldw (.x 5) x1 0) (rebuked.updCore 0 (fun c => { c with up := { c.up with inH := true } }))) = some 0x1004 := by decide +kernel
/-- Source: R142: the arrival that is one too many opens the next generation. -/
theorem test_step_next_generation : nextOf (fun t => ((t.core 0).arrived, (tfind t.launches 1).map (·.gen))) (exec (.sstep x1) (tasked { launch0 with genN := some 1, arrivals := 1 } id)) =
    some (some 1, some 0) := by decide +kernel
/-- Source: R198: a send of a fenced core's handler is discarded, and one to a fenced core takes CHANNEL. -/
theorem test_fenced_sends : nextOf (fun t => ((t.core 0).pc, (t.core 0).hand)) (exec (.send x1 2 false 2) (sender 0x02000003 (fun c => { c with fenced := true }))) = some (0x1004, none) ∧
    nextOf (fun t => (t.core 0).tr.cause) (exec (.send x1 2 false 2) ((sender 0x02000003 id).updCore 9 (fun c => { c with fenced := true }))) = some 0x0A := by decide +kernel
/-- Source: R208: a target with a task of its own is waited for; one whose basin is fenced is refused. -/
theorem test_migration_waits :
    nextOf (fun t => (t.core 0).standing) (exec (.migr x1) ((migr0 9 (fun c => { c with pubDone := true })).updCore 9 (fun c => { c with task := some task0 }))) =
      some (some (.migr x1)) := by decide +kernel
/-- Source: R209, R418: without the owner's permission a debugger does nothing. -/
theorem test_debug_not_admitted : let s : State := { mem0 id with clusters := [(0, { part := some 5 })] }
    s.debugAdmits 0 = false ∧ nextOf (fun t => (t.core 0).run) (exec (.dbgHaltreq 0) s) = some .running ∧
    nextOf (fun t => (t.core 0).run) (exec (.dbgHaltreq 0) (s.updPart 5 (fun p => { p with debug := true }))) = some (.debug 1) := by decide +kernel
/-- Source: R48, R49, log 85: a CSR word with a = x1 where the field is reserved, of an unassigned and of an assigned CSR. -/
theorem test_unassigned_csr_first :
    nextOf (fun t => (t.core 0).tr.cause) (exec (.illegalWord 0xBC810017) (user id)) = some 1 ∧
    nextOf (fun t => (t.core 0).tr.cause) (exec (.illegalWord 0xBC810008) (user id)) = some 2 := by decide +kernel
/-- Source: R189, R213: with STEP set and ARM clear a BREAK at UPVEC follows the upcall. -/
theorem test_stepped_upcall : let t := deliver ((upcalls true false).updCore 0 (fun c => { c with dbg := { c.dbg with step := true } })) 0 0x10 0 0x100 0x1000
    (t.core 0).up.pc = 0x1000 ∧ (t.core 0).tr.cause = 9 ∧ (t.core 0).tr.detail = 3 ∧ (t.core 0).tr.pc = 0x4000 := by decide +kernel
/-- Source: R25: partition numbers from 48 on. -/
theorem test_partition_numbers : nextOf (fun t => (t.core 1024).tr.cause) (exec (.gownWrite 0 1 0x80300000) (service id id id)) = some 2 ∧
    nextOf (fun t => (t.core 1024).tr.cause) (exec (.fgownWrite 0 0x80300000) (service id id id)) = some 2 ∧
    nextOf (fun t => (t.core 1024).tr.cause) (exec (.clupartWrite 0 0x80000030) (service id id id)) = some 2 ∧
    nextOf (fun t => (t.core 1024).tr.cause) (exec (.partctlWrite 0 0x80000000) (service id (fun d => { d with partsel := 48 }) id)) = some 2 := by decide +kernel
/-- Source: R297: an MCHK whose register an earlier one still owes issues. -/
theorem test_owed_checks : nextOf (fun t => ((t.core 0).standing, (t.core 0).hand.isSome)) (exec (.mchk (.x 5) x1)
    (grants (fun c => { c with acc := [{ op := .engine .MX, d := .x 5 }], regs := (c.regs.empty 5).put 1 16 false }))) = some (some (.mchk (.x 5) x1), true) := by decide +kernel
/-- Source: R97, log 82: the head mirror does not translate: the queue is enabled. -/
theorem test_unreadable_mirror : nextOf (fun t => ((queueAt t 0).en, t.fresh)) (exec (.wqctlWrite 0 0x00000084)
    ((queued 1 (fun w => { w with en := false, heada := 0x20000000 })).updMs (fun m => { m with asidPart := [(0, 5)] }))) = some (true, 1) := by decide +kernel
/-- Source: R280: an element of accumulator 0 of core 0, poisoned with CHK = 0; outside the arrays nothing happens. -/
theorem test_array_parity : nextOf (fun t => t.fresh) (exec (.uncorrectableErrorDetected (2 ^ 42 + 4 * 65536) 0 false) (mem0 id)) = some 1 ∧
    nextOf (fun t => t.fresh) (exec (.uncorrectableErrorDetected (2 ^ 42 + 6 * 65536) 0 false) (mem0 id)) = some 0 := by decide +kernel
/-- Source: R201, R202: a task that ended before its save. -/
theorem test_save_without_task : nextOf (fun t => ((t.core 0).sup.preStatus, (t.core 0).sup.preReason)) (exec (.saveComplete 2) (asked (fun c => { c with task := none }))) =
    some (3, 7) := by decide +kernel
end Sys2Proof.Tests
end

section
/-!
PROOFS. What every party sees is contents of memory, and what a published byte changes (R30, R31).
-/
namespace Sys2Proof.Proofs
open Sys2Proof Sys2Proof.Machine Sys2Proof.Claims

/-- A step that answers a next state answers a settled one: the outcome of its turn, folded into contents. -/
theorem step_next_eq_settle {s t : State} (h : step s = .next t) : ∃ r : State, t = r.settle := by
  simp only [step] at h
  split at h
  next r _ => cases h; exact ⟨r, rfl⟩
  next => cases h
  next => cases h

/-- Settles O5: the last act of every step is `State.settle`, whose result has the canonical form from any state. -/
theorem stepKeepsMemoryCanonical : Obligations.StepKeepsMemoryCanonical := by
  intro s t h
  obtain ⟨r, rfl⟩ := step_next_eq_settle h
  exact settle_settled r

theorem settle_byteAt (s : State) (r : Party) (a : Nat) (h : Memory.wf s.ms.mem = true) :
    s.settle.ms.byteAt r a = s.ms.byteAt r a := by
  simp only [MemSys.byteAt, State.settle, memCanon_of_wf (settleHist_wf s.ms.hist h)]
  exact settleHist_read r a s.ms.hist h

/-- One event at the head of the history: read by those whom its scope covers, and by nobody at another address. -/
theorem append_single_byteAt (m : MemSys) (a : Nat) (b : Byte) (sc : Scope) (o r : Party) (l : Option Nat) (x : Nat) :
    (m.append [(a, b)] sc o l).byteAt r x = if x = a ∧ covers sc o r = true then b else m.byteAt r x := by
  simp only [MemSys.byteAt, MemSys.append, List.foldl_cons, List.foldl_nil, List.find?_cons, visible]
  by_cases h : x = a ∧ covers sc o r = true
  · obtain ⟨rfl, hc⟩ := h
    simp [hc]
  · have hmiss : (a == x && covers sc o r) = false := by
      rw [Bool.and_eq_false_iff, beq_eq_false_iff_ne, ← Bool.not_eq_true]
      exact Classical.not_and_iff_not_or_not.mp (fun hx => h ⟨hx.1.symm, hx.2⟩)
    rw [if_neg h, hmiss]

/-- Settles O6: folding keeps every read, and a new event is found by the readers of its byte that it covers, by no other read. -/
theorem publishedByteReads : Obligations.PublishedByteReads :=
  ⟨settle_byteAt, append_single_byteAt⟩

end Sys2Proof.Proofs
end

section
/-!
PROOFS. Completion with a change of the PC that reads the completing core, and control transfers (R36, R103, R128 to R136).
-/
namespace Sys2Proof.Proofs
open Sys2Proof Sys2Proof.Machine Sys2Proof.Claims

/-! ## Completion -/

theorem completeQ_eq (pops : List (Fin 7)) (s : State) (p : Bool) (pcf : Core → Core) :
    completeQ pops s p pcf = (freeSlots (s.consumed p) ((s.consumed p).leaving pops)).updCore s.cur
      (fun c => pcf (c.finished pops s.ck)) := by
  have hck : (freeSlots (s.consumed p) ((s.consumed p).leaving pops)).ck = s.ck := by
    rw [freeSlots_only]; exact consumed_ck s p
  simp only [completeQ, State.leaving, consumed_cur] at hck ⊢
  rw [show (if p then pendImp s s.cur 0x71 (s.core s.cur).pc 0 else s) = s.consumed p from rfl, hck]
  rfl

/-- The core that an instruction's completion hands to its change of the PC. -/
def completing (u : Uses) (s : State) (p : Bool) : Core := ((s.consumed p).core s.cur).finished u.pops s.ck

/-- Only what the change of the PC makes of the completing core counts. -/
theorem retire_congr {u : Uses} {s : State} {p : Bool} {f g : Core → Core} (h : f (completing u s p) = g (completing u s p)) :
    retire u s p f = retire u s p g := by
  simp only [retire, retireQ, completeQ_eq, State.updCore, freeSlots_core]
  rw [show f (((s.consumed p).core s.cur).finished u.pops s.ck) = g (((s.consumed p).core s.cur).finished u.pops s.ck) from h]

theorem completing_pc (u : Uses) (s : State) (p : Bool) : (completing u s p).pc = (s.core s.cur).pc := by
  obtain ⟨d, sn, hf, -⟩ := finished_eq ((s.consumed p).core s.cur) u.pops s.ck
  rw [completing, hf, consumed_core]
  rfl

/-- Nothing popped and no poison: completion changes only what `completed` names. -/
theorem completing_plain {u : Uses} {s : State} (h : u.pops = []) : completing u s false = completed s.ck (s.core s.cur) := by
  rw [completing, h]
  rfl

/-- A ready instruction that retires at `s'` with the change `f` of the PC, which on the completing core is `pcf`, completes with `pcf`. -/
theorem completes_of_retire {i : Instr} {u : Uses} {s s' : State} {p : Bool} {f pcf : Core → Core}
    (he : exec i s = .next (retire u s' p f)) (h : s.ready u = true) (hf : f (completing u s' p) = pcf (completing u s' p))
    (hp : PcOnly pcf) (hc : s'.cur = s.cur) (hs : (s'.core s.cur).unstepped = (s.core s.cur).unstepped) :
    Completes i u p pcf s s' := by
  refine ⟨_, he.trans (by rw [retire_congr hf]), retire_retires hp ?_⟩
  rw [hc, hs]
  exact ready_unstepped h

/-- Completion of an instruction that pops nothing and consumes no poison. -/
theorem retire_plain {u : Uses} {s : State} {pcf : Core → Core} (hu : u.pops = []) (hp : PcOnly pcf)
    (h : (s.core s.cur).unstepped = true) : retire u s false pcf = s.updCore s.cur (fun c => pcf (completed s.ck c)) := by
  rw [retire_eq hp h, leaving_none (by rw [hu]; rfl), freeSlots_nil, hu]
  rfl

/-! ## Words, targets and conditions (R36, R42, R128) -/

theorem wrap_eq_ofInt (i : Int) : wrap i = BitVec.ofInt 32 i := by
  apply BitVec.eq_of_toNat_eq
  simp only [wrap, BitVec.toNat_ofNat, BitVec.toNat_ofInt]
  omega

theorem wrap_toNat_add (w : Word) (n : Nat) : wrap (w.toNat + n) = w + BitVec.ofNat 32 n := by
  rw [wrap_eq_ofInt, ← Int.natCast_add, BitVec.ofInt_natCast, BitVec.ofNat_add, BitVec.ofNat_toNat, BitVec.setWidth_eq]

theorem signExt_eq_toInt {n : Nat} (v : BitVec (n + 1)) : signExt v = v.toInt := by
  have hlt : v.toNat < 2 ^ n ↔ 2 * v.toNat < 2 ^ (n + 1) := by
    rw [Nat.pow_succ]
    omega
  have hcast : ((2 ^ (n + 1) : Nat) : Int) = 2 ^ (n + 1) := Int.natCast_pow 2 (n + 1)
  rw [signExt, BitVec.toInt_eq_toNat_cond, Nat.add_sub_cancel, hcast]
  exact ite_congr (propext hlt) (fun _ => rfl) (fun _ => rfl)

theorem signed_eq_toInt (w : Word) : signed w = w.toInt := by
  rw [signed, BitVec.toInt_eq_toNat_cond]
  split <;> split <;> omega

theorem wrap_add_signExt {n : Nat} (w : Word) (v : BitVec (n + 1)) : wrap (w.toNat + signExt v) = w + sext v := by
  rw [wrap_eq_ofInt, BitVec.ofInt_add, BitVec.ofInt_natCast, BitVec.ofNat_toNat, BitVec.setWidth_eq, signExt_eq_toInt]
  rfl

theorem wordTarget_eq_target {n : Nat} (pc : Word) (off : BitVec (n + 1)) : wordTarget pc off = target pc off := by
  have h4 : sext off <<< 2 = BitVec.ofInt 32 (4 * off.toInt) := by
    rw [BitVec.ofInt_mul, BitVec.shiftLeft_eq_mul_twoPow, BitVec.mul_comm]
    rfl
  rw [target, wordTarget, wrap_eq_ofInt, BitVec.ofInt_add, BitVec.ofInt_natCast, BitVec.ofNat_toNat, BitVec.setWidth_eq,
    signExt_eq_toInt, h4]

theorem ltS_eq (x y : Word) : ltS x y = decide (signed x < signed y) := by
  rw [signed_eq_toInt, signed_eq_toInt]; rfl

theorem ltU_eq (x y : Word) : ltU x y = decide (x.toNat < y.toNat) := rfl

/-! ## Branches and jumps -/

theorem branch_of_ready {i : Instr} {a b : Src} {off : BitVec 14} {s : State} {taken : Word → Word → Bool}
    (h : s.ready { a, b } = true) : branch i a b off s taken = .next (retire { a, b } s (s.vals { a, b }).poison (fun c =>
      if taken (s.vals { a, b }).a (s.vals { a, b }).b then c.jump s.ck (wordTarget c.pc off) else c.advance)) := by
  rw [branch, gate_of_ready h]

theorem branch_completes {i : Instr} {a b : Src} {off : BitVec 14} {s : State} {taken : Word → Word → Bool}
    (cond : Word → Word → Bool) (hi : exec i s = branch i a b off s taken) (hcond : ∀ x y, taken x y = cond x y)
    (h : s.ready { a, b } = true) : Completes i { a, b } (s.vals { a, b }).poison
      (fun c => if cond (s.vals { a, b }).a (s.vals { a, b }).b then c.jump s.ck (target (s.core s.cur).pc off) else c.advance) s s := by
  refine completes_of_retire (hi.trans (branch_of_ready h)) h ?_ ?_ rfl rfl
  · simp only [hcond, completing_pc, wordTarget_eq_target]
  · cases cond (s.vals { a, b }).a (s.vals { a, b }).b
    · exact pcOnly_advance
    · exact pcOnly_jump _ _

theorem branches_complete : Claims.Branches := by
  intro i s a b off cond hop u v h
  cases i <;> simp only [branchOp, Option.some.injEq, Prod.mk.injEq, reduceCtorEq] at hop
  all_goals obtain ⟨rfl, rfl, rfl, rfl⟩ := hop
  case beq a b off =>
    refine branch_completes (i := .beq a b off) (taken := (· == ·)) (fun x y => x.toNat = y.toNat) rfl (fun x y => ?_) h
    rw [Bool.eq_iff_iff, beq_iff_eq, decide_eq_true_eq, BitVec.toNat_inj]
  case bne a b off =>
    refine branch_completes (i := .bne a b off) (taken := (· != ·)) (fun x y => x.toNat ≠ y.toNat) rfl (fun x y => ?_) h
    rw [Bool.eq_iff_iff, bne_iff_ne, decide_eq_true_eq, ne_eq, ne_eq, BitVec.toNat_inj]
  case blt a b off => exact branch_completes (i := .blt a b off) (taken := ltS) (fun x y => signed x < signed y) rfl ltS_eq h
  case bge a b off =>
    refine branch_completes (i := .bge a b off) (taken := fun x y => !ltS x y) (fun x y => signed y ≤ signed x) rfl (fun x y => ?_) h
    simp [ltS_eq, ← decide_not]
  case bltn a b off => exact branch_completes (i := .bltn a b off) (taken := ltU) (fun x y => x.toNat < y.toNat) rfl ltU_eq h
  case bgen a b off =>
    refine branch_completes (i := .bgen a b off) (taken := fun x y => !ltU x y) (fun x y => y.toNat ≤ x.toNat) rfl (fun x y => ?_) h
    simp [ltU_eq, ← decide_not]

/-- The link that JAL and JALR write (R129, R130). -/
theorem writeLink_eq (s : State) (d : Dst) (p : Bool) : (s.updCore s.cur (fun c => c.writeDst s.ck d (wrap (c.pc.toNat + 4)) p)) =
    s.updCore s.cur (fun c => c.writeDst s.ck d (c.pc + 4) p) := by
  simp only [show ∀ w : Word, wrap (w.toNat + 4) = w + 4 from fun w => wrap_toNat_add w 4]

theorem completing_writeDst_pc (u : Uses) (s : State) (d : Dst) (f : Core → Word) (p q : Bool) :
    (completing u (s.updCore s.cur (fun c => c.writeDst s.ck d (f c) p)) q).pc = (s.core s.cur).pc := by
  rw [completing_pc, State.updCore_cur, core_updCore_same, Core.writeDst_only]

theorem core_updCore_writeDst_unstepped (s : State) (d : Dst) (f : Core → Word) (p : Bool) :
    ((s.updCore s.cur (fun c => c.writeDst s.ck d (f c) p)).core s.cur).unstepped = (s.core s.cur).unstepped := by
  rw [core_updCore_same, unstepped_writeDst]

theorem execJal_of_ready {s : State} {d : Dst} {imm : BitVec 21} (h : s.ready { dst := some d } = true) :
    execJal d imm s = .next (retire { dst := some d } (s.updCore s.cur (fun c => c.writeDst s.ck d (c.pc + 4) false)) false
      (fun c => c.jump s.ck (wordTarget c.pc imm))) := by
  rw [execJal, gate_of_ready h]

theorem execJalr_of_ready {s : State} {d : Dst} {a : Src} {off : BitVec 15} (h : s.ready { a, dst := some d } = true) :
    execJalr d a off s = .next (if ((s.vals { a, dst := some d }).a + sext off).toNat % 4 ≠ 0
      then raise (.jalr d a off) s 0x04 ((s.vals { a, dst := some d }).a + sext off)
      else retire { a, dst := some d } (s.updCore s.cur (fun c => c.writeDst s.ck d (c.pc + 4) (s.vals { a, dst := some d }).poison))
        (s.vals { a, dst := some d }).poison (fun c => c.jump s.ck ((s.vals { a, dst := some d }).a + sext off))) := by
  rw [execJalr, gate_of_ready h]
  exact (apply_ite Host.Outcome.next _ _ _).symm

theorem jal_completes (s : State) (d : Dst) (imm : BitVec 21) (h : s.ready { dst := some d } = true) :
    Completes (.jal d imm) { dst := some d } false (fun c => c.jump s.ck (target (s.core s.cur).pc imm)) s
      (s.updCore s.cur (fun c => c.writeDst s.ck d (wrap (c.pc.toNat + 4)) false)) := by
  rw [writeLink_eq]
  refine completes_of_retire (i := .jal d imm) (execJal_of_ready h) h ?_ (pcOnly_jump _ _) rfl
    (core_updCore_writeDst_unstepped s d _ false)
  rw [completing_writeDst_pc, wordTarget_eq_target]

theorem jalr_completes (s : State) (d : Dst) (a : Src) (off : BitVec 15) (h : s.ready { a, dst := some d } = true)
    (ht : (wrap ((s.vals { a, dst := some d }).a.toNat + signExt off)).toNat % 4 = 0) :
    Completes (.jalr d a off) { a, dst := some d } (s.vals { a, dst := some d }).poison
      (fun c => c.jump s.ck (wrap ((s.vals { a, dst := some d }).a.toNat + signExt off))) s
      (s.updCore s.cur (fun c => c.writeDst s.ck d (wrap (c.pc.toNat + 4)) (s.vals { a, dst := some d }).poison)) := by
  rw [writeLink_eq]
  rw [wrap_add_signExt] at ht ⊢
  have he := execJalr_of_ready (off := off) h
  rw [if_neg (not_not_intro ht)] at he
  exact completes_of_retire (i := .jalr d a off) he h rfl (pcOnly_jump _ _) rfl (core_updCore_writeDst_unstepped s d _ _)

/-- A cause that is no page cause is a trap. -/
theorem deliver_eq_takeTrap {s : State} {k cause : Nat} {detail addr pc : Word} {eng : Option Engine} (h : isPage cause = false) :
    deliver s k cause detail addr pc eng = takeTrap s k cause detail addr pc eng := by
  have hp : ¬ (cause = 0x10 ∨ cause = 0x11) := by simpa [isPage] using h
  exact if_neg (fun hc => hp hc.1)

theorem jalr_misaligned (s : State) (d : Dst) (a : Src) (off : BitVec 15) (h : s.ready { a, dst := some d } = true)
    (ht : (wrap ((s.vals { a, dst := some d }).a.toNat + signExt off)).toNat % 4 ≠ 0) :
    exec (.jalr d a off) s = .next (takeTrap s s.cur 0x04 (encode (.jalr d a off))
      (wrap ((s.vals { a, dst := some d }).a.toNat + signExt off)) (s.core s.cur).pc) := by
  rw [wrap_add_signExt] at ht ⊢
  have he := execJalr_of_ready (off := off) h
  rw [if_pos ht, raise, deliver_eq_takeTrap rfl] at he
  exact he

theorem jumps_complete : Claims.Jumps :=
  ⟨jal_completes, fun s d a off h => ⟨jalr_completes s d a off h, jalr_misaligned s d a off h⟩⟩

/-! ## Branches on an engine's flag (R23, R135) -/

theorem or_decide_iff {p q q' : Prop} [Decidable p] [Decidable q] (h : q = q') : (decide p || decide q) = true ↔ p ∨ q' := by
  rw [Bool.or_eq_true, decide_eq_true_eq, decide_eq_true_eq, h]

/-- The commands of a queue that will push and were not recalled. -/
theorem countP_live (f : Instr → Bool) (l : List Cmd) :
    l.countP (fun q => f q.instr && !q.dead) = (l.filter (fun q => !q.dead && f q.instr)).length := by
  simp only [List.countP_eq_length_filter, Bool.and_comm]

theorem flag_iff (c : Core) (e : Engine) (f : Flag) : c.flag e f = true ↔ engineFlag c e f := by
  cases f
  case busy => cases e <;> simp [Core.flag, Core.busy, engineFlag, Counters.get, engineCounter]
  case fault => cases e <;> rfl
  case full =>
    match e with
    | .VX => exact decide_eq_true_iff
    | .MX => exact or_decide_iff (congrArg (16 ≤ c.regs.q[0].length + ·) (countP_live pushesToken _))
    | .CP => exact or_decide_iff rfl
    | .GL => exact or_decide_iff (congrArg (16 ≤ c.regs.q[2].length + c.gal.slots.length + ·) List.countP_eq_length_filter)
    | .PS => exact or_decide_iff (congrArg (16 ≤ c.regs.q[4].length + ·) (countP_live pushesQ4 _))

theorem flag_completed (ck : Nat) (c : Core) (e : Engine) (f : Flag) : (completed ck c).flag e f = c.flag e f := by
  cases f <;> cases e <;> rfl

theorem engineBranch_of_ready {i : Instr} {e : Engine} {f : Flag} {off : BitVec 14} {onSet : Bool} {s : State}
    (h : s.ready { engs := [e] } = true) : engineBranch i e f off onSet s = .next (retire { engs := [e] } s false (fun c =>
      if c.flag e f == onSet then c.jump s.ck (wordTarget c.pc off) else c.advance)) := by
  rw [engineBranch, gate_of_ready h]

/-- Both branches on a flag, sampled as it stands at issue: `onSet` is the flag's value at which the branch is taken. -/
theorem engineBranch_completes {i : Instr} {e : Engine} {f : Flag} {off : BitVec 14} {onSet : Bool} {s : State}
    (hi : exec i s = engineBranch i e f off onSet s) (h : s.ready { engs := [e] } = true) : Completes i { engs := [e] } false
      (if (s.core s.cur).flag e f = onSet then fun c => c.jump s.ck (target (s.core s.cur).pc off) else Core.advance) s s := by
  refine completes_of_retire (hi.trans (engineBranch_of_ready h)) h ?_ ?_ rfl rfl
  · have hpc : (completed s.ck (s.core s.cur)).pc = (s.core s.cur).pc := rfl
    simp only [completing_plain (u := { engs := [e] }) rfl, flag_completed, beq_iff_eq, hpc, wordTarget_eq_target]
    split <;> rfl
  · split
    · exact pcOnly_jump _ _
    · exact pcOnly_advance

theorem engineBranches_complete : Claims.EngineBranches := by
  intro s e f off u t h
  have hset := engineBranch_completes (i := .bes e f off) (onSet := true) rfl h
  have hclear := engineBranch_completes (i := .bec e f off) (onSet := false) rfl h
  rw [← flag_iff]
  constructor
  · intro hf
    rw [if_pos hf] at hset
    rw [if_neg (by rw [hf]; decide)] at hclear
    exact ⟨hset, hclear⟩
  · intro hf
    rw [if_neg hf] at hset
    rw [if_pos (Bool.eq_false_iff.mpr hf)] at hclear
    exact ⟨hset, hclear⟩

/-! ## ALIGN (R103, R136) -/

/-- A stall on an empty register that ends is counted (R318). -/
theorem stallOn_false (c : Core) (ck : Nat) : c.stallOn ck false = { c with
    emptySince := none, dbg := { c.dbg with stalled := c.dbg.stalled + (c.emptySince.map (ck - ·)).getD 0 } } := by
  cases h : c.emptySince <;> simp [Core.stallOn, h]
  rw [← h]

/-- The core that stands in `i` after it has issued again. -/
def standingIn (i : Instr) (ck : Nat) (c : Core) : Core :=
  (if c.standing = some i then c else { c with standing := some i, waitSince := ck, woken := false, freed := false }).stallOn ck false

theorem stand_eq (i : Instr) (s : State) : stand i s = s.updCore s.cur (standingIn i s.ck) := rfl

theorem standingIn_eq (i : Instr) (ck : Nat) (c : Core) : standingIn i ck c = { c with
    standing := some i, waitSince := (standingIn i ck c).waitSince, woken := (standingIn i ck c).woken,
    freed := (standingIn i ck c).freed, emptySince := none,
    dbg := { c.dbg with stalled := c.dbg.stalled + (c.emptySince.map (ck - ·)).getD 0 } } := by
  rw [standingIn, stallOn_false]
  split
  next h => rw [← h]
  next => rfl

/-- An instruction that waits does nothing else (R138). -/
theorem stand_stands (i : Instr) (s : State) : Stands i s (stand i s) where
  elsewhere := rfl
  others j hj := core_updCore_ne s _ hj
  core := by
    rw [stand_eq, core_updCore_same]
    exact standingIn_eq i s.ck (s.core s.cur)

theorem ne_of_mem_flightMates {s : State} {j k : Nat} (h : j ∈ s.flightMates k) : j ≠ k := by
  unfold State.flightMates at h
  split at h
  next => cases h
  next =>
    obtain ⟨i, -, hi⟩ := List.mem_filterMap.mp h
    dsimp only at hi
    split at hi
    next => cases hi
    next hn =>
      rw [Bool.not_eq_true, Bool.or_eq_false_iff, beq_eq_false_iff_ne] at hn
      split at hi
      next =>
        split at hi
        · cases hi; exact hn.2
        · cases hi
      next => cases hi

/-- Mates are known by the cores' tasks. -/
theorem flightMates_congr {s t : State} (h : ∀ j, (t.core j).task = (s.core j).task) (k : Nat) :
    t.flightMates k = s.flightMates k := by
  simp only [State.flightMates, h]

theorem alignFree_iff (s : State) (k : Nat) : alignFree s k = true ↔
    ∀ j ∈ s.flightMates k, (s.core j).standing = some .align ∧ (s.core j).pc = (s.core k).pc := by
  simp [alignFree, State.stalled]

theorem standingIn_core (s : State) : (stand .align s).core s.cur = standingIn .align s.ck (s.core s.cur) := by
  rw [stand_eq, core_updCore_same]

theorem stand_flightMates (i : Instr) (s : State) (k : Nat) : (stand i s).flightMates k = s.flightMates k := by
  refine flightMates_congr (fun j => ?_) k
  by_cases hj : j = s.cur
  · rw [hj, (stand_stands i s).core]
  · rw [(stand_stands i s).others j hj]

/-- Standing in it, an ALIGN finds its mates as before. -/
theorem stand_alignFree (s : State) : alignFree (stand .align s) s.cur = alignFree s s.cur := by
  rw [Bool.eq_iff_iff, alignFree_iff, alignFree_iff, stand_flightMates]
  refine forall₂_congr (fun j hj => ?_)
  rw [(stand_stands .align s).others j (ne_of_mem_flightMates hj), (stand_stands .align s).core]

theorem execAlign_of_ready {s : State} (h : s.ready {} = true) :
    execAlign s = .next (if alignDone (stand .align s) s.cur then endAlign (stand .align s) else stand .align s) := by
  rw [execAlign, gate_of_ready h]
  exact (apply_ite Host.Outcome.next _ _ _).symm

theorem foldl_updCore_cur (js : List Nat) (f : Core → Core) (s : State) : (js.foldl (fun s j => s.updCore j f) s).cur = s.cur := by
  induction js generalizing s with
  | nil => rfl
  | cons j r ih => exact ih _

theorem foldl_updCore_core_of_notMem {js : List Nat} {k : Nat} (f : Core → Core) (s : State) (h : k ∉ js) :
    (js.foldl (fun s j => s.updCore j f) s).core k = s.core k := by
  induction js generalizing s with
  | nil => rfl
  | cons j r ih =>
    rw [List.mem_cons, not_or] at h
    rw [List.foldl_cons, ih _ h.2, core_updCore_ne s f h.1]

/-- All mates stalled together, the ALIGN frees them and completes. -/
theorem align_completes {s : State} (h : s.ready {} = true) (hfree : alignFree s s.cur = true) :
    Completes .align {} false Core.advance s
      ((s.flightMates s.cur).foldl (fun s j => s.updCore j (fun c => { c with freed := true })) (stand .align s)) := by
  have hf : alignFree (stand .align s) s.cur = true := (stand_alignFree s).trans hfree
  have hend : endAlign (stand .align s) = retire {} ((s.flightMates s.cur).foldl
      (fun s j => s.updCore j (fun c => { c with freed := true })) (stand .align s)) false Core.advance := by
    rw [endAlign, show (stand .align s).cur = s.cur from rfl, if_pos hf, stand_flightMates]
    rfl
  have he := execAlign_of_ready h
  rw [if_pos (by simp [alignDone, hf]), hend] at he
  refine completes_of_retire (i := .align) he h rfl pcOnly_advance (foldl_updCore_cur _ _ _) ?_
  rw [foldl_updCore_core_of_notMem _ _ (fun hm => ne_of_mem_flightMates hm rfl), (stand_stands .align s).core]
  rfl

/-- A mate away, an ALIGN that has just issued stands. -/
theorem align_stands {s : State} (h : s.ready {} = true) (hst : (s.core s.cur).standing = none) (hlim : 0 < (s.core s.cur).alignlim)
    (hfree : ¬ alignFree s s.cur = true) :
    ∃ t, exec .align s = .next t ∧ Stands .align s t ∧ (t.core s.cur).waitSince = s.ck := by
  have hw : ((stand .align s).core s.cur).waitSince = s.ck ∧ ((stand .align s).core s.cur).freed = false ∧
      ((stand .align s).core s.cur).alignlim = (s.core s.cur).alignlim := by
    rw [stand_eq, core_updCore_same, standingIn, hst, stallOn_false]
    exact ⟨rfl, rfl, rfl⟩
  have hdone : ¬ alignDone (stand .align s) s.cur = true := by
    have hck : (stand .align s).ck = s.ck := rfl
    simp only [alignDone, stand_alignFree, hfree, hw, hck, Bool.or_eq_true, decide_eq_true_eq, Bool.false_eq_true, false_or]
    omega
  have he := execAlign_of_ready h
  rw [if_neg hdone] at he
  exact ⟨_, he, stand_stands .align s, hw.1⟩

theorem endAlign_alone {s : State} (h : ¬ alignFree s s.cur = true) : endAlign s = retire {} s false Core.advance := by
  rw [endAlign, if_neg h]
  rfl

/-- Freed, or past ALIGNLIM, a standing ALIGN goes on alone. -/
theorem alignRelease_completes {s : State} {k : Nat} (hst : (s.core k).standing = some .align) (hun : (s.core k).unstepped = true)
    (hfree : ¬ alignFree s k = true) (hdone : (s.core k).freed = true ∨ (s.core k).waitSince + (s.core k).alignlim ≤ s.ck) :
    exec (.alignRelease k) s = .next (s.updCore k (fun c => (completed s.ck c).advance)) := by
  have hd : alignDone s k = true := by
    rcases hdone with hd | hd <;> simp [alignDone, hd]
  have hend : endAlign { s with cur := k } = ({ s with cur := k } : State).updCore k (fun c => (completed s.ck c).advance) :=
    (endAlign_alone (s := { s with cur := k }) hfree).trans (retire_plain rfl pcOnly_advance hun)
  show execAlignRelease k s = _
  rw [execAlignRelease, if_pos ⟨hst, hd⟩, atCore, hend]
  rfl

theorem aligns_complete : Claims.Aligns := by
  refine ⟨fun s h hm => align_completes h ((alignFree_iff s s.cur).mpr hm), fun s h hst hlim hm => align_stands h hst hlim ?_,
    fun s k hst hun hm hd => alignRelease_completes hst hun ?_ hd⟩
  all_goals
    rw [alignFree_iff]
    obtain ⟨j, hj, hn⟩ := hm
    exact fun hall => hn (hall j hj)

/-- Settles O14: each transfer is the completion of its instruction with one change of the PC; ALIGN by its mates. -/
theorem branches : Obligations.Branches :=
  ⟨branches_complete, jumps_complete, engineBranches_complete, aligns_complete⟩

end Sys2Proof.Proofs
end

section
/-!
PROOFS. Entry of a trap, the fence of a basin, and what is delivered by itself (R22, R178, R187, R195, R198, R208).
-/
namespace Sys2Proof.Proofs
open Sys2Proof Sys2Proof.Machine Sys2Proof.Claims

/-! ## Telemetry leaves cores and memory alone -/

@[simp] theorem telemetry_core (s : State) (die kind part code producer : Nat) (payload : List Word) (k : Nat) :
    (telemetry s die kind part code producer payload).core k = s.core k := by
  unfold telemetry
  split <;> rfl

@[simp] theorem telemetry_ms (s : State) (die kind part code producer : Nat) (payload : List Word) :
    (telemetry s die kind part code producer payload).ms = s.ms := by
  unfold telemetry
  split <;> rfl

@[simp] theorem blackBox_core (s : State) (die part code : Nat) (unit detail : Word) (k : Nat) :
    (blackBox s die part code unit detail).core k = s.core k := by
  rw [blackBox, core_updDie, telemetry_core]

@[simp] theorem blackBox_ms (s : State) (die part code : Nat) (unit detail : Word) : (blackBox s die part code unit detail).ms = s.ms := by
  rw [blackBox, State.updDie_ms, telemetry_ms]

/-! ## Entry of a trap (R187) -/

/-- What a trap writes into its core, but for debug and run state. -/
def trapped (c : Core) (cause : Nat) (detail addr pc : Word) : Core :=
  { abandoned c with
    tr := { c.tr with pc := pc, cause := cause, addr := addr, detail := detail, re := false, fromSup := decide (c.priv ≠ .task) }
    priv := if c.priv = .service then .service else .supervisor
    pc := c.tr.vec
    emptySince := none }

theorem enterTrap_core_ne (s : State) {j k : Nat} (cause : Nat) (detail addr pc : Word) (eng : Option Engine) (h : j ≠ k) :
    (enterTrap s k cause detail addr pc eng).core j = s.core j := by
  rw [enterTrap, telemetry_core, core_setCore_ne s _ h]

@[simp] theorem enterTrap_ms (s : State) (k cause : Nat) (detail addr pc : Word) (eng : Option Engine) :
    (enterTrap s k cause detail addr pc eng).ms = s.ms := by
  rw [enterTrap, telemetry_ms]
  rfl

/-- A trace record, made or not, enters the debug state alone, and no step bit of it. -/
theorem traceIf_only (q : Prop) [Decidable q] (c : Core) (ck code : Nat) (x y : Word) :
    ∃ d, (if q then c.trace ck code x y else c) = { c with dbg := d } ∧ d.stepping = c.dbg.stepping := by
  split
  · exact ⟨_, Core.trace_only c ck code x y, (Core.trace_steps c ck code x y).2.1⟩
  · exact ⟨_, rfl, rfl⟩

/-- The core that enters a trap before its records are made. -/
def entering (ck : Nat) (c : Core) (cause : Nat) (detail addr pc : Word) : Core :=
  { trapped c cause detail addr pc with dbg := { c.dbg with
      traps := c.dbg.traps + 1, stalled := c.dbg.stalled + (c.emptySince.map (ck - ·)).getD 0 } }

theorem priv_bne_task (p : Priv) : (p != .task) = decide (p ≠ .task) := by cases p <;> rfl

theorem enterTrap_core_eq (s : State) (k cause : Nat) (detail addr pc : Word) (eng : Option Engine) :
    (enterTrap s k cause detail addr pc eng).core k =
      let c := entering s.ck (s.core k) cause detail addr pc
      let c1 := if c.dbg.tracectl / 4 % 2 = 1 then c.trace s.ck 0x1003 (BitVec.ofNat 32 cause) pc else c
      if c1.dbg.stepping then c1.haltDebug s.ck 5 else c1 := by
  rw [enterTrap]
  simp only [telemetry_core, core_setCore_same, stallOn_false, priv_bne_task, beq_iff_eq]
  rfl

/-- The core that enters a trap: `trapped`, with its debug records; where it is stepped it halts besides. -/
theorem enterTrap_core (s : State) (k cause : Nat) (detail addr pc : Word) (eng : Option Engine) : ∃ r d,
    (enterTrap s k cause detail addr pc eng).core k = { trapped (s.core k) cause detail addr pc with run := r, dbg := d } ∧
    ((s.core k).dbg.stepping = false → r = (s.core k).run) := by
  rw [enterTrap_core_eq]
  obtain ⟨d, hd, hstep⟩ := traceIf_only ((entering s.ck (s.core k) cause detail addr pc).dbg.tracectl / 4 % 2 = 1)
    (entering s.ck (s.core k) cause detail addr pc) s.ck 0x1003 (BitVec.ofNat 32 cause) pc
  simp only [hd]
  split
  next h =>
    rw [Core.haltDebug_only]
    exact ⟨_, _, rfl, fun hns => absurd (h.symm.trans (hstep.trans hns)) (by decide)⟩
  next => exact ⟨_, _, rfl, fun _ => rfl⟩

/-- At task level a trap is entered. -/
theorem takeTrap_of_task {s : State} {k cause : Nat} {detail addr pc : Word} {eng : Option Engine} (h : (s.core k).priv = .task) :
    takeTrap s k cause detail addr pc eng = enterTrap s k cause detail addr pc eng := by
  rw [takeTrap, h]
  rfl

/-! ## Recall of a core's commands (R178) -/

@[simp] theorem leafOr_mem (m : MemSys) (leaf bits : Nat) : (m.leafOr leaf bits).mem = m.mem := by
  unfold MemSys.leafOr
  dsimp only
  split <;> rfl

@[simp] theorem setDirty_mem (m : MemSys) (frame : Nat) : (m.setDirty frame).mem = m.mem := by
  unfold MemSys.setDirty
  split
  · exact leafOr_mem _ _ _
  · rfl

@[simp] theorem poisonLine_mem (m : MemSys) (line : Nat) : (m.poisonLine line).mem = m.mem := by
  unfold MemSys.poisonLine
  split <;> rfl

/-- A chain of changes none of which touches contents. -/
theorem foldl_mem {β : Type} {f : MemSys → β → MemSys} (h : ∀ m b, (f m b).mem = m.mem) (l : List β) (m : MemSys) :
    (l.foldl f m).mem = m.mem := by
  induction l generalizing m with
  | nil => rfl
  | cons b r ih => exact (ih _).trans (h m b)

@[simp] theorem put_mem (m : MemSys) (ws : List (Nat × Byte)) (sc : Scope) (o : Party) (l : Option Nat) :
    (m.put ws sc o l).mem = m.mem :=
  foldl_mem setDirty_mem _ _

@[simp] theorem recallFerry_core (s : State) (die : Nat) (q : Cmd) (k : Nat) : (recallFerry s die q).core k = s.core k := by
  unfold recallFerry
  dsimp only
  split
  · split <;> rfl
  · split <;> rfl
  · rfl
  · rfl

@[simp] theorem recallFerry_ms (s : State) (die : Nat) (q : Cmd) : (recallFerry s die q).ms = s.ms := by
  unfold recallFerry
  dsimp only
  split
  · split <;> rfl
  · split <;> rfl
  · rfl
  · rfl

theorem foldl_recallFerry_core (l : List Cmd) (die : Nat) (s : State) (k : Nat) :
    (l.foldl (fun s q => recallFerry s die q) s).core k = s.core k := by
  induction l generalizing s with
  | nil => rfl
  | cons q r ih => rw [List.foldl_cons, ih, recallFerry_core]

theorem foldl_recallFerry_ms (l : List Cmd) (die : Nat) (s : State) : (l.foldl (fun s q => recallFerry s die q) s).ms = s.ms := by
  induction l generalizing s with
  | nil => rfl
  | cons q r ih => rw [List.foldl_cons, ih, recallFerry_ms]

theorem recallCmds_core (s : State) (k : Nat) (all : Bool) : (recallCmds s k all).core k = (s.core k).recallAll all := by
  rw [recallCmds, core_updCore_same, foldl_recallFerry_core, core_updDie, core_updMs]

theorem recallCmds_core_ne (s : State) {j k : Nat} (all : Bool) (h : j ≠ k) : (recallCmds s k all).core j = s.core j := by
  rw [recallCmds, core_updCore_ne _ _ h, foldl_recallFerry_core, core_updDie, core_updMs]

theorem recallCmds_mem (s : State) (k : Nat) (all : Bool) : (recallCmds s k all).ms.mem = s.ms.mem := by
  rw [recallCmds, State.updCore_ms, foldl_recallFerry_ms, State.updDie_ms, State.updMs_ms]
  split
  · split
    · exact (foldl_mem (fun m w => by split <;> simp) _ _).trans (put_mem _ _ _ _ _)
    · rfl
  · rfl

@[simp] theorem fenceReductions_core (s : State) (k j : Nat) : (fenceReductions s k).core j = s.core j := rfl

@[simp] theorem fenceReductions_ms (s : State) (k : Nat) : (fenceReductions s k).ms = s.ms := rfl

/-! ## The fence's part of one core (R198, R208) -/

theorem filter_gone_all (l : List Cmd) : l.filter (fun q => !q.gone true) = [] := by simp [Cmd.gone]

/-- A recall of every command empties the engines' queues and counters, and leaves registers, level, PC and causes alone. -/
theorem recallAll_true_queues (c : Core) : (c.recallAll true).mat.queue = [] ∧ (c.recallAll true).vec.seq = [] ∧
    (c.recallAll true).cpy.queue = [] ∧ (c.recallAll true).gal.queue = [] ∧ (c.recallAll true).fer.queue = [] := by
  refine ⟨filter_gone_all _, rfl, ?_, filter_gone_all _, filter_gone_all _⟩
  simp only [Core.recallAll]
  split <;> exact filter_gone_all _

/-- A migration that waits for a fenced core of the basin learns of it (R208). -/
def losingMove (j : Nat) (c : Core) : Core :=
  if c.hand == some (Hand.move j false) then { c with hand := some (Hand.move j true) } else c

theorem losingMove_only (j : Nat) (c : Core) : losingMove j c = { c with hand := (losingMove j c).hand } := by
  unfold losingMove
  split <;> rfl

theorem tfind_map_snd {α : Type} (t : Tbl α) (g : α → α) (k : Nat) : tfind (t.map (fun x => (x.1, g x.2))) k = (tfind t k).map g := by
  induction t with
  | nil => rfl
  | cons x r ih =>
    obtain ⟨n, v⟩ := x
    simp only [List.map_cons, tfind, ih]
    split <;> rfl

theorem core_losingMove (s : State) (j k : Nat) :
    ({ s with cores := s.cores.map (fun (x : Nat × Core) => if x.2.hand == some (Hand.move j false) then
      (x.1, { x.2 with hand := some (Hand.move j true) }) else x) } : State).core k = losingMove j (s.core k) := by
  have hmap : (fun (x : Nat × Core) => if x.2.hand == some (Hand.move j false) then
      (x.1, { x.2 with hand := some (Hand.move j true) }) else x) = fun x => (x.1, losingMove j x.2) := by
    funext x
    unfold losingMove
    split <;> rfl
  simp only [State.core, hmap, tfind_map_snd]
  cases tfind s.cores k <;> rfl

/-- BASIN_FENCED for core j of basin `bi`. -/
def fenceRec (bi j : Nat) : ImpRec := { cause := 0x72, pc := 0xFFFFFFFF, addr := 0, src := BitVec.ofNat 32 (j % 1024 + bi * 1024) }

/-- A core of a fenced basin, its commands recalled, before it enters its handler. -/
def fencedCore (r : ImpRec) (c : Core) : Core :=
  { c with
    fenced := true, buf := [], out := [], dirty := [], held := [], hand := none
    run := if c.run == Run.idle then Run.running else c.run
    cnt := { c.cnt with ST := 0, RM := 0 }
    tr := { c.tr with imp := c.tr.imp ++ [r] } }

/-- Core j's commands recalled, its part in reductions withdrawn. -/
def recalled (s : State) (j : Nat) : State := fenceReductions (recallCmds s j true) j

theorem recalled_core (s : State) (j : Nat) : (recalled s j).core j = (s.core j).recallAll true := recallCmds_core s j true

/-- The fence's part of core j before the core enters its handler. -/
def fencing (bi : Nat) (s : State) (j : Nat) : State :=
  let t := (recalled s j).updMs (fun m => ((recalled s j).core j).dirty.foldl (fun m l => m.poisonLine l.2) m)
  ({ t with cores := t.cores.map (fun (x : Nat × Core) => if x.2.hand == some (Hand.move j false) then
    (x.1, { x.2 with hand := some (Hand.move j true) }) else x) } : State).setCore j (fencedCore (fenceRec bi j) ((recalled s j).core j))

theorem fencing_core (bi : Nat) (s : State) (j : Nat) :
    (fencing bi s j).core j = fencedCore (fenceRec bi j) ((s.core j).recallAll true) := by
  rw [fencing, core_setCore_same, recalled_core]

theorem fencing_core_ne (bi : Nat) (s : State) {i j : Nat} (h : i ≠ j) : (fencing bi s j).core i = losingMove j (s.core i) := by
  rw [fencing, core_setCore_ne _ _ h, core_losingMove, core_updMs, recalled, fenceReductions_core, recallCmds_core_ne s true h]

theorem fencing_mem (bi : Nat) (s : State) (j : Nat) : (fencing bi s j).ms.mem = s.ms.mem :=
  (foldl_mem (f := fun m (l : Nat × Nat) => m.poisonLine l.2) (fun m l => poisonLine_mem m l.2) _ _).trans (recallCmds_mem s j true)

/-- Detail and address with which core j, standing as `c`, takes the oldest of its pending errors. -/
def oldestDetail (bi j : Nat) (c : Core) : Word := BitVec.ofNat 32 (min (c.tr.imp ++ [fenceRec bi j]).length 255)
def oldestAddr (bi j : Nat) (c : Core) : Word := ((c.tr.imp ++ [fenceRec bi j]).headD (fenceRec bi j)).addr

/-- The fence of one core: its change, and the entry into its handler where it is at task level and HALT has not stopped it. -/
theorem fenceCore_eq (bi : Nat) (s : State) (j : Nat) :
    fenceCore bi s j = if (s.core j).priv == .task && (s.core j).run != .halted then
      enterTrap (fencing bi s j) j 0x72 (oldestDetail bi j (s.core j)) (oldestAddr bi j (s.core j)) (s.core j).pc
    else fencing bi s j := by
  have hc : (fenceReductions (recallCmds s j true) j).core j = (s.core j).recallAll true := recalled_core s j
  simp only [fenceCore, fencing, recalled, hc]
  rfl

/-- What a fence leaves of a core of its basin that stood as `c0`. -/
def Fenced (c0 c : Core) : Prop :=
  c.fenced = true ∧ c.buf = [] ∧ c.out = [] ∧ c.cnt.ST = 0 ∧ c.cnt.RM = 0 ∧ c.cnt.MX = 0 ∧ c.cnt.VX = 0 ∧ c.cnt.CP = 0 ∧
  c.cnt.gl = 0 ∧ c.cnt.PS = 0 ∧ c.mat.queue = [] ∧ c.vec.seq = [] ∧ c.cpy.queue = [] ∧ c.gal.queue = [] ∧ c.fer.queue = [] ∧
  c.regs = c0.regs ∧ (∃ r, c.tr.imp = c0.tr.imp ++ [r] ∧ r.cause = 0x72) ∧
  (c0.priv = .task → c0.run ≠ .halted → c0.dbg.stepping = false →
    c.priv = .supervisor ∧ c.pc = c0.tr.vec ∧ c.tr.cause = 0x72 ∧ c.tr.pc = c0.pc)

/-- An offer, in which alone other cores of the basin differ after their own part, has no bearing on it. -/
theorem Fenced.hand {c0 c : Core} (h : Fenced c0 c) (x : Option Hand) : Fenced c0 { c with hand := x } := h

theorem fenceCore_fenced (bi : Nat) (s : State) (j : Nat) : Fenced (s.core j) ((fenceCore bi s j).core j) := by
  have ht := fencing_core bi s j
  obtain ⟨hmat, hvec, hcpy, hgal, hfer⟩ := recallAll_true_queues (s.core j)
  rw [fenceCore_eq]
  split
  next hent =>
    obtain ⟨r, d, hcore, -⟩ := enterTrap_core (fencing bi s j) j 0x72 (oldestDetail bi j (s.core j)) (oldestAddr bi j (s.core j))
      (s.core j).pc none
    rw [hcore, ht]
    refine ⟨rfl, rfl, rfl, rfl, rfl, rfl, rfl, rfl, rfl, rfl, hmat, hvec, hcpy, hgal, hfer, rfl, ⟨_, rfl, rfl⟩, fun hp _ _ => ?_⟩
    exact ⟨if_neg (by rw [show (fencedCore (fenceRec bi j) ((s.core j).recallAll true)).priv = (s.core j).priv from rfl, hp]; decide),
      rfl, rfl, rfl⟩
  next hent =>
    rw [ht]
    refine ⟨rfl, rfl, rfl, rfl, rfl, rfl, rfl, rfl, rfl, rfl, hmat, hvec, hcpy, hgal, hfer, rfl, ⟨_, rfl, rfl⟩, fun hp hr _ => ?_⟩
    exact absurd (by simp [hp, hr]) hent

theorem fenceCore_core_ne (bi : Nat) (s : State) {i j : Nat} (h : i ≠ j) : (fenceCore bi s j).core i = losingMove j (s.core i) := by
  rw [fenceCore_eq]
  split
  · rw [enterTrap_core_ne _ _ _ _ _ _ h, fencing_core_ne bi s h]
  · exact fencing_core_ne bi s h

theorem fenceCore_mem (bi : Nat) (s : State) (j : Nat) : (fenceCore bi s j).ms.mem = s.ms.mem := by
  rw [fenceCore_eq]
  split
  · rw [enterTrap_ms, fencing_mem]
  · exact fencing_mem bi s j

/-! ## The fence of a basin -/

theorem foldl_fenceCore_mem (bi : Nat) (l : List Nat) (s : State) : (l.foldl (fenceCore bi) s).ms.mem = s.ms.mem := by
  induction l generalizing s with
  | nil => rfl
  | cons j r ih => rw [List.foldl_cons, ih, fenceCore_mem]

theorem foldl_fenceCore_core_of_notMem (bi : Nat) {l : List Nat} {i : Nat} (s : State) (h : i ∉ l) :
    ∃ x, (l.foldl (fenceCore bi) s).core i = { s.core i with hand := x } := by
  induction l generalizing s with
  | nil => exact ⟨_, rfl⟩
  | cons j r ih =>
    rw [List.mem_cons, not_or] at h
    obtain ⟨x, hx⟩ := ih (fenceCore bi s j) h.2
    rw [fenceCore_core_ne bi s h.1, losingMove_only] at hx
    exact ⟨x, hx⟩

/-- A core once fenced stays so while the rest of the basin is; before its turn only its offer may change. -/
theorem foldl_fenceCore_fenced (bi : Nat) {l : List Nat} {j : Nat} (s : State) (hnd : l.Nodup) (hj : j ∈ l) :
    Fenced (s.core j) ((l.foldl (fenceCore bi) s).core j) := by
  induction l generalizing s with
  | nil => cases hj
  | cons i r ih =>
    obtain ⟨hi, hr⟩ := List.nodup_cons.mp hnd
    rw [List.foldl_cons]
    by_cases hij : j = i
    · subst hij
      obtain ⟨x, hx⟩ := foldl_fenceCore_core_of_notMem bi (fenceCore bi s j) hi
      rw [hx]
      exact (fenceCore_fenced bi s j).hand x
    · have hrest := ih (fenceCore bi s i) hr ((List.mem_cons.mp hj).resolve_left hij)
      rw [fenceCore_core_ne bi s hij, losingMove_only] at hrest
      exact hrest

theorem basinCores_nodup (s : State) (k : Nat) : (s.basinCores k).Nodup := by
  unfold State.basinCores
  split
  · exact List.Pairwise.filter _ (List.Pairwise.map _ (fun a b hab => by omega) List.nodup_range)
  · exact List.pairwise_singleton _ k

/-- The fence is that of each core of the basin in turn, from a state with the same cores and contents. -/
theorem fenceBasin_eq (s : State) (k : Nat) : ∃ bi, ∃ s1 : State, (∀ j, s1.core j = s.core j) ∧ s1.ms = s.ms ∧
    (∀ j, (fenceBasin s k).core j = ((s.basinCores k).foldl (fenceCore bi) s1).core j) ∧
    (fenceBasin s k).ms = ((s.basinCores k).foldl (fenceCore bi) s1).ms := by
  refine ⟨(s.basinOf k).getD 0, _, ?_, ?_, fun j => blackBox_core _ _ _ _ _ _ j, blackBox_ms _ _ _ _ _ _⟩
  · intro j
    split <;> rfl
  · split <;> rfl

theorem fenceBasin_fences : Claims.BasinFence := by
  intro s k t
  obtain ⟨bi, s1, hcore, hms, ht, htms⟩ := fenceBasin_eq s k
  refine ⟨fun j hj => ?_, fun j hj => ?_, ?_⟩
  · have hf := foldl_fenceCore_fenced bi s1 (basinCores_nodup s k) hj
    rw [hcore, ← ht] at hf
    exact hf
  · obtain ⟨x, hx⟩ := foldl_fenceCore_core_of_notMem bi s1 hj
    rw [hcore, ← ht] at hx
    show (fenceBasin s k).core j = { s.core j with hand := ((fenceBasin s k).core j).hand }
    rw [hx]
  · show (fenceBasin s k).ms.mem = s.ms.mem
    rw [htms, foldl_fenceCore_mem, hms]

/-! ## Deliveries -/

theorem queueHeldDelivery_enters {s : State} {k : Nat} {q : Fin 7} {e : PWord}
    (hheld : (s.core k).regs.held.find? (fun x => x.1 == q.val) = some (q.val, e)) (hroom : ((s.core k).regs.q[q]).length < 16) :
    exec (.queueHeldDelivery k q.val) s = .next (s.updCore k (fun c => { c with
      regs := { c.regs with q := c.regs.q.set q (c.regs.q[q] ++ [e]), held := c.regs.held.erase (q.val, e) }, woken := true })) := by
  show execQueueHeldDelivery k q.val s = _
  simp only [execQueueHeldDelivery, dif_pos q.isLt, hheld]
  exact if_pos hroom

/-- A trap at task level does not change whether its core is fenced. -/
theorem takeTrap_fenced {s : State} {k cause : Nat} {detail addr pc : Word} (h : (s.core k).priv = .task) :
    ((takeTrap s k cause detail addr pc).core k).fenced = (s.core k).fenced := by
  rw [takeTrap_of_task h]
  obtain ⟨r, d, hcore, -⟩ := enterTrap_core s k cause detail addr pc none
  rw [hcore]
  rfl

theorem impreciseErrorDelivery_takes {s : State} {k : Nat} {r : ImpRec} {rest : List ImpRec} (hp : (s.core k).priv = .task)
    (hrun : (s.core k).run = .running) (himp : (s.core k).tr.imp = r :: rest) :
    let t := takeTrap s k r.cause (BitVec.ofNat 32 (min (rest.length + 1) 255)) r.addr (s.core k).pc
    exec (.impreciseErrorDelivery k) s =
      .next (if (r.cause = 0x70 ∨ r.cause = 0x71 ∨ r.cause = 0x73) ∧ (s.core k).fenced = false then fenceBasin t k else t) := by
  show execImpreciseErrorDelivery k s = _
  simp only [execImpreciseErrorDelivery, hp, hrun, himp, deliverImp, takeTrap_fenced hp, List.length_cons, List.isEmpty_cons,
    Bool.not_false, and_self, if_true, Bool.not_eq_true']

theorem deliveries_hold : Claims.Deliveries :=
  ⟨fun _ _ _ _ hheld hroom => queueHeldDelivery_enters hheld hroom,
    fun _ _ _ _ hp hrun himp => impreciseErrorDelivery_takes hp hrun himp⟩

/-- Settles O28: a fence by its cores in turn, each of which leaves the others but for their offers; the deliveries by their meanings. -/
theorem fencesAndDeliveries : Obligations.FencesAndDeliveries := ⟨fenceBasin_fences, deliveries_hold⟩

end Sys2Proof.Proofs
end

section
/-!
PROOFS. Instructions handed to engines: the checks at issue, and the command offered (R32, R169, R230, R285, R322, R359, R391).
-/
namespace Sys2Proof.Proofs
open Sys2Proof Sys2Proof.Machine Sys2Proof.Claims

/-! ## Causes at the instruction itself -/

/-- A trap begins by writing its core, so a write of the core as it stands has no bearing on it. -/
theorem takeTrap_setCore_self (s : State) (k cause : Nat) (detail addr pc : Word) (eng : Option Engine) :
    takeTrap (s.setCore k (s.core k)) k cause detail addr pc eng = takeTrap s k cause detail addr pc eng := by
  simp only [takeTrap, enterTrap, core_setCore_same, setCore_setCore, corePart_setCore, State.setCore_ck]

theorem raise_eq_takeTrap {i : Instr} {s : State} {cause : Nat} {addr : Word} (h : isPage cause = false) :
    raise i s cause addr = takeTrap s s.cur cause (detailOf i cause) addr (s.core s.cur).pc :=
  deliver_eq_takeTrap h

theorem raiseD_eq_takeTrap {s : State} {cause : Nat} {detail addr : Word} (h : isPage cause = false) :
    raiseD s cause detail addr = takeTrap s s.cur cause detail addr (s.core s.cur).pc := by
  have hp : ∀ c : Core, c.pageWait cause addr = c := fun c => by simp [Core.pageWait, h]
  rw [raiseD, deliver_eq_takeTrap h, State.updCore, hp, takeTrap_setCore_self]

/-! ## A list of checks, each with the cause and the address of its trap -/

/-- The first check that holds decides for `P` of its cause and address; where none holds, `Q`. -/
def Decides (P : Nat → Word → Prop) (Q : Prop) : List (Prop × Nat × Word) → Prop
  | [] => Q
  | x :: r => (x.1 → P x.2.1 x.2.2) ∧ (¬ x.1 → Decides P Q r)

theorem Decides.mono {P P' : Nat → Word → Prop} {Q Q' : Prop} {cs : List (Prop × Nat × Word)} (h : Decides P Q cs)
    (hP : ∀ c a, P c a → P' c a) (hQ : Q → Q') : Decides P' Q' cs := by
  induction cs with
  | nil => exact hQ h
  | cons x r ih => exact ⟨fun hx => hP _ _ (h.1 hx), fun hx => ih (h.2 hx)⟩

theorem Decides.first {P : Nat → Word → Prop} {Q : Prop} {cs : List (Prop × Nat × Word)} (h : Decides P Q cs) {n : Nat}
    {x : Prop × Nat × Word} (hn : cs[n]? = some x) (hx : x.1) (hbefore : ∀ m y, m < n → cs[m]? = some y → ¬ y.1) :
    P x.2.1 x.2.2 := by
  induction cs generalizing n with
  | nil => cases hn
  | cons y r ih =>
    cases n with
    | zero => cases hn; exact h.1 hx
    | succ n =>
      have hy : ¬ y.1 := hbefore 0 y (Nat.succ_pos n) rfl
      exact ih (h.2 hy) hn (fun m z hm hz => hbefore (m + 1) z (Nat.succ_lt_succ hm) hz)

theorem Decides.none {P : Nat → Word → Prop} {Q : Prop} {cs : List (Prop × Nat × Word)} (h : Decides P Q cs)
    (hall : ∀ x ∈ cs, ¬ x.1) : Q := by
  induction cs with
  | nil => exact h
  | cons y r ih => exact ih (h.2 (hall y List.mem_cons_self)) (fun x hx => hall x (List.mem_cons_of_mem y hx))

/-! ## The command offered -/

/-- An issue to an engine publishes at the engine's scope and offers the command with the operands read. -/
theorem engineIssue_offers {i : Instr} {u u' : Uses} {e : Engine} {v : Vals} {s s0 : State} {data : List Word}
    (hi : exec i s = engineIssue i u e v s0 data) (hu : u = u') (hcur : s0.cur = s.cur) (hpub : (s0.core s0.cur).pubDone = false)
    (hreads : (s0.core s0.cur).readsDone = true) :
    Offers i u' v.poison (.cmd e (command (s0.core s0.cur) i v data)) s
      (s0.updCore s.cur (fun c => { published (issueScope e) c with pubDone := true })) := by
  subst hu
  have hscope : engineScope e = issueScope e := by cases e <;> rfl
  refine ⟨stand i (s0.updCore s0.cur (fun c => { published (issueScope e) c with pubDone := true })), ?_, ?_⟩
  · rw [hi, engineIssue, publish, if_neg (by rw [hpub]; decide), performReads_done hreads, ← hcur, hscope]
    simp only [State.updCore_cur, core_updCore_same]
    rfl
  · rw [hcur]
    exact stand_stands i _

/-- What issue makes of a list of checks, where `binding` is the wait of a block's commands for a bind or leave. -/
def IssueDecides (s : State) (i : Instr) (u : Uses) (e : Engine) (v : Vals) (binding : Prop) (cs : List (Prop × Nat × Word)) : Prop :=
  Decides (fun cause addr => (binding → cause ≠ 0x51) →
      exec i s = .next (takeTrap s s.cur cause (checkDetail i v cause) addr (s.core s.cur).pc))
    (¬ binding → exec i s = engineIssue i u e v s []) cs

theorem offered_of_no_hand {i : Instr} {u : Uses} {s : State} {go : Out} (h : (s.core s.cur).hand = none) : offered i u s go = go := by
  rw [offered, h, if_neg (by simp)]

/-! ## The matrix unit (R285) -/

theorem checkDetail_encode {i : Instr} {v : Vals} {cause : Nat} (h : cause = 0x04 ∨ cause = 0x30) : checkDetail i v cause = encode i := by
  rcases h with rfl | rfl <;> rfl

theorem matIssue_decides {i : Instr} {u : Uses} {s : State} {check : Vals → MG → Option (Nat × Word)} {binding : Prop}
    {cs : List (Prop × Nat × Word)} (hi : exec i s = matIssue i u s check) (h : s.ready u = true) (hh : (s.core s.cur).hand = none)
    (hc : Decides (fun c a => check (s.vals u) (s.core s.cur).mat.ahead = some (c, a) ∧ (c = 0x04 ∨ c = 0x30))
      (check (s.vals u) (s.core s.cur).mat.ahead = none) cs) : IssueDecides s i u .MX (s.vals u) binding cs := by
  rw [matIssue, offered_of_no_hand hh, gate_of_ready h] at hi
  refine hc.mono (fun c a hca _ => ?_) (fun hnone _ => ?_)
  · obtain ⟨hsome, hcause⟩ := hca
    have hpage : isPage c = false := by rcases hcause with rfl | rfl <;> rfl
    rw [hi, hsome, checkDetail_encode hcause]
    exact congrArg _ (raiseD_eq_takeTrap hpage)
  · rw [hi, hnone]

theorem geoIf_decides {b : Bool} {p : Prop} (h : b = true ↔ p) :
    Decides (fun c a => geoIf b = some (c, a) ∧ (c = 0x04 ∨ c = 0x30)) (geoIf b = none) [(p, 0x30, 0)] := by
  rw [Decides, ← h]
  exact ⟨fun hb => ⟨if_pos hb, Or.inr rfl⟩, fun hb => if_neg hb⟩

theorem badN_iff (n : Word) : badN n = true ↔ ¬ goodN n := by
  simp only [badN, goodN, Bool.or_eq_true, bne_iff_ne, decide_eq_true_eq]
  omega

theorem badRows_iff (b : Word) : badRows b = true ↔
    (Claims.fld b 7 1 ≠ 0 ∨ 2 ^ 16 ≤ b.toNat ∨ Claims.fld b 8 8 = 0 ∨ 128 < Claims.fld b 0 7 + Claims.fld b 8 8) := by
  have hbit : b.getLsbD 7 = true ↔ Claims.fld b 7 1 ≠ 0 := by
    rw [← BitVec.testBit_toNat, Nat.testBit_eq_decide_div_mod_eq, decide_eq_true_eq, Claims.fld]
    omega
  simp only [badRows, Bool.or_eq_true, bne_iff_ne, beq_iff_eq, decide_eq_true_eq, hbit, or_assoc]
  refine or_congr Iff.rfl (or_congr ?_ Iff.rfl)
  omega

/-- The checks of the matrix instructions, against their entries' conditions. -/
theorem matrix_decides {s : State} {i : Instr} (hi : issuesTo i = some .MX) (binding : Prop) (h : s.ready (uses i) = true)
    (hh : (s.core s.cur).hand = none) :
    IssueDecides s i (uses i) .MX (s.vals (uses i)) binding (issueChecks s i (s.vals (uses i))) := by
  cases i <;> simp only [issuesTo, Option.some.injEq, reduceCtorEq] at hi
  case mgeo a b =>
    exact matIssue_decides (check := fun v _ => geoIf (9 < v.b.toNat)) rfl h hh (geoIf_decides decide_eq_true_iff)
  case midx a =>
    exact matIssue_decides (check := fun v _ => if v.a.toNat % 4 ≠ 0 then some (0x04, v.a) else none) rfl h hh
      ⟨fun hx => ⟨if_pos hx, Or.inl rfl⟩, fun hx => if_neg hx⟩
  case mmul a b =>
    refine matIssue_decides (check := fun v g => geoIf (badN v.a || v.b.toNat / 2 ^ 16 != 0 || geometryBad g false)) rfl h hh
      (geoIf_decides ?_)
    simp only [Bool.or_eq_true, badN_iff, bne_iff_ne, or_assoc]
    refine or_congr Iff.rfl (or_congr ?_ Iff.rfl)
    omega
  case mzero a =>
    refine matIssue_decides (check := fun v _ => geoIf (v.a == 0 || v.a.toNat / 4 != 0)) rfl h hh (geoIf_decides ?_)
    simp only [Bool.or_eq_true, beq_iff_eq, bne_iff_ne, ← BitVec.toNat_inj]
    refine or_congr Iff.rfl ?_
    omega
  case mscac => exact matIssue_decides (check := fun _ g => geoIf (geometryBad g true)) rfl h hh (geoIf_decides Iff.rfl)
  case mdrn a b =>
    refine matIssue_decides (check := fun v g => geoIf (badN v.a || badRows v.b || geometryBad g false)) rfl h hh (geoIf_decides ?_)
    simp only [Bool.or_eq_true, badN_iff, badRows_iff, or_assoc]
  case mchk d a =>
    refine matIssue_decides (check := fun v g => geoIf (badN v.a || geometryBad g false)) rfl h hh (geoIf_decides ?_)
    simp only [Bool.or_eq_true, badN_iff]

/-! ## The gallery (R322) -/

theorem ownsClass_iff (s : State) (k c : Nat) : ownsClass s k c = true ↔ mayUseClass s k c := by
  simp only [ownsClass, mayUseClass, Bool.or_eq_true, Bool.and_eq_true, beq_iff_eq]
  rfl

theorem descriptorBad_iff (g : GClass) (a : Word) : descriptorBad g a = true ↔ noEntry g a := by
  simp only [descriptorBad, noEntry, GClass.bound, Bool.or_eq_true, decide_eq_true_eq, bne_iff_ne, Bool.not_eq_true',
    beq_eq_false_iff_ne, Nat.mod_two_ne_one, or_assoc]
  rfl

theorem galIssue_decides {i : Instr} {u : Uses} {s : State} {cls : Vals → Nat} {check : Vals → GClass → Option (Nat × Word)}
    {binding : Prop} {cs : List (Prop × Nat × Word)} (hi : exec i s = galIssue i u s cls check) (h : s.ready u = true)
    (hh : (s.core s.cur).hand = none)
    (hc : Decides (fun c a => check (s.vals u) ((s.die (coreDie s.cur)).gclass (cls (s.vals u))) = some (c, a) ∧
        (c = 0x04 ∨ c = 0x40 ∨ c = 0x41))
      (check (s.vals u) ((s.die (coreDie s.cur)).gclass (cls (s.vals u))) = none) cs) :
    IssueDecides s i u .GL (s.vals u) binding ((¬ mayUseClass s s.cur (cls (s.vals u)), 0x40, 0) :: cs) := by
  rw [galIssue, offered_of_no_hand hh, gate_of_ready h] at hi
  have hown : (!ownsClass s s.cur (cls (s.vals u))) = true ↔ ¬ mayUseClass s s.cur (cls (s.vals u)) := by
    rw [Bool.not_eq_true', ← Bool.not_eq_true, ownsClass_iff]
  refine ⟨fun hx _ => ?_, fun hx => ?_⟩
  · rw [hi, if_pos (hown.mpr hx)]
    exact congrArg _ (raiseD_eq_takeTrap rfl)
  · rw [if_neg (mt hown.mp hx)] at hi
    refine hc.mono (fun c a hca _ => ?_) (fun hnone _ => ?_)
    · obtain ⟨hsome, hcause⟩ := hca
      rw [hi, hsome]
      rcases hcause with rfl | rfl | rfl <;> exact congrArg _ (raiseD_eq_takeTrap rfl)
    · rw [hi, hnone]

theorem idxIf_decides {b : Bool} {p : Prop} (h : b = true ↔ p) :
    Decides (fun c a => idxIf b = some (c, a) ∧ (c = 0x04 ∨ c = 0x40 ∨ c = 0x41)) (idxIf b = none) [(p, 0x41, 0)] := by
  rw [Decides, ← h]
  exact ⟨fun hb => ⟨if_pos hb, Or.inr (Or.inr rfl)⟩, fun hb => if_neg hb⟩

/-- Two checks in turn, each with its cause. -/
theorem twoChecks_decides {p q : Prop} [Decidable p] [Decidable q] {c d : Nat} {a b : Word} (hc : c = 0x04 ∨ c = 0x40 ∨ c = 0x41)
    (hd : d = 0x04 ∨ d = 0x40 ∨ d = 0x41) :
    Decides (fun c' a' => (if p then some (c, a) else if q then some (d, b) else none) = some (c', a') ∧ (c' = 0x04 ∨ c' = 0x40 ∨ c' = 0x41))
      ((if p then some (c, a) else if q then some (d, b) else none) = none) [(p, c, a), (q, d, b)] :=
  ⟨fun hp => ⟨if_pos hp, hc⟩, fun hp => ⟨fun hq => ⟨(if_neg hp).trans (if_pos hq), hd⟩, fun hq => (if_neg hp).trans (if_neg hq)⟩⟩

theorem and_eq_left_iff_testBit (x m : Nat) : x &&& m = x ↔ ∀ n, x.testBit n = true → m.testBit n = true := by
  constructor
  · intro h n hx
    rw [← h, Nat.testBit_and, Bool.and_eq_true] at hx
    exact hx.2
  · intro h
    refine Nat.eq_of_testBit_eq (fun n => ?_)
    rw [Nat.testBit_and]
    cases hx : x.testBit n
    · rfl
    · rw [h n hx]; rfl

/-- A stage outside a mask (R328). -/
theorem stageOutside_iff (b : Word) (m : Nat) :
    wf b 0 16 &&& m ≠ wf b 0 16 ↔ ∃ st, st < 16 ∧ b.toNat / 2 ^ st % 2 = 1 ∧ m / 2 ^ st % 2 = 0 := by
  have hwf : wf b 0 16 = b.toNat % 2 ^ 16 := by simp [wf]
  rw [hwf, ne_eq, and_eq_left_iff_testBit]
  simp only [Nat.testBit_mod_two_pow, Bool.and_eq_true, decide_eq_true_eq, Classical.not_forall, exists_prop, and_assoc]
  simp only [Nat.testBit_eq_decide_div_mod_eq, decide_eq_true_eq, Nat.mod_two_ne_one]

/-- The checks of the gallery instructions, against their entries' conditions. -/
theorem gallery_decides {s : State} {i : Instr} (hi : issuesTo i = some .GL) (binding : Prop) (h : s.ready (uses i) = true)
    (hh : (s.core s.cur).hand = none) :
    IssueDecides s i (uses i) .GL (s.vals (uses i)) binding (issueChecks s i (s.vals (uses i))) := by
  cases i <;> simp only [issuesTo, Option.some.injEq, reduceCtorEq] at hi
  case gtw a b =>
    refine galIssue_decides (cls := fun v => dCls v.a)
      (check := fun v g => if descriptorBad g v.a then some (0x41, 0) else if v.b.toNat % 16 ≠ 0 then some (0x04, v.b) else none) rfl h hh ?_
    rw [← descriptorBad_iff]
    exact twoChecks_decides (by decide) (by decide)
  case gtd a b =>
    refine galIssue_decides (cls := fun v => dCls v.a)
      (check := fun v g => idxIf (descriptorBad g v.a || tblSize (dTbl v.a) < dIndex v.a + v.b.toNat)) rfl h hh (idxIf_decides ?_)
    rw [Bool.or_eq_true, descriptorBad_iff, decide_eq_true_eq]
    rfl
  case gcmt d a =>
    exact galIssue_decides (cls := fun v => v.a.toNat % 8) (check := fun v _ => idxIf (8 ≤ v.a.toNat)) rfl h hh
      (idxIf_decides decide_eq_true_iff)
  case ginj a b =>
    exact galIssue_decides (cls := fun v => v.a.toNat % 8)
      (check := fun v _ => if 8 ≤ v.a.toNat then some (0x41, 0) else if v.b.toNat % 64 ≠ 0 then some (0x04, v.b) else none) rfl h hh
      (twoChecks_decides (by decide) (by decide))
  case gctr d a b =>
    refine galIssue_decides (cls := fun v => wf v.a 16 3)
      (check := fun v g => idxIf (v.a.toNat / 2 ^ 19 != 0 || v.b.toNat / 4 != 0 || g.size ≤ wf v.a 0 16)) rfl h hh (idxIf_decides ?_)
    simp only [Bool.or_eq_true, bne_iff_ne, decide_eq_true_eq, or_assoc]
    refine or_congr ?_ (or_congr ?_ Iff.rfl) <;> omega
  case gbind a b =>
    refine galIssue_decides (cls := fun v => v.a.toNat % 8)
      (check := fun v g => if wf v.b 0 16 &&& g.stgmask ≠ wf v.b 0 16 then some (0x40, 0)
        else idxIf (8 ≤ v.a.toNat || v.b.toNat / 2 ^ 18 != 0)) rfl h hh ?_
    have hidx : (8 ≤ (s.vals (uses (.gbind a b))).a.toNat || (s.vals (uses (.gbind a b))).b.toNat / 2 ^ 18 != 0) = true ↔
        8 ≤ (s.vals (uses (.gbind a b))).a.toNat ∨ 2 ^ 18 ≤ (s.vals (uses (.gbind a b))).b.toNat := by
      rw [Bool.or_eq_true, decide_eq_true_eq, bne_iff_ne]
      omega
    rw [← stageOutside_iff, ← hidx]
    exact twoChecks_decides (by decide) (by decide)

/-! ## The ferry (R356, R359) -/

theorem ownsGroup_iff (s : State) (k g : Nat) : ownsGroup s k g = true ↔ mayUseGroup s k g := by
  simp only [ownsGroup, mayUseGroup, Bool.or_eq_true, Bool.and_eq_true, beq_iff_eq]
  rfl

/-- What a ferry instruction does once its address and fields are found good: by the group that it names, or by its block. -/
def ferryTail (i : Instr) (u : Uses) (s : State) (v : Vals) : Option Nat → Out
  | some g => if ownsGroup s s.cur g then engineIssue i u .PS v s [] else .next (raiseD s 0x50 v.a 0)
  | none =>
    if (s.block (coreDie s.cur) (v.a.toNat % 4096)).any (fun b => !ownsGroup s s.cur b.group) then .next (raiseD s 0x50 v.a 0)
    else if (s.core s.cur).fer.queue.any (fun q => isBinder q.instr) then .next (stand i s)
    else if (s.block (coreDie s.cur) (v.a.toNat % 4096)).isNone then .next (raiseD s 0x51 v.a 0)
    else engineIssue i u .PS v s []

theorem ferIssue_of_ready {i : Instr} {u : Uses} {s : State} {addr : Vals → Option Word} {res : Vals → Bool} {group : Vals → Option Nat}
    (h : s.ready u = true) (hh : (s.core s.cur).hand = none) : ferIssue i u s addr res group =
      if (addr (s.vals u)).any (fun a => a.toNat % 4 != 0) then .next (raise i s 0x04 ((addr (s.vals u)).getD 0))
      else if res (s.vals u) then .next (raiseD s 0x02 0 0) else ferryTail i u s (s.vals u) (group (s.vals u)) := by
  rw [ferIssue, offered_of_no_hand hh, gate_of_ready h]
  rfl

/-- The field check, then the tail's checks. -/
theorem fields_decide {i : Instr} {u : Uses} {s : State} {e : Engine} {v : Vals} {b p : Prop} [Decidable b] {tail : Out} {binding : Prop}
    {cs : List (Prop × Nat × Word)} (hi : exec i s = if b then .next (raiseD s 0x02 0 0) else tail) (hb : b ↔ p)
    (htail : exec i s = tail → IssueDecides s i u e v binding cs) : IssueDecides s i u e v binding ((p, 0x02, 0) :: cs) := by
  refine ⟨fun hp _ => ?_, fun hp => htail (by rw [hi, if_neg (mt hb.mp hp)])⟩
  rw [hi, if_pos (hb.mpr hp)]
  exact congrArg _ (raiseD_eq_takeTrap rfl)

/-- The alignment check, then the rest. -/
theorem alignment_decides {i : Instr} {u : Uses} {s : State} {e : Engine} {v : Vals} {a : Word} {p : Prop} [Decidable p] {rest : Out}
    {binding : Prop} {cs : List (Prop × Nat × Word)} (hi : exec i s = if p then .next (raise i s 0x04 a) else rest)
    (hrest : exec i s = rest → IssueDecides s i u e v binding cs) : IssueDecides s i u e v binding ((p, 0x04, a) :: cs) := by
  refine ⟨fun hp _ => ?_, fun hp => hrest (by rw [hi, if_neg hp])⟩
  rw [hi, if_pos hp]
  exact congrArg _ (raise_eq_takeTrap rfl)

/-- A group that is not owned (R356). -/
theorem group_decides {i : Instr} {u : Uses} {s : State} {v : Vals} {g : Nat} {binding : Prop}
    (hi : exec i s = ferryTail i u s v (some g)) : IssueDecides s i u .PS v binding [(¬ mayUseGroup s s.cur g, 0x50, 0)] := by
  rw [ferryTail] at hi
  refine ⟨fun hg _ => ?_, fun hg _ => ?_⟩
  · rw [hi, if_neg (mt (ownsGroup_iff s s.cur g).mp hg)]
    exact congrArg _ (raiseD_eq_takeTrap rfl)
  · rw [hi, if_pos ((ownsGroup_iff s s.cur g).mpr (Classical.not_not.mp hg))]

/-- The checks of a block that an instruction names: its group is owned, and it is bound (R356). -/
def boundChecks (s : State) (v : Vals) : List (Prop × Nat × Word) :=
  let blk := tfind (s.die (coreDie s.cur)).fer.blocks (v.a.toNat % 4096)
  [(∃ b, blk = some b ∧ ¬ mayUseGroup s s.cur b.group, 0x50, 0), (blk = none, 0x51, 0)]

theorem block_decides {i : Instr} {u : Uses} {s : State} {v : Vals} (hi : exec i s = ferryTail i u s v none) :
    IssueDecides s i u .PS v ((s.core s.cur).fer.queue.any (fun q => isBinder q.instr) = true) (boundChecks s v) := by
  have hgroup : (s.block (coreDie s.cur) (v.a.toNat % 4096)).any (fun b => !ownsGroup s s.cur b.group) = true ↔
      ∃ b, tfind (s.die (coreDie s.cur)).fer.blocks (v.a.toNat % 4096) = some b ∧ ¬ mayUseGroup s s.cur b.group := by
    simp only [State.block, Option.any_eq_true, Bool.not_eq_true', ← Bool.not_eq_true, ownsGroup_iff]
  have hbound : (s.block (coreDie s.cur) (v.a.toNat % 4096)).isNone = true ↔
      tfind (s.die (coreDie s.cur)).fer.blocks (v.a.toNat % 4096) = none := Option.isNone_iff_eq_none
  rw [ferryTail] at hi
  refine ⟨fun hg _ => ?_, fun hg => ⟨fun hb hbinding => ?_, fun hb hbinding => ?_⟩⟩
  · rw [hi, if_pos (hgroup.mpr hg)]
    exact congrArg _ (raiseD_eq_takeTrap rfl)
  · rw [hi, if_neg (mt hgroup.mp hg), if_neg (fun hq => hbinding hq rfl), if_pos (hbound.mpr hb)]
    exact congrArg _ (raiseD_eq_takeTrap rfl)
  · rw [hi, if_neg (mt hgroup.mp hg), if_neg hbinding, if_neg (mt hbound.mp hb)]

/-- The wait under which checks are decided may be named in another way. -/
theorem IssueDecides.of_iff {s : State} {i : Instr} {u : Uses} {e : Engine} {v : Vals} {p p' : Prop} {cs : List (Prop × Nat × Word)}
    (h : IssueDecides s i u e v p cs) (hp : p ↔ p') : IssueDecides s i u e v p' cs :=
  h.mono (fun _ _ hc hx => hc (fun y => hx (hp.mp y))) (fun hq hx => hq (fun y => hx (hp.mp y)))

theorem handleBad_iff (v : Vals) : handleBad v = true ↔ 4096 ≤ v.a.toNat := by
  rw [handleBad, bne_iff_ne]
  omega

theorem handleBad_or_iff (v : Vals) (n : Nat) : (handleBad v || v.b.toNat / (n + 1) != 0) = true ↔ 4096 ≤ v.a.toNat ∨ n + 1 ≤ v.b.toNat := by
  rw [Bool.or_eq_true, handleBad_iff, bne_iff_ne, ne_eq, Nat.div_eq_zero_iff]
  omega

theorem getLsbD_iff_fld (w : Word) (n : Nat) : w.getLsbD n = true ↔ Claims.fld w n 1 = 1 := by
  rw [← BitVec.testBit_toNat, Nat.testBit_eq_decide_div_mod_eq, decide_eq_true_eq]
  rfl

/-- An instruction that names a block by a handle and carries no address: its fields, then its block. -/
theorem handle_decides {i : Instr} {u : Uses} {s : State} {res : Vals → Bool} {p : Prop}
    (hi : exec i s = ferIssue i u s (fun _ => none) res (fun _ => none)) (h : s.ready u = true) (hh : (s.core s.cur).hand = none)
    (hp : res (s.vals u) = true ↔ p) :
    IssueDecides s i u .PS (s.vals u) ((s.core s.cur).fer.queue.any (fun q => isBinder q.instr) = true)
      ((p, 0x02, 0) :: boundChecks s (s.vals u)) := by
  rw [ferIssue_of_ready h hh, Option.any_none, if_neg Bool.false_ne_true] at hi
  exact fields_decide hi hp block_decides

/-- An instruction that names a block by a handle and an address: the address first. -/
theorem address_decides {i : Instr} {u : Uses} {s : State}
    (hi : exec i s = ferIssue i u s (fun v => some v.b) handleBad (fun _ => none)) (h : s.ready u = true) (hh : (s.core s.cur).hand = none) :
    IssueDecides s i u .PS (s.vals u) ((s.core s.cur).fer.queue.any (fun q => isBinder q.instr) = true)
      (((s.vals u).b.toNat % 4 ≠ 0, 0x04, (s.vals u).b) :: (4096 ≤ (s.vals u).a.toNat, 0x02, 0) :: boundChecks s (s.vals u)) := by
  rw [ferIssue_of_ready h hh] at hi
  simp only [Option.any_some, Option.getD_some, bne_iff_ne] at hi
  exact alignment_decides hi (fun hrest => fields_decide hrest (handleBad_iff _) block_decides)

/-- A PSSTEP of a block is one whose operand has bit 31 (R365). -/
def stepsGroup (i : Instr) (v : Vals) : Prop := ∃ a, i = .psstep a ∧ Claims.fld v.a 31 1 = 0

/-- The wait of an instruction that names a block for a bind or leave of its core. -/
def awaitsBind (s : State) (i : Instr) (e : Engine) (v : Vals) : Prop :=
  e = .PS ∧ (s.core s.cur).fer.queue.any (fun q => isBinder q.instr) = true ∧ ¬ stepsGroup i v

theorem awaitsBind_iff {s : State} {i : Instr} {v : Vals} (h : ¬ stepsGroup i v) :
    (s.core s.cur).fer.queue.any (fun q => isBinder q.instr) = true ↔ awaitsBind s i .PS v :=
  ⟨fun hq => ⟨rfl, hq, h⟩, fun hx => hx.2.1⟩

/-- The checks of PSSTEP, by the block or the group that its operand chooses (R365). -/
theorem psstep_decides {s : State} {a : Src} (h : s.ready (uses (.psstep a)) = true) (hh : (s.core s.cur).hand = none) :
    IssueDecides s (.psstep a) (uses (.psstep a)) .PS (s.vals (uses (.psstep a)))
      (awaitsBind s (.psstep a) .PS (s.vals (uses (.psstep a)))) (issueChecks s (.psstep a) (s.vals (uses (.psstep a)))) := by
  have hi : exec (.psstep a) s = ferIssue (.psstep a) (uses (.psstep a)) s (fun _ => none)
    (fun v => if v.a.getLsbD 31 then wf v.a 12 19 != 0 else wf v.a 8 23 != 0) (fun v => if v.a.getLsbD 31 then none else some (wf v.a 0 8)) := rfl
  rw [ferIssue_of_ready h hh, Option.any_none, if_neg Bool.false_ne_true] at hi
  generalize s.vals (uses (.psstep a)) = v at hi ⊢
  by_cases hbit : v.a.getLsbD 31 = true
  · have hfld := (getLsbD_iff_fld v.a 31).mp hbit
    have hblock : ¬ stepsGroup (.psstep a) v := fun ⟨_, _, hz⟩ => by rw [hfld] at hz; cases hz
    simp only [hbit, if_true] at hi
    simp only [issueChecks, hfld, if_true]
    exact (fields_decide hi bne_iff_ne block_decides).of_iff (awaitsBind_iff hblock)
  · have hfld : ¬ Claims.fld v.a 31 1 = 1 := mt (getLsbD_iff_fld v.a 31).mpr hbit
    simp only [hbit, if_false, Bool.false_eq_true] at hi
    simp only [issueChecks, hfld, if_false]
    exact fields_decide hi bne_iff_ne group_decides

/-- The checks of the ferry instructions, against their entries' conditions. -/
theorem ferry_decides {s : State} {i : Instr} (hi : issuesTo i = some .PS) (h : s.ready (uses i) = true)
    (hh : (s.core s.cur).hand = none) :
    IssueDecides s i (uses i) .PS (s.vals (uses i)) (awaitsBind s i .PS (s.vals (uses i))) (issueChecks s i (s.vals (uses i))) := by
  cases i <;> simp only [issuesTo, Option.some.injEq, reduceCtorEq] at hi
  case psstep a => exact psstep_decides h hh
  case psread a b => exact (address_decides rfl h hh).of_iff (awaitsBind_iff (by rintro ⟨_, ⟨⟩, _⟩))
  case psadd a b => exact (address_decides rfl h hh).of_iff (awaitsBind_iff (by rintro ⟨_, ⟨⟩, _⟩))
  case psmass d a => exact (handle_decides rfl h hh (handleBad_iff _)).of_iff (awaitsBind_iff (by rintro ⟨_, ⟨⟩, _⟩))
  case psheld d a => exact (handle_decides rfl h hh (handleBad_iff _)).of_iff (awaitsBind_iff (by rintro ⟨_, ⟨⟩, _⟩))
  case psdis d a => exact (handle_decides rfl h hh (handleBad_iff _)).of_iff (awaitsBind_iff (by rintro ⟨_, ⟨⟩, _⟩))
  case psqui a b => exact (handle_decides rfl h hh (handleBad_or_iff _ 1)).of_iff (awaitsBind_iff (by rintro ⟨_, ⟨⟩, _⟩))
  case psleave a b => exact (handle_decides rfl h hh (handleBad_or_iff _ 63)).of_iff (awaitsBind_iff (by rintro ⟨_, ⟨⟩, _⟩))

/-! ## Copies of pages (R397) -/

theorem copy_decides {s : State} {i : Instr} (hi : issuesTo i = some .CP) (binding : Prop) (h : s.ready (uses i) = true)
    (hh : (s.core s.cur).hand = none) :
    IssueDecides s i (uses i) .CP (s.vals (uses i)) binding (issueChecks s i (s.vals (uses i))) := by
  cases i <;> simp only [issuesTo, Option.some.injEq, reduceCtorEq] at hi
  case demote a b =>
    have hx : exec (.demote a b) s = _ := (offered_of_no_hand hh).trans (gate_of_ready h)
    exact alignment_decides hx (fun hfields => fields_decide hfields Iff.rfl (fun hrest _ => hrest))
  case promote a =>
    have hx : exec (.promote a) s = _ := (offered_of_no_hand hh).trans (gate_of_ready h)
    exact alignment_decides hx (fun hrest _ => hrest)

/-! ## Vector memory (R230, R254) -/

/-- The operands of a vector memory instruction: its one register is the base. -/
def baseVals (v : Vals) : Vals := { v with a := v.ds.getD 0 0 }

theorem vecMem_of_ready {i : Instr} {xs : XReg} {align : Nat} {s : State}
    (h : s.ready { ds := [xs], engs := [.VX], moves := true } = true) (hh : (s.core s.cur).hand = none)
    (hr : (s.core s.cur).vec.reneg = none) : vecMem i xs align s =
      if (s.core s.cur).vec.grant = 0 then .next (raiseD s 0x20 (encode i) 0)
      else if (baseVals (s.vals { ds := [xs], engs := [.VX], moves := true })).a.toNat % align ≠ 0 then
        .next (raise i s 0x04 (baseVals (s.vals { ds := [xs], engs := [.VX], moves := true })).a)
      else engineIssue i { ds := [xs], engs := [.VX], moves := true } .VX (baseVals (s.vals { ds := [xs], engs := [.VX], moves := true })) s [] := by
  rw [vecMem, offered_of_no_hand hh, vecGate, gate_of_ready h, hr]
  rfl

/-- The vector memory instructions: each is the hand-off of a memory entry, with its form's alignment. -/
theorem exec_eq_vecMem {i : Instr} (hi : issuesTo i = some .VX) : ∃ xs align, uses i = { ds := [xs], engs := [.VX], moves := true } ∧
    (∀ s, exec i s = vecMem i xs align s) ∧
    ∀ s v, issueChecks s i v = [(v.a.toNat % align ≠ 0, 0x04, v.a)] ∨ (align = 1 ∧ issueChecks s i v = []) := by
  cases i <;> simp only [issuesTo, Option.some.injEq, reduceCtorEq] at hi
  case vld f d xs => exact ⟨xs, formAlign f, rfl, fun _ => rfl, fun s v => Or.inl (by cases f <;> rfl)⟩
  case vst f a xs => exact ⟨xs, formAlign f, rfl, fun _ => rfl, fun s v => Or.inl (by cases f <;> rfl)⟩
  case vgth f d a xs => exact ⟨xs, 1, rfl, fun _ => rfl, fun s v => Or.inr ⟨rfl, rfl⟩⟩
  case vsct f a b xs => exact ⟨xs, 1, rfl, fun _ => rfl, fun s v => Or.inr ⟨rfl, rfl⟩⟩

theorem vector_no_grant {s : State} {i : Instr} (hi : issuesTo i = some .VX) (h : s.ready (uses i) = true) (hh : (s.core s.cur).hand = none)
    (hr : (s.core s.cur).vec.reneg = none) (hg : (s.core s.cur).vec.grant = 0) :
    exec i s = .next (takeTrap s s.cur 0x20 (encode i) 0 (s.core s.cur).pc) := by
  obtain ⟨xs, align, hu, hexec, _⟩ := exec_eq_vecMem hi
  rw [hexec, vecMem_of_ready (hu ▸ h) hh hr, if_pos hg, raiseD_eq_takeTrap rfl]

theorem vector_decides {s : State} {i : Instr} (hi : issuesTo i = some .VX) (binding : Prop) (h : s.ready (uses i) = true)
    (hh : (s.core s.cur).hand = none) (hr : (s.core s.cur).vec.reneg = none) (hg : (s.core s.cur).vec.grant ≠ 0) :
    IssueDecides s i (uses i) .VX (baseVals (s.vals (uses i))) binding (issueChecks s i (baseVals (s.vals (uses i)))) := by
  obtain ⟨xs, align, hu, hexec, hchecks⟩ := exec_eq_vecMem hi
  rw [hu] at h ⊢
  have hx := (hexec s).trans (vecMem_of_ready h hh hr)
  rw [if_neg hg] at hx
  rcases hchecks s (baseVals (s.vals { ds := [xs], engs := [.VX], moves := true })) with hc | ⟨rfl, hc⟩
  · rw [hc]
    exact alignment_decides hx (fun hrest _ => hrest)
  · rw [hc]
    rw [Nat.mod_one, if_neg (by simp)] at hx
    exact fun _ => hx

/-! ## The statement of the issues -/

/-- The operands as an engine's entries name them. -/
def issueVals (s : State) (i : Instr) (e : Engine) : Vals := if e = .VX then baseVals (s.vals (uses i)) else s.vals (uses i)

theorem issue_decides {s : State} {i : Instr} {e : Engine} (hi : issuesTo i = some e) (h : s.ready (uses i) = true)
    (hh : (s.core s.cur).hand = none) (hv : e = .VX → (s.core s.cur).vec.reneg = none ∧ (s.core s.cur).vec.grant ≠ 0) :
    IssueDecides s i (uses i) e (issueVals s i e) (awaitsBind s i e (issueVals s i e)) (issueChecks s i (issueVals s i e)) := by
  match e, hi, hv with
  | .VX, hi, hv => exact vector_decides hi _ h hh (hv rfl).1 (hv rfl).2
  | .MX, hi, _ => exact matrix_decides hi _ h hh
  | .GL, hi, _ => exact gallery_decides hi _ h hh
  | .PS, hi, _ => exact ferry_decides hi h hh
  | .CP, hi, _ => exact copy_decides hi _ h hh

theorem engineIssues_checks : Claims.EngineIssues := by
  intro s i e hi u c v checks binding h hh
  refine ⟨fun he hr hg => vector_no_grant (he ▸ hi) h hh hr hg, fun hv => ?_⟩
  have hd := issue_decides hi h hh hv
  exact ⟨fun n x hn hx hbefore hbinding => hd.first hn hx hbefore hbinding, fun hall hbinding hpub hreads =>
    engineIssue_offers (hd.none hall hbinding) rfl rfl hpub hreads⟩

end Sys2Proof.Proofs
end

section
/-!
PROOFS. Instructions that read a descriptor at issue: CPY, PSBIND and PSJOIN (R360, R361, R393, R394).
-/
namespace Sys2Proof.Proofs
open Sys2Proof Sys2Proof.Machine Sys2Proof.Claims

/-! ## What translation and the read move leave of an issue -/

/-- What an issue takes from the state stands as it stood: the core that runs, its address, its command's fields and its publication. -/
structure KeepsIssue (s t : State) (k : Nat) : Prop where
  cur : t.cur = s.cur
  pc : (t.core k).pc = (s.core k).pc
  masid : (t.core k).masid = (s.core k).masid
  task : (t.core k).task = (s.core k).task
  pubDone : (t.core k).pubDone = (s.core k).pubDone
  acc : (t.core k).acc = (s.core k).acc

theorem KeepsIssue.refl (s : State) (k : Nat) : KeepsIssue s s k := ⟨rfl, rfl, rfl, rfl, rfl, rfl⟩

theorem KeepsIssue.trans {s t r : State} {k : Nat} (h : KeepsIssue s t k) (h' : KeepsIssue t r k) : KeepsIssue s r k :=
  ⟨h'.cur.trans h.cur, h'.pc.trans h.pc, h'.masid.trans h.masid, h'.task.trans h.task, h'.pubDone.trans h.pubDone, h'.acc.trans h.acc⟩

theorem keepsIssue_setCore {s : State} {k : Nat} {c : Core} (hpc : c.pc = (s.core k).pc) (hmasid : c.masid = (s.core k).masid)
    (htask : c.task = (s.core k).task) (hpub : c.pubDone = (s.core k).pubDone) (hacc : c.acc = (s.core k).acc) :
    KeepsIssue s (s.setCore k c) k := by
  constructor <;> simp only [core_setCore_same, State.setCore_cur, *]

/-- Every end of a walk writes the memory system alone. -/
theorem walk_keepsIssue (s : State) (k die port asid va : Nat) (kind : AccKind) : KeepsIssue s (walk s die port asid va kind).2 k := by
  simp only [walk]
  repeat' split
  all_goals exact ⟨rfl, rfl, rfl, rfl, rfl, rfl⟩

theorem translate_keepsIssue (s : State) (k die asid va : Nat) (kind : AccKind) : KeepsIssue s (translate s die asid va kind).2 k := by
  simp only [Machine.translate, translateFor]
  split
  · exact KeepsIssue.refl s k
  · split
    · split <;> exact KeepsIssue.refl s k
    · exact walk_keepsIssue s k die _ asid va kind

theorem translateRun_keepsIssue (s : State) (k die asid : Nat) (kind : AccKind) (vas acc : List Nat) :
    KeepsIssue s (translateRun s die asid kind vas acc).2 k := by
  rw [translateRun]
  induction vas generalizing s acc with
  | nil => exact KeepsIssue.refl s k
  | cons va r ih =>
    have hk := translate_keepsIssue s k die asid va kind
    rw [translateEach]
    split
    next pa x t ht =>
      rw [ht] at hk
      exact hk.trans (ih t (pa :: acc))
    next c d t ht =>
      rw [ht] at hk
      exact hk

theorem touch_keeps (c : Core) (va pa : Nat) : (c.touch va pa).pc = c.pc ∧ (c.touch va pa).masid = c.masid ∧
    (c.touch va pa).task = c.task ∧ (c.touch va pa).pubDone = c.pubDone ∧ (c.touch va pa).acc = c.acc := by
  rw [Core.touch]
  split <;> exact ⟨rfl, rfl, rfl, rfl, rfl⟩

theorem trace_keeps (c : Core) (ck code : Nat) (w0 w1 : Word) : (c.trace ck code w0 w1).pc = c.pc ∧
    (c.trace ck code w0 w1).masid = c.masid ∧ (c.trace ck code w0 w1).task = c.task ∧
    (c.trace ck code w0 w1).pubDone = c.pubDone ∧ (c.trace ck code w0 w1).acc = c.acc := by
  simp only [Core.trace]
  repeat' split
  all_goals exact ⟨rfl, rfl, rfl, rfl, rfl⟩

theorem readByte_keepsIssue (s : State) (k va pa : Nat) : KeepsIssue s (readByte s k va pa).2.2 k := by
  simp only [readByte]
  split
  · exact KeepsIssue.refl s k
  · split
    · exact KeepsIssue.refl s k
    · obtain ⟨hpc, hmasid, htask, hpub, hacc⟩ := touch_keeps
        { s.core k with snap := (s.core k).newLine (va / 64) (s.ms.bytesAt (.core k) (pa / 64 * 64) 64) (s.linePoison (pa / 64)) :: (s.core k).snap }
        va pa
      exact keepsIssue_setCore hpc hmasid htask hpub hacc

theorem readRun_keepsIssue (s : State) (k : Nat) (ps : List (Nat × Nat)) : KeepsIssue s (readRun s k ps).2.2 k := by
  induction ps generalizing s with
  | nil => exact KeepsIssue.refl s k
  | cons p r ih => exact (readByte_keepsIssue s k p.1 p.2).trans (ih _)

theorem scopeCheck_keepsIssue (s : State) (k va pa : Nat) : KeepsIssue s (scopeCheck s k va pa) k := by
  simp only [scopeCheck]
  split
  · exact KeepsIssue.refl s k
  · split
    · exact KeepsIssue.refl s k
    · split
      · exact KeepsIssue.refl s k
      · split
        · split
          · obtain ⟨hpc, hmasid, htask, hpub, hacc⟩ := trace_keeps
              { s.core k with dbg := { (s.core k).dbg with flagged := (va / 64) :: (s.core k).dbg.flagged } } s.ck 0x1005 (BitVec.ofNat 32 va) _
            exact keepsIssue_setCore hpc hmasid htask hpub hacc
          · exact keepsIssue_setCore rfl rfl rfl rfl rfl
        · exact keepsIssue_setCore rfl rfl rfl rfl rfl

theorem scopeChecks_keepIssue (s : State) (k : Nat) (ps : List (Nat × Nat)) :
    KeepsIssue s (ps.foldl (fun s p => scopeCheck s k p.1 p.2) s) k := by
  induction ps generalizing s with
  | nil => exact KeepsIssue.refl s k
  | cons p r ih => exact (scopeCheck_keepsIssue s k p.1 p.2).trans (ih _)

theorem readMove_keepsIssue (s : State) (k : Nat) (pc : Word) (ps : List (Nat × Nat)) : KeepsIssue s (readMove s k pc ps).2.2 k := by
  have hread := (scopeChecks_keepIssue s k (wordStarts ps)).trans (readRun_keepsIssue _ k ps)
  simp only [readMove]
  split
  · exact hread.trans (keepsIssue_setCore rfl rfl rfl rfl rfl)
  · exact hread

theorem readBytes_keepsIssue {s t : State} {k va : Nat} {pc : Word} {pas : List Nat} {bs : List Byte} {p : Bool}
    (h : readBytes s k pc va pas = some (bs, p, t)) : KeepsIssue s t k := by
  rw [readBytes] at h
  split at h
  · cases h
  · have hk := readMove_keepsIssue s k pc ((vaRange va pas.length).zip pas)
    rw [Option.some.inj h] at hk
    exact hk

/-! ## The issue after its read -/

theorem KeepsIssue.raise_eq {s t : State} (h : KeepsIssue s t s.cur) (i : Instr) (addr : Word) :
    raise i t 0x04 addr = takeTrap t s.cur 0x04 (encode i) addr (s.core s.cur).pc := by
  rw [raise_eq_takeTrap rfl, h.cur, h.pc]
  rfl

theorem KeepsIssue.raiseD_eq {s t : State} (h : KeepsIssue s t s.cur) {cause : Nat} (hc : isPage cause = false) (detail addr : Word) :
    raiseD t cause detail addr = takeTrap t s.cur cause detail addr (s.core s.cur).pc := by
  rw [raiseD_eq_takeTrap hc, h.cur, h.pc]

theorem KeepsIssue.command_eq {s t : State} (h : KeepsIssue s t s.cur) (i : Instr) (v : Vals) (w : List Word) :
    command (t.core t.cur) i v w = command (s.core s.cur) i v w := by
  rw [command, h.cur, h.pc, h.masid, Core.launch, h.task]
  rfl

/-- An issue after its read offers the command as the core stood before it. -/
theorem KeepsIssue.offers {s t : State} (h : KeepsIssue s t s.cur) {i : Instr} {e : Engine} {v : Vals} {p : Bool} {w : List Word}
    (hi : exec i s = engineIssue i (uses i) e { v with poison := p } t w) (hpub : (s.core s.cur).pubDone = false)
    (hreads : (s.core s.cur).readsDone = true) :
    Offers i (uses i) p (.cmd e (command (s.core s.cur) i v w)) s
      (t.updCore s.cur (fun c => { published (issueScope e) c with pubDone := true })) := by
  have hoff := engineIssue_offers hi rfl h.cur (by rw [h.cur, h.pubDone, hpub]) (by rw [h.cur, Core.readsDone, h.acc]; exact hreads)
  rw [h.command_eq] at hoff
  exact hoff

/-! ## CPY (R393, R394) -/

theorem word_ne_zero_iff (w : Word) : w ≠ 0 ↔ w.toNat ≠ 0 := not_congr BitVec.toNat_inj.symm

theorem cpyDescBad_iff (w : List Word) : cpyDescBad w = true ↔
    ((w.getD 0 0).toNat % 4 ≠ 0 ∨ (w.getD 1 0).toNat % 4 ≠ 0 ∨ (w.getD 2 0).toNat % 2 ^ 16 % 4 ≠ 0 ∨ (w.getD 2 0).toNat % 2 ^ 16 = 0 ∨
      (w.getD 2 0).toNat / 2 ^ 16 = 0 ∨ 4096 < (w.getD 2 0).toNat / 2 ^ 16 ∨ (w.getD 3 0).toNat % 4 ≠ 0 ∨ (w.getD 4 0).toNat % 4 ≠ 0 ∨
      1 < (w.getD 5 0).toNat ∨ (w.getD 6 0).toNat ≠ 0 ∨ (w.getD 7 0).toNat ≠ 0) := by
  have hlen : wf (w.getD 2 0) 0 16 = (w.getD 2 0).toNat % 2 ^ 16 := by simp [wf]
  have hrows : wf (w.getD 2 0) 16 16 = (w.getD 2 0).toNat / 2 ^ 16 := by
    have := (w.getD 2 0).isLt
    rw [wf]
    omega
  simp only [cpyDescBad, hlen, hrows, Bool.or_eq_true, bne_iff_ne, word_ne_zero_iff, beq_iff_eq, decide_eq_true_eq, or_assoc]

theorem execCpy_misaligned {s : State} {d : Dst} {a : Src} {u : Uses} (hu : { a, dst := d, engs := [.CP], moves := true } = u)
    (h : s.ready u = true) (hh : (s.core s.cur).hand = none) (ha : (s.vals u).a.toNat % 32 ≠ 0) :
    execCpy d a s = .next (raise (.cpy d a) s 0x04 (s.vals u).a) := by
  subst hu
  simp only [execCpy]
  rw [offered_of_no_hand hh, gate_of_ready h, if_pos ha]

/-- CPY once its descriptor is read: its limits. -/
theorem execCpy_read {s s1 s2 : State} {d : Dst} {a : Src} {u : Uses} {pas : List Nat} {bs : List Byte} {p : Bool}
    (hu : { a, dst := d, engs := [.CP], moves := true } = u) (h : s.ready u = true) (hh : (s.core s.cur).hand = none)
    (ha : ¬ (s.vals u).a.toNat % 32 ≠ 0)
    (htr : translateRun s (coreDie s.cur) (s.core s.cur).masid .load (vaRange (s.vals u).a.toNat 32) [] = (.inl pas, s1))
    (hrd : readBytes s1 s.cur (s1.core s.cur).pc (s.vals u).a.toNat pas = some (bs, p, s2)) :
    execCpy d a s = if cpyDescBad (wordsOf 8 bs) then .next (raiseD s2 0x02 0 0)
      else engineIssue (.cpy d a) u .CP { s.vals u with poison := (s.vals u).poison || p } s2 (wordsOf 8 bs) := by
  subst hu
  simp only [execCpy]
  rw [offered_of_no_hand hh, gate_of_ready h]
  simp only [if_neg ha, htr, hrd]

/-! ## PSBIND and PSJOIN (R360, R361) -/

/-- The reserved fields of a bind's record. -/
def bindReserved (join : Bool) (b : Word) (w : List Word) : Prop :=
  ((w.getD 0 0).getLsbD 15 || w.getD 6 0 != 0 || w.getD 7 0 != 0 || (w.getD 1 0).toNat < 64 || 16777216 < (w.getD 1 0).toNat ||
    (if join then (w.getD 4 0).toNat + (w.getD 5 0).toNat * 2 ^ 32 != 0
      else (w.getD 4 0).toNat + (w.getD 5 0).toNat * 2 ^ 32 == 0 || 2 ^ 40 < (w.getD 4 0).toNat + (w.getD 5 0).toNat * 2 ^ 32)) = true ∨
    (join && ((w.getD 0 0).getLsbD 14 || b.toNat / 4096 != 0)) = true

theorem getLsbD_iff_div_mod (w : Word) (n : Nat) : w.getLsbD n = true ↔ w.toNat / 2 ^ n % 2 = 1 := getLsbD_iff_fld w n

theorem bindReserved_iff (join : Bool) (b : Word) (w : List Word) : bindReserved join b w ↔
    ((w.getD 0 0).toNat / 2 ^ 15 % 2 = 1 ∨ (w.getD 6 0).toNat ≠ 0 ∨ (w.getD 7 0).toNat ≠ 0 ∨ (w.getD 1 0).toNat < 64 ∨
      16777216 < (w.getD 1 0).toNat ∨
      (join = false ∧ ((w.getD 4 0).toNat + (w.getD 5 0).toNat * 2 ^ 32 = 0 ∨
        2 ^ 40 < (w.getD 4 0).toNat + (w.getD 5 0).toNat * 2 ^ 32)) ∨
      (join = true ∧ ((w.getD 4 0).toNat + (w.getD 5 0).toNat * 2 ^ 32 ≠ 0 ∨ (w.getD 0 0).toNat / 2 ^ 14 % 2 = 1 ∨
        4096 ≤ b.toNat))) := by
  have hhandle : b.toNat / 4096 ≠ 0 ↔ 4096 ≤ b.toNat := by omega
  cases join <;>
  simp only [bindReserved, Bool.or_eq_true, Bool.and_eq_true, getLsbD_iff_div_mod, bne_iff_ne, word_ne_zero_iff, beq_iff_eq, decide_eq_true_eq,
    if_true, if_false, Bool.false_eq_true, reduceCtorEq, true_and, false_and, false_or, or_false, or_assoc, hhandle]

theorem bindIssue_misaligned {i : Instr} {u : Uses} {s : State} {join : Bool} (h : s.ready u = true) (hh : (s.core s.cur).hand = none)
    (ha : (s.vals u).a.toNat % 32 ≠ 0) : bindIssue i u s join = .next (raise i s 0x04 (s.vals u).a) := by
  rw [bindIssue, offered_of_no_hand hh, gate_of_ready h]
  exact if_pos ha

/-- PSBIND and PSJOIN once their record is read: its arrays, its reserved fields, its group. -/
theorem bindIssue_read {i : Instr} {u : Uses} {s s1 s2 : State} {join : Bool} {pas : List Nat} {bs : List Byte} {p : Bool}
    (h : s.ready u = true) (hh : (s.core s.cur).hand = none) (ha : ¬ (s.vals u).a.toNat % 32 ≠ 0)
    (htr : translateRun s (coreDie s.cur) (s.core s.cur).masid .load (vaRange (s.vals u).a.toNat 32) [] = (.inl pas, s1))
    (hrd : readBytes s1 s.cur (s1.core s.cur).pc (s.vals u).a.toNat pas = some (bs, p, s2)) {w : List Word} (hw : wordsOf 8 bs = w) :
    ((w.getD 2 0).toNat % 64 ≠ 0 → bindIssue i u s join = .next (raise i s2 0x04 (w.getD 2 0))) ∧
    (¬ (w.getD 2 0).toNat % 64 ≠ 0 → (w.getD 3 0).toNat % 64 ≠ 0 → bindIssue i u s join = .next (raise i s2 0x04 (w.getD 3 0))) ∧
    (¬ (w.getD 2 0).toNat % 64 ≠ 0 → ¬ (w.getD 3 0).toNat % 64 ≠ 0 →
      (bindReserved join (s.vals u).b w → bindIssue i u s join = .next (raiseD s2 0x02 0 0)) ∧
      (¬ bindReserved join (s.vals u).b w →
        (¬ ownsGroup s2 s.cur (wf (w.getD 0 0) 0 8) = true → bindIssue i u s join = .next (raiseD s2 0x50 (s.vals u).a 0)) ∧
        (ownsGroup s2 s.cur (wf (w.getD 0 0) 0 8) = true →
          bindIssue i u s join = engineIssue i u .PS { s.vals u with poison := (s.vals u).poison || p } s2 w))) := by
  subst hw
  rw [bindIssue, offered_of_no_hand hh, gate_of_ready h]
  simp only [if_neg ha, htr, hrd]
  refine ⟨fun h2 => if_pos h2, fun h2 h3 => (if_neg h2).trans (if_pos h3), fun h2 h3 => ?_⟩
  rw [if_neg h2, if_neg h3]
  refine ⟨fun hr => ?_, fun hr => ?_⟩
  · rcases hr with hr | hr
    · exact if_pos hr
    · rw [if_pos hr, ite_self]
  · rw [bindReserved, not_or] at hr
    rw [if_neg hr.1, if_neg hr.2]
    exact ⟨fun hg => if_pos (by simpa using hg), fun hg => if_neg (by simpa using hg)⟩

/-! ## The statement of the descriptors -/

/-- What a read of a descriptor leaves of the issue. -/
theorem descriptorRead_keepsIssue {s s1 s2 : State} {k die asid va : Nat} {vas pas : List Nat} {pc : Word} {bs : List Byte} {p : Bool}
    (htr : translateRun s die asid .load vas [] = (.inl pas, s1)) (hrd : readBytes s1 k pc va pas = some (bs, p, s2)) :
    KeepsIssue s s2 k := by
  have hk := translateRun_keepsIssue s k die asid .load vas []
  rw [htr] at hk
  exact hk.trans (readBytes_keepsIssue hrd)

/-- The address at which a descriptor's read stands is the issue's own. -/
theorem translateRun_pc {s s1 : State} {k die asid : Nat} {vas pas : List Nat}
    (htr : translateRun s die asid .load vas [] = (.inl pas, s1)) : (s1.core k).pc = (s.core k).pc := by
  have hk := translateRun_keepsIssue s k die asid .load vas []
  rw [htr] at hk
  exact hk.pc

/-- A descriptor's issue is CPY, or one of the two binds with its operands. -/
theorem descriptor_cases {i : Instr} {e : Engine} {join : Bool} (hi : (∃ d a, i = .cpy d a ∧ e = .CP) ∨
    (∃ d a, i = .psbind d a ∧ e = .PS ∧ join = false) ∨ (∃ a b, i = .psjoin a b ∧ e = .PS ∧ join = true)) :
    (∃ d a, i = .cpy d a ∧ e = .CP) ∨ (e = .PS ∧ ∀ s, exec i s = bindIssue i (uses i) s join) := by
  rcases hi with hi | ⟨d, a, rfl, rfl, rfl⟩ | ⟨a, b, rfl, rfl, rfl⟩
  · exact Or.inl hi
  · exact Or.inr ⟨rfl, fun _ => rfl⟩
  · exact Or.inr ⟨rfl, fun _ => rfl⟩

theorem engineIssues_descriptors : Claims.DescriptorIssues := by
  intro s s1 s2 i e join pas bs p hi u v c w x mass bad crooked h hh
  rcases descriptor_cases hi with ⟨d, a, rfl, rfl⟩ | ⟨rfl, hexec⟩
  · refine ⟨fun ha => ?_, fun ha htr hrd => ?_⟩
    · exact (execCpy_misaligned rfl h hh ha).trans (congrArg _ (raise_eq_takeTrap rfl))
    · have hk : KeepsIssue s s2 s.cur := descriptorRead_keepsIssue htr hrd
      have hx : exec (.cpy d a) s = _ := execCpy_read rfl h hh (Classical.not_not.mpr ha) htr (translateRun_pc htr ▸ hrd)
      have hbad : cpyDescBad w = true ↔ bad := cpyDescBad_iff w
      refine ⟨fun hc => absurd hc.1 (by decide), fun _ hc => absurd hc.1 (by decide), fun _ _ => ⟨fun hb => ?_, fun _ he => (by cases he),
        fun hb _ hpub hreads => ?_⟩⟩
      · rw [hx, if_pos (hbad.mpr hb), hk.raiseD_eq rfl]
      · rw [if_neg (mt hbad.mp hb)] at hx
        exact hk.offers hx hpub hreads
  · refine ⟨fun ha => ?_, fun ha htr hrd => ?_⟩
    · rw [hexec, bindIssue_misaligned h hh ha, raise_eq_takeTrap rfl]
      rfl
    · have hk : KeepsIssue s s2 s.cur := descriptorRead_keepsIssue htr hrd
      obtain ⟨harray2, harray3, hrest⟩ :=
        bindIssue_read (i := i) (join := join) h hh (Classical.not_not.mpr ha) htr (translateRun_pc htr ▸ hrd) rfl
      have hbad : bindReserved join v.b w ↔ bad := bindReserved_iff join v.b w
      have hgroup : ownsGroup s2 s.cur (wf (w.getD 0 0) 0 8) = true ↔ mayUseGroup s2 s.cur (x 0 % 256) := by
        have hfield : wf (w.getD 0 0) 0 8 = (w.getD 0 0).toNat % 256 := by
          simp only [wf]
          omega
        rw [hfield]
        exact ownsGroup_iff s2 s.cur _
      have hstraight {n : Nat} (hc : ¬ crooked n) : ¬ (w.getD n 0).toNat % 64 ≠ 0 := fun hx => hc ⟨rfl, hx⟩
      rw [hexec]
      refine ⟨fun hc => ?_, fun h2 hc => ?_, fun h2 h3 => ?_⟩
      · rw [harray2 hc.2, hk.raise_eq]
      · rw [harray3 (hstraight h2) hc.2, hk.raise_eq]
      · obtain ⟨hreserved, hfields⟩ := hrest (hstraight h2) (hstraight h3)
        refine ⟨fun hb => ?_, fun hb _ hg => ?_, fun hb hg hpub hreads => ?_⟩
        · rw [hreserved (hbad.mpr hb), hk.raiseD_eq rfl]
        · rw [(hfields (mt hbad.mp hb)).1 (mt hgroup.mp hg), hk.raiseD_eq rfl]
        · exact hk.offers ((hexec s).trans ((hfields (mt hbad.mp hb)).2 (hgroup.mpr (hg rfl)))) hpub hreads

/-- Settles O35: the checks of each engine's instructions are decided in their order, and an instruction that passes them offers its command;
a descriptor's read changes nothing that its issue takes from the core. -/
theorem engineIssues : Obligations.EngineIssues := ⟨engineIssues_checks, engineIssues_descriptors⟩

end Sys2Proof.Proofs
end

section
/-!
PROOFS. The sequencer's accept of an offered entry with a poisoned operand (R194, R224, R230).
-/
namespace Sys2Proof.Proofs
open Sys2Proof Sys2Proof.Machine Sys2Proof.Claims

/-- A core that stands in a VLD with its entry offered, S having been read with poison. -/
def poisonedVectorOffer : State :=
  State.reset.updCore 0 (fun c => { c with
    standing := some (.vld .w 0 1), hand := some (.cmd .VX { instr := .vld .w 0 1 }), handPoison := true })

/-- Poison of S in each entry of core 0's sequencer after an outcome. -/
def sequencedPoison : Out → List Bool
  | .next t => (t.core 0).vec.seq.map (·.sp)
  | _ => []

/-- The accept clears the core's mark of poison before it makes the entry, so the entry's S is not poisoned. -/
theorem sequencedPoison_accept : sequencedPoison (exec (.engineAccept 0) poisonedVectorOffer) = [false] := by decide +kernel

/-- Refutes O36: the entry that the sequencer takes loses the poison of its operand S. -/
theorem not_engineAccepts : ¬ Obligations.EngineAccepts := by
  intro h
  have hacc := h poisonedVectorOffer poisonedVectorOffer 0 .VX { instr := .vld .w 0 1 } [] rfl rfl rfl (show ¬ 16 ≤ 0 by decide) rfl rfl
    (fun _ _ e => by cases e) (fun _ e => by cases e)
  obtain ⟨t, hexec, hret⟩ := hacc.1 rfl
  have hseq : (t.core 0).vec.seq.map (·.sp) = [true] := by
    have hcore := congrArg (fun c => c.vec.seq.map (·.sp)) hret.core
    exact hcore
  have hmodel := sequencedPoison_accept
  rw [hexec] at hmodel
  exact absurd (hseq.symm.trans hmodel) (by decide)

end Sys2Proof.Proofs
end
